-- ==== Sys2Proof/Word.lean ====
section
/-! DEFINITION. The word types of the block: a byte, a BAR0 word, a 64-byte item and a 16-byte item (R6, R29, R50, R58). -/

namespace Sys2Proof

/-- One byte, as host-memory buffers, OTP, quilt messages and frames hold it (R6, R7). -/
abbrev Byte := BitVec 8

/-- One 32-bit BAR0 word (R29). -/
abbrev Word32 := BitVec 32

/-- A 64-byte command or response item (R50, R53), byte 0 in bits [7:0] (R6). -/
abbrev Item := BitVec 512

/-- A 16-byte event or time-stamp item, or one 16-byte host-memory descriptor (R51, R58). -/
abbrev Item16 := BitVec 128

end Sys2Proof
end

