-- ==== Sys2Proof/Syntax.lean ====
section
/-! DEFINITION. The commands of the block, whole: one constructor per row of the opcode table, with their operands. -/

namespace Sys2Proof.Machine

/-- A bobbin that the host consumes (R31, R32): a slot's responses, the events, or the time-stamps. -/
inductive Bob where
  | slot (n : Nat) | event | stamp
deriving DecidableEq, Repr

/-- The door through which a BAR0 word is reached (R34). -/
inductive Door where
  | pcie | spi
deriving DecidableEq, Repr

/-- An access to the words of BAR0: over PCIe its address, how many bytes it has and, of a write, their value; over SPI the bytes that
the host shifts in while `SPI_CS_N` is low (R29, R34). -/
inductive Access where
  | pcie (addr bytes value : Nat)
  | spi (mosi : List Byte)
deriving DecidableEq, Repr

/-- One host command as the controller meets it: the slot whose command bobbin holds its item, the descriptor list and the
bytes of the described buffers, as the device reads them by DMA (R51) (DESIGN CHOICE, assumption 4). -/
structure HostCall where
  slot : Nat
  descs : List Item16
  bytes : List Byte
deriving DecidableEq, Repr

/-- The state of the PCIe link, as far as the spec distinguishes it (R51, R499). -/
inductive PcieState where
  | down | training | l0 | l1
deriving DecidableEq, Repr

/-- A power unit (R19, R478), in the wake order of R482. -/
inductive PowerUnit where
  | pll | core | wb (n : Nat) | sc (n : Nat) | lem | hbm (n : Nat) | pipe (n : Nat) | cipher (n : Nat)
  | hostIn (n : Nat) | stIn (n : Nat) | hostOut (n : Nat) | stOut (n : Nat) | capt
deriving DecidableEq, Repr

/-- How a wake ends (R482): running, or a unit that failed (such as an ingress without `REFCLK_SER`, R560). -/
inductive WakeResult where
  | running | failed
deriving DecidableEq, Repr

/-- How OTP programming ends (R530): done; `VPP_OTP` absent at the check; out of range after that many whole bits; or a
read-back that differs. -/
inductive OtpEnd where
  | done | noVpp | leftVpp (bits : Nat) | verify
deriving DecidableEq, Repr

/-- What starts or may start a patch's boundary in a commit (R73): the device frame boundary, or a subcarrier's receive frame
boundary. -/
inductive ApplyPoint where
  | device | receive (sc : Nat)
deriving DecidableEq, Repr

/-- A link of the quilt (R83): a line link by subcarrier, at a hub the bursts of a leaf by its `LEAF_ID` (R291), or the stitch port. -/
inductive QLink where
  | line (sc : Nat) | burst (leaf : Nat) | stitch
deriving DecidableEq, Repr

/-- The header of a quilt message and the link it arrived on (R85). -/
structure QHead where
  link : QLink
  bcast : Bool
  hopsLeft : Nat
  dst : Nat
  src : Nat
  opId : Nat
deriving DecidableEq, Repr

/-- The body of `HELLO` (R86). -/
structure HelloBody where
  coord : Nat
  distance : Nat
  detached : Bool
  isCoord : Bool
  quiltGen : Nat
  subtree : Nat
  maxDepth : Nat
deriving DecidableEq, Repr

/-- One part of a `CMD` or `RSP` stream (R86). -/
structure PartBody where
  slot : Nat
  last : Bool
  part : Nat
  offset : Nat
  bytes : List Byte
deriving DecidableEq, Repr

/-- A quilt time: seconds and nanoseconds (R320). -/
structure QTime where
  sec : Nat
  ns : Nat
deriving DecidableEq, Repr

/-- The body of `PREPARE` (R86). -/
structure PrepareBody where
  target : Nat
  newGen : Nat
  ackDeadline : QTime
  tMax : QTime
  policy : Nat
deriving DecidableEq, Repr

/-- The body of `ACK` (R86). -/
structure AckBody where
  newGen : Nat
  count : Nat
  missCount : Nat
  digest : Item16
  missing : List Nat
deriving DecidableEq, Repr

/-- The samples of an ADC over one interval: how many there were of each code (R99, R107). -/
structure LevelMeas where
  codes : List (Int × Nat)
deriving DecidableEq, Repr

/-- What one pass measures of a slice against the mean of its converter's slices, in the units of R126 (R118, R119): offset, gain, skew and
bandwidth. -/
structure SliceMeas where
  offset : Int := 0
  gain : Int := 0
  skew : Int := 0
  bw : Int := 0
deriving DecidableEq, Repr

/-- The quantities of one converter: its physical slices, and a DAC's linearity table (R118). What is not listed is 0. -/
structure CalConv where
  slices : List SliceMeas := []
  lin : List Int := []
deriving DecidableEq, Repr

/-- What a calibration run measures (R118, R119, R128): the two passes over the converters, and per converter the residual in 0.1 dBc
and the two ENOB estimates in 0.01 bit. -/
structure CalMeas where
  passA : List CalConv
  passB : List CalConv
  quality : List (Int × Nat × Nat)
deriving DecidableEq, Repr

/-- How a laser bus transaction ends (R115): done, with the bytes read; no acknowledge; or a line held low at its start. -/
inductive LasEnd where
  | done (data : List Byte) | nack | heldLow
deriving DecidableEq, Repr

/-- A complex sample or coefficient, in 2^-16 of the root of the mean power of a polarisation's symbols (DESIGN CHOICE, assumption 204). -/
structure Cx where
  re : Int := 0
  im : Int := 0
deriving DecidableEq, Repr

/-- One sample or symbol of the two polarisations X and Y. -/
structure Cx2 where
  x : Cx := {}
  y : Cx := {}
deriving DecidableEq, Repr

/-- The taps of the butterfly (R173): four complex filters of 15 taps spaced half a symbol, named output first, then input. -/
structure Taps where
  xx : List Cx := []
  xy : List Cx := []
  yx : List Cx := []
  yy : List Cx := []
deriving DecidableEq, Repr

/-- What the wideband tiles estimate over one received multiframe (R163, R180): the line's frequency offset in MHz as the common loop has it; the
adaptive gains and phases of X and Y, and the residual skews of the four lanes. -/
structure MultiMeas where
  lineFreq : Int
  iq : List Int
  skews : List Int
deriving DecidableEq, Repr

/-- The scores of a dispersion scan (R172): the clock-tone power of each coarse candidate in order, and of each fine candidate from the
lowest on. -/
structure ScanMeas where
  coarse : List Nat
  fine : List Nat
deriving DecidableEq, Repr

/-- What a tree message record is addressed with (R295): `MSEQ` and `LEAF_ID`. -/
structure TreeHead where
  mseq : Nat
  leaf : Nat
deriving DecidableEq, Repr

/-- The body of `MOVE` (R295). -/
structure MoveBody where
  rxFirst : Nat
  rxCount : Nat
  txFirst : Nat
  txCount : Nat
  home : Nat
  dedicated : Bool
deriving DecidableEq, Repr

/-- The body of `REPORT` (R295). -/
structure ReportBody where
  freq : Nat
  snr : Nat
  bei : Nat
  bdi : Bool
  rtd : Nat
deriving DecidableEq, Repr

/-- The equalised symbols that the aligner checks (R236, R237): the 64 of the word, and those at the pilot positions of the frame. -/
structure FrameSyms where
  word : List Cx2
  pilots : List Cx2
deriving DecidableEq, Repr

/-- What the open search of a subcarrier meets (R303): 129 symbols that may be a preamble; a context, the older (0) or the younger (1), without
a unique word in its window; only that one of two overlapping contexts with its word; both with theirs, their starts so many symbols apart. -/
inductive SearchEvent where
  | detected (r : List Cx2) | noWord (i : Nat) | oneWord (i : Nat) | bothWords (gap : Nat)
deriving DecidableEq, Repr

/-- A discovery or echo burst (R284, R288, R303): its subcarrier; its arrival after D_F in 1/8 symbol; the sample codes of the ADCs XI, XQ, YI
and YQ from 2,400 TC before the TC of that arrival; carrier offset in MHz and preamble power in 0.01 dBFS. -/
structure OpenBurst where
  sc : Nat
  arrival : Int
  codes : List (List Int)
  freq : Int
  power : Int
deriving DecidableEq, Repr

/-- What the firmware has measured at a selection evaluation (R347, R353): the frequency of `STITCH`, `PTP` and `EXTF` against
TC in ppt, and the PTP servo's offset in ps. -/
structure RefMeas where
  stitch : Int
  ptp : Int
  extf : Int
  ptpTime : Int
deriving DecidableEq, Repr

/-- A received stitch frame (R385, R386): its overhead bytes, its payload area, the fraction of an AC cycle of its arrival in 2^-16, and
by lane the symbols that were corrected and the slips of the relay or a far-end loopback store, below zero where words were dropped. -/
structure StitchFrame where
  soh : List Byte
  payload : List Byte
  frac : Nat
  symbols : List Nat
  slips : List Int
deriving DecidableEq, Repr


/-- What stands in a lane at the place of a marker: the 41 bytes after the sequence, and where it begins, in words (R384, R389). -/
structure Marker where
  bytes : List Byte
  word : Nat
deriving DecidableEq, Repr

/-- A word or line of a memory that a read finds in error: memory (0, 1 HBM stacks; 2 + n `sram[n]`), line or word, and whether it is
uncorrectable (R437). -/
structure MemHit where
  mem : Nat
  addr : Nat
  uncorr : Bool
deriving DecidableEq, Repr

/-- What a packet meets in the engine beyond its own bytes: how many packet cycles after the instant of its command each pass reaches the
intake (R409), that the windows' other users leave no loan for its buffering or its verified release (R436, R466), a destination still sending an earlier express packet (R426), the instant at which an express packet leaves, in AC cycles and 2^-16 of
one (R327), and a word in error that it reads (R440). -/
structure PktEnv where
  late : List Nat := []
  noShare : Bool := false
  noVerify : Bool := false
  busy : Bool := false
  outCnt : Nat := 0
  outCfr : Nat := 0
  hit : Option MemHit := none
deriving DecidableEq, Repr

/-- A frame from a host port: its bytes, the instant of its start in AC cycles and 2^-16 of one, the codewords corrected and
uncorrectable on its way, and by lane of the port the symbols corrected and the slips of a far-end loopback store, below zero where words
were dropped (R378, R383, R395). -/
structure HostFrame where
  port : Nat
  frame : List Byte
  cnt : Nat
  cfr : Nat
  corrected : Nat
  uncorr : Nat
  symbols : List Nat
  slips : List Int
deriving DecidableEq, Repr

/-- A scheduling opportunity of a destination (R427): its kind and number (R424), the bytes of credit that a port grants, the instant
at which a packet leaves a port, and a word in error that the read meets, in a packet's data or in its descriptor (R439, R440). -/
structure ServiceSlot where
  kind : Nat
  id : Nat
  credit : Nat
  cnt : Nat
  cfr : Nat
  hit : Option MemHit
  descriptor : Bool
deriving DecidableEq, Repr


/-- A received line frame (R11, R173): its subcarrier; the sample codes of the ADCs XI, XQ, YI and YQ from 2,400 TC before the TC in which its first
symbol stands at the ADC sample register, to what the decoder's window and the blocks that straddle its end take of the symbols that
follow (R210, R224); the pilot position mod 64 found in it (R190); and the instant at which its first symbol stands at the aligner, in AC
cycles and 2^-16 of one (R327). -/
structure RxFrame where
  sc : Nat
  codes : List (List Int)
  grid : Option Nat
  cnt : Nat
  cfr : Nat
deriving DecidableEq, Repr

/-- A granted data burst (R288, R300): the leaf that holds the grant; the upstream frame and slot of the grant; the sample codes of the ADCs XI,
XQ, YI and YQ from 2,400 TC before the TC in which its first symbol is expected; the part in 1/8 symbol by which the unique word lies
beside its symbol; the carrier offset in MHz; and what each packet that it delivers meets. -/
structure DataBurst where
  leaf : Nat
  frame : Nat
  slot : Nat
  codes : List (List Int)
  fine : Int
  freq : Int
  envs : List PktEnv
deriving DecidableEq, Repr

/-- The kinds of burst that a leaf sends (R291). -/
inductive BurstKind where
  | data | disc | echo
deriving DecidableEq, Repr

end Sys2Proof.Machine

namespace Sys2Proof

open Machine

/-- The commands of the block: one constructor per row of the opcode table. A host command carries its slot and its
host-memory buffer; its parameters stand in the item that `ring` put into the slot's command bobbin. An event carries what the
outside supplies with it. The commands with operands come first, since Lean compiles no constructor with operands beyond the 245th. -/
inductive Instr where
  /-- TAG_WRITE (R44). A write of TAG to a session slot claims a free slot, frees a closed slot with 0, or is ignored. -/
  | tagWrite (slot : Nat) (tag : BitVec 16)
  /-- RING (R40). A write of RING copies CMD_ITEM to the command bobbin's tail, taking one credit or closing the session on credit overrun. -/
  | ring (slot : Nat)
  /-- NEXT (R38). The NEXT operation moves the presented item to the read log as held and advances the read position. -/
  | next (b : Bob)
  /-- MARK (R38). The MARK operation sets the mark to the current read position. -/
  | mark (b : Bob)
  /-- REWIND (R38). The REWIND operation returns the read position to the mark and withdraws any presented item. -/
  | rewind (b : Bob)
  /-- RELEASE (R38). The RELEASE operation frees read-log items up to the one whose sequence number equals SEQ, returning credits. -/
  | release (b : Bob) (seq : BitVec 16)
  /-- PRESENTATION_READ (R37). A complete read of word 0 of a presentation window with no item presented presents the next read-log or highest-priority unread item, or returns the idle item. -/
  | presentationRead (r : Access)
  /-- IRQ_ARM_WRITE (R43). Writing 1 to bits of IRQ_ARM arms MSI-X vectors, sending a message at once if the condition already holds. -/
  | irqArmWrite (v : BitVec 16)
  /-- REGISTER_WRITE (R29). A write to a BAR0 word with no behaviour of its own, such as the attention fields or W1C flags, updates it or is ignored. -/
  | registerWrite (w : Access)
  /-- CLAIM_TIMEOUT (R44). A claimed slot that receives no RING within 1 s returns to free. -/
  | claimTimeout (slot : Nat)
  /-- CLOSED_SLOT_TIMEOUT (R44). A slot in the closed state returns to free after 10 s. -/
  | closedSlotTimeout (slot : Nat)
  /-- IDLE_TIMEOUT (R49). A session with a non-zero IDLE_TIMEOUT and no RING for that long closes with IDLE_TIMEOUT. -/
  | idleTimeout (slot : Nat)
  /-- SESSION_OPEN (R57). SESSION.OPEN requests a role and credits on a claimed slot and returns a device nonce, moving the slot to challenged. -/
  | sessionOpen (c : HostCall)
  /-- SESSION_PROVE (R47). SESSION.PROVE checks the host's HMAC proof and opens the session, or fails and closes the slot. -/
  | sessionProve (c : HostCall)
  /-- SESSION_CLOSE (R49). SESSION.CLOSE closes the session, discarding its staging and releasing its claims. -/
  | sessionClose (c : HostCall)
  /-- SESSION_EVICT (R57). SESSION.EVICT from a privileged session closes another open session with DENIED. -/
  | sessionEvict (c : HostCall)
  /-- SESSION_CLAIM (R57). SESSION.CLAIM takes or gives up the claim of the event or time-stamp bobbin. -/
  | sessionClaim (c : HostCall)
  /-- SESSION_CRED_SET (R57). SESSION.CRED_SET stages a wrapped session credential for a role, effective for later opens after commit. -/
  | sessionCredSet (c : HostCall)
  /-- SESSION_OP_RESULT (R57). SESSION.OP_RESULT returns the status of one of the session's 32 most recent accepted operations. -/
  | sessionOpResult (c : HostCall)
  /-- SYS_ROLE (R23). SYS.ROLE stages the role and stitch declaration while the device is DORMANT. -/
  | sysRole (c : HostCall)
  /-- SYS_ROLE_READ (R24). SYS.ROLE_READ returns the committed and staged role, the stitch declaration and the power state. -/
  | sysRoleRead (c : HostCall)
  /-- SYS_EVENT_SET (R61). SYS.EVENT_SET stages the enable and priority of a run of event sources. -/
  | sysEventSet (c : HostCall)
  /-- SYS_RESET (R526). SYS.RESET starts a warm device reset 1 ms later or schedules a unit reset at the next device frame boundary. -/
  | sysReset (c : HostCall)
  /-- SYS_BOOT_READ (R531). SYS.BOOT_READ returns the reset cause, secure state, warm reset count and start counter value. -/
  | sysBootRead (c : HostCall)
  /-- CFG_COMMIT (R71). CFG.COMMIT validates the session's staging and schedules it as one set locally or across the quilt. -/
  | cfgCommit (c : HostCall)
  /-- CFG_DISCARD (R70). CFG.DISCARD drops all of the session's unlocked staging and returns the entry count. -/
  | cfgDiscard (c : HostCall)
  /-- CFG_CANCEL (R78). CFG.CANCEL cancels an accepted timed or quilt commit if it is early enough. -/
  | cfgCancel (c : HostCall)
  /-- CFG_GEN_READ (R78). CFG.GEN_READ returns CFG_GEN, QUILT_GEN, SNAP_GEN and the snapshot time. -/
  | cfgGenRead (c : HostCall)
  /-- CFG_SNAP_PIN (R77). CFG.SNAP_PIN pins or unpins the session's view at the current snapshot. -/
  | cfgSnapPin (c : HostCall)
  /-- SNAP_PIN_EXPIRY (R77). A snapshot pin ends 1 s after it was set. -/
  | snapPinExpiry (slot : Nat)
  /-- CFG_GROUP_SET (R65). CFG.GROUP_SET stages the membership of a group. -/
  | cfgGroupSet (c : HostCall)
  /-- CFG_GROUP_READ (R78). CFG.GROUP_READ returns the session's group-read record. -/
  | cfgGroupRead (c : HostCall)
  /-- COMMIT_APPLY (R73). A validated commit applies its values at its apply point's device, receive or multiframe boundary. -/
  | commitApply (point : ApplyPoint)
  /-- QUILT_SET (R79). QUILT.SET stages the device number, coordinator number and quilt enable. -/
  | quiltSet (c : HostCall)
  /-- QUILT_VIEW (R93). QUILT.VIEW returns the quilt's single view and the detached list at the coordinator. -/
  | quiltView (c : HostCall)
  /-- QUILT_REJOIN (R93). QUILT.REJOIN stages the full resynchronisation of a detached device. -/
  | quiltRejoin (c : HostCall)
  /-- HELLO (R80). A received HELLO message updates the routing tree, distance and admission, and may trigger replay to a returning detached device. -/
  | hello (h : QHead) (b : HelloBody)
  /-- DETACH (R86). A received DETACH message records a device as detached with its QUILT_GEN. -/
  | detach (h : QHead) (dev gen reason : Nat)
  /-- CMD (R82). A received CMD message carries a forwarded command to its target device. -/
  | cmd (h : QHead) (b : PartBody)
  /-- RSP (R82). A received RSP message returns a forwarded command's response to the coordinator. -/
  | rsp (h : QHead) (b : PartBody)
  /-- FORWARD_TIMEOUT (R82). A forwarded command with no RSP within its wait completes with QUILT_UNREACHABLE. -/
  | forwardTimeout (slot : Nat)
  /-- PREPARE (R91). A received PREPARE validates the member's staging and locks it with an ACK or sends a VETO. -/
  | prepare (h : QHead) (b : PrepareBody)
  /-- ACK (R89). A received ACK adds its subtree's count and digest towards the coordinator's decision. -/
  | ack (h : QHead) (b : AckBody)
  /-- VETO (R89). A received VETO makes the coordinator abort with QUILT_VETO; relays forward only the first. -/
  | veto (h : QHead) (gen dev status : Nat)
  /-- COMMIT_AT (R91). A received COMMIT_AT schedules a prepared member to apply at T, or detaches it if late. -/
  | commitAt (h : QHead) (gen : Nat) (t : QTime)
  /-- ABORT (R91). A received ABORT discards the staging of the operation if it arrives in time. -/
  | abort (h : QHead) (gen status : Nat)
  /-- CONV_GAIN (R105). CONV.GAIN stages the input amplifier gain of ADCs. -/
  | convGain (c : HostCall)
  /-- CONV_SWING (R106). CONV.SWING stages the output swing of DACs. -/
  | convSwing (c : HostCall)
  /-- CONV_LEVEL_READ (R107). CONV.LEVEL_READ returns the level, peak, clip counts and alarms of converters. -/
  | convLevelRead (c : HostCall)
  /-- CONV_MON_SET (R108). CONV.MON_SET stages the clip and low-level alarm thresholds. -/
  | convMonSet (c : HostCall)
  /-- LEVEL_INTERVAL (R107). Each 1 ms interval ends the converters' level measurement and evaluates alarms and signal presence. -/
  | levelInterval (ms : List LevelMeas)
  /-- CONV_FE_SET (R113). CONV.FE_SET stages the front-end control bus clock divider. -/
  | convFeSet (c : HostCall)
  /-- CONV_FE_WRITE (R113). CONV.FE_WRITE stages up to 8 front-end register writes, checked against board-table limits. -/
  | convFeWrite (c : HostCall)
  /-- CONV_FE_READ (R113). CONV.FE_READ reads a front-end register, waiting behind commit writes in progress. -/
  | convFeRead (c : HostCall)
  /-- CONV_LAS_SET (R116). CONV.LAS_SET stages the description of the transmit and local-oscillator lasers. -/
  | convLasSet (c : HostCall)
  /-- CONV_LAS_WRITE (R117). CONV.LAS_WRITE stages a host laser-bus write issued at commit. -/
  | convLasWrite (c : HostCall)
  /-- CONV_LAS_READ (R117). CONV.LAS_READ reads bytes from a laser-bus target, waiting behind commit writes. -/
  | convLasRead (c : HostCall)
  /-- LASBUS_TRANSACTION_END (R115). A laser bus transaction ends, successfully or with a bus error, and the next queued transaction starts. -/
  | lasbusTransactionEnd (r : LasEnd)
  /-- CAL_RUN (R127). CAL.RUN starts a commanded calibration run, requesting leave. -/
  | calRun (c : HostCall)
  /-- CAL_POLICY (R126). CAL.POLICY stages the calibration trigger and tolerances. -/
  | calPolicy (c : HostCall)
  /-- CAL_QUALITY (R128). CAL.QUALITY returns residual, ENOB estimates and set status of converters. -/
  | calQuality (c : HostCall)
  /-- CAL_SETS (R127). CAL.SETS returns the counts and temperatures of held calibration sets. -/
  | calSets (c : HostCall)
  /-- CAL_EXPORT (R129). CAL.EXPORT writes the calibration sets as records to host memory. -/
  | calExport (c : HostCall)
  /-- CAL_IMPORT (R129). CAL.IMPORT stages calibration set records, checking identity, CRC and format. -/
  | calImport (c : HostCall)
  /-- CAL_DROP (R127). CAL.DROP stages the removal of calibration sets of the named modes. -/
  | calDrop (c : HostCall)
  /-- CAL_RUN_END (R119). The pass comparison ends a calibration run, accepting it as a set or rejecting it. -/
  | calRunEnd (m : CalMeas)
  /-- LOAD_PLAN (R146). LOAD.PLAN stages a subcarrier's transmit entropy and code. -/
  | loadPlan (c : HostCall)
  /-- LOAD_SNR_READ (R139). LOAD.SNR_READ returns the pilot SNR estimates and margin of subcarriers. -/
  | loadSnrRead (c : HostCall)
  /-- LOAD_POLICY (R153). LOAD.POLICY stages the planner margins, gaps, alarms and announcement settings. -/
  | loadPolicy (c : HostCall)
  /-- LOAD_NARROW (R157). LOAD.NARROW stages a leaf's narrow receive and transmit groups and laser offsets. -/
  | loadNarrow (c : HostCall)
  /-- LOAD_PROPOSE (R154). LOAD.PROPOSE computes a proposed plan for each subcarrier from measured SNR. -/
  | loadPropose (c : HostCall)
  /-- LOAD_STATUS (R158). LOAD.STATUS returns a subcarrier's transmit and receive plan state. -/
  | loadStatus (c : HostCall)
  /-- LOAD_SHAPE_READ (R158). LOAD.SHAPE_READ returns the matcher composition of an H_CODE. -/
  | loadShapeRead (c : HostCall)
  /-- TX_MULTIFRAME_BOUNDARY (R150). A subcarrier's transmit multiframe boundary advances its loading announcement state machine. -/
  | txMultiframeBoundary (sc : Nat)
  /-- RX_MULTIFRAME_BOUNDARY (R151). A subcarrier's received multiframe boundary switches an armed plan and closes the multiframe's SNR and rate estimates. -/
  | rxMultiframeBoundary (sc : Nat) (m : MultiMeas)
  /-- LINE_FRAME_RECEIVED (R226). A received line frame's overhead, pilots, beacon and payload are taken in by a subcarrier's receiver. -/
  | lineFrameReceived (f : RxFrame)
  /-- EQ_CD_SET (R169). EQ.CD_SET stages the dispersion class, value and slope. -/
  | eqCdSet (c : HostCall)
  /-- EQ_CD_SCAN (R172). EQ.CD_SCAN starts a dispersion scan. -/
  | eqCdScan (c : HostCall)
  /-- CD_SCAN_END (R172). A dispersion scan ends and its estimate or failure status is recorded. -/
  | cdScanEnd (m : ScanMeas)
  /-- EQ_FRONT_END (R166). EQ.FRONT_END stages static skew, gain and phase corrections of converter lanes. -/
  | eqFrontEnd (c : HostCall)
  /-- EQ_POL_SET (R177). EQ.POL_SET stages a subcarrier's SOP mode, convergence threshold and SOP alarm. -/
  | eqPolSet (c : HostCall)
  /-- EQ_LINE_SET (R186). EQ.LINE_SET stages the signal threshold and laser feedback timing. -/
  | eqLineSet (c : HostCall)
  /-- EQ_TX_RESPONSE (R188). EQ.TX_RESPONSE stages the DAC response table for pre-compensation. -/
  | eqTxResponse (c : HostCall)
  /-- EQ_REACQUIRE (R193). EQ.REACQUIRE restarts acquisition of the line or subcarriers. -/
  | eqReacquire (c : HostCall)
  /-- EQ_LINE_STATUS (R194). EQ.LINE_STATUS returns the line state, offsets and laser accumulations. -/
  | eqLineStatus (c : HostCall)
  /-- EQ_STATUS (R195). EQ.STATUS returns a subcarrier's equaliser state and estimates. -/
  | eqStatus (c : HostCall)
  /-- EQ_SCAN_READ (R195). EQ.SCAN_READ returns the result of the last scan. -/
  | eqScanRead (c : HostCall)
  /-- SIGNAL_LOST (R165). Two consecutive intervals with an ADC below SIG_MIN make the signal absent and the line NO_SIGNAL. -/
  | signalLost (ms : List LevelMeas)
  /-- COARSE_ESTIMATE_FORMED (R189). The coarse frequency estimate completes and locks the line or estimates again. -/
  | coarseEstimateFormed (est : Int)
  /-- SOP_WINDOW (R176). Each 10 ms window measures the peak SOP rotation rate and may set the SOP alarm. -/
  | sopWindow (sc : Nat)
  /-- LASER_CORRECTION_DUE (R185). When the feedback conditions hold, the accumulated laser correction is updated and written. -/
  | laserCorrectionDue (local' : Bool)
  /-- FEC_MODE (R216). FEC.MODE stages fast mode and the degrade threshold of a subcarrier. -/
  | fecMode (c : HostCall)
  /-- FEC_INJECT (R217). FEC.INJECT stages transmit bit-error injection. -/
  | fecInject (c : HostCall)
  /-- FEC_STATUS (R215). FEC.STATUS returns a subcarrier's decoder statistics. -/
  | fecStatus (c : HostCall)
  /-- BER_WINDOW_END (R214). Each 64-multiframe window ends the pre-FEC BER evaluation and the degrade alarm decision. -/
  | berWindowEnd (sc : Nat)
  /-- CANDIDATE_TEST (R237). A held alignment candidate is tested one frame later and confirms the frame or is dropped. -/
  | candidateTest (sc pos : Nat) (m : FrameSyms)
  /-- FRAME_SLOT_MAP (R242). FRAME.SLOT_MAP stages a subcarrier's next transmit slot map. -/
  | frameSlotMap (c : HostCall)
  /-- FRAME_CONTAINER (R243). FRAME.CONTAINER stages a container binding in one direction. -/
  | frameContainer (c : HostCall)
  /-- FRAME_ALIGN_SET (R241). FRAME.ALIGN_SET stages the aligner thresholds. -/
  | frameAlignSet (c : HostCall)
  /-- FRAME_LOOPBACK (R244). FRAME.LOOPBACK stages a digital, analogue or facility loopback. -/
  | frameLoopback (c : HostCall)
  /-- FRAME_STATUS (R245). FRAME.STATUS returns the aligner state and counters. -/
  | frameStatus (c : HostCall)
  /-- FRAME_CONTAINER_STATUS (R246). FRAME.CONTAINER_STATUS returns a container's counters. -/
  | frameContainerStatus (c : HostCall)
  /-- CHUNK_RECEIVED (R233). A received container chunk is decapsulated, relayed or selected, and its packets are delivered to the packet engine. -/
  | chunkReceived (envs : List PktEnv)
  /-- OH_SECTION_SET (R269). OH.SECTION_SET stages trace comparison and label settings of subcarriers. -/
  | ohSectionSet (c : HostCall)
  /-- OH_TTI_SET (R270). OH.TTI_SET stages the transmitted or expected trace. -/
  | ohTtiSet (c : HostCall)
  /-- OH_PATH_SET (R271). OH.PATH_SET stages a receive container's monitoring and return container. -/
  | ohPathSet (c : HostCall)
  /-- OH_PM_READ (R272). OH.PM_READ returns performance seconds counters. -/
  | ohPmRead (c : HostCall)
  /-- OH_DEFECT_READ (R273). OH.DEFECT_READ returns defects, label and trace. -/
  | ohDefectRead (c : HostCall)
  /-- PROT_GROUP (R274). PROT.GROUP stages creation, change or deletion of a protection group. -/
  | protGroup (c : HostCall)
  /-- PROT_REQUEST (R275). PROT.REQUEST stages a host protection request. -/
  | protRequest (c : HostCall)
  /-- PROT_STATUS (R276). PROT.STATUS returns a group's requests, defects and counters. -/
  | protStatus (c : HostCall)
  /-- PROT_RESKEW (R275). PROT.RESKEW stages re-anchoring of a group. -/
  | protReskew (c : HostCall)
  /-- BURST_TREE (R310). BURST.TREE stages the hub's upstream timing. -/
  | burstTree (c : HostCall)
  /-- BURST_SHARE (R311). BURST.SHARE stages a subcarrier's upstream mode and discovery. -/
  | burstShare (c : HostCall)
  /-- BURST_GRANTS (R312). BURST.GRANTS stages a time-shared subcarrier's grant table. -/
  | burstGrants (c : HostCall)
  /-- BURST_ADMIT (R313). BURST.ADMIT stages admission, change or removal of a leaf. -/
  | burstAdmit (c : HostCall)
  /-- BURST_INVITE (R314). BURST.INVITE invites a leaf identity to the next occasion on a subcarrier. -/
  | burstInvite (c : HostCall)
  /-- BURST_RANGE (R314). BURST.RANGE starts ranging of a leaf. -/
  | burstRange (c : HostCall)
  /-- BURST_LEAF_STATUS (R315). BURST.LEAF_STATUS returns a leaf's state and counters at the hub. -/
  | burstLeafStatus (c : HostCall)
  /-- BURST_DISC_READ (R314). BURST.DISC_READ returns the hub's discovery list and counters. -/
  | burstDiscRead (c : HostCall)
  /-- BURST_MOVE (R314). BURST.MOVE stages a MOVE message to a leaf. -/
  | burstMove (c : HostCall)
  /-- BURST_LEAF_CFG (R314). BURST.LEAF_CFG stages a leaf's discovery, sleep, home subcarrier and container. -/
  | burstLeafCfg (c : HostCall)
  /-- BURST_LEAF_READ (R314). BURST.LEAF_READ returns the leaf's own state. -/
  | burstLeafRead (c : HostCall)
  /-- BURST_RECEIVED (R300). A granted data burst is received at the hub from the leaf's stored state and decoded. -/
  | burstReceived (b : DataBurst)
  /-- DISCOVERY_BURST_RECEIVED (R306). A discovery burst decoded in the open search is assigned or listed. -/
  | discoveryBurstReceived (b : OpenBurst)
  /-- ECHO_BURST_RECEIVED (R308). An echo burst received during ranging returns the leaf to ACTIVE with a new EQD. -/
  | echoBurstReceived (b : OpenBurst)
  /-- RANGING_TIMEOUT (R308). 64 frames after RANGE_MFI without an echo makes the leaf LOST. -/
  | rangingTimeout (leaf : Nat)
  /-- LEAF_BURST_SEND (R294). A leaf sends its data, discovery or echo burst at its granted or computed upstream position. -/
  | leafBurstSend (kind : BurstKind)
  /-- SEEN (R307). A SEEN message naming the leaf's identity moves it to SEEN. -/
  | seen (h : TreeHead) (ident : Nat)
  /-- ASSIGN (R307). An ASSIGN message gives the leaf its LEAF_ID and EQD and makes it ACTIVE. -/
  | assign (h : TreeHead) (ident eqd : Nat) (dedicated : Bool) (rtd : Nat)
  /-- EQD (R295). An EQD message sets a new equalisation delay from APPLY_MFI. -/
  | eqd (h : TreeHead) (eqd applyMfi rtd : Nat)
  /-- RANGE (R307). A RANGE message makes the leaf send an echo for RANGE_MFI. -/
  | range (h : TreeHead) (rangeMfi : Nat)
  /-- REPORT (R295). A REPORT message gives the leaf the hub's frequency, SNR, section indications and RTD. -/
  | report (h : TreeHead) (b : ReportBody)
  /-- INVITE (R307). An INVITE message returns a waiting leaf to DISC_WAIT for the named occasion. -/
  | invite (h : TreeHead) (ident sc : Nat)
  /-- MOVE (R307). A MOVE message asks the leaf's host to retune. -/
  | move (h : TreeHead) (b : MoveBody)
  /-- DEREGISTER (R307). A DEREGISTER message sends the leaf to INVITE_WAIT. -/
  | deregister (h : TreeHead)
  /-- DISCOVERY_OCCASION (R307). A downstream occasion frame lets a waiting or backing-off leaf send a discovery burst. -/
  | discoveryOccasion (sc : Nat) (inviteOnly : Bool) (frame : Nat)
  /-- TIME_STEP (R323). TIME.STEP steps device time now, at a pulse edge or at a counter value. -/
  | timeStep (c : HostCall)
  /-- TIME_SLEW (R324). TIME.SLEW sets the rate and optional hold. -/
  | timeSlew (c : HostCall)
  /-- TIME_READ (R325). TIME.READ returns device time of now or of the last pulse edge. -/
  | timeRead (c : HostCall)
  /-- TIME_LOST (R322). TIME.LOST declares time lost. -/
  | timeLost (c : HostCall)
  /-- TIME_LINK_SET (R340). TIME.LINK_SET stages time-transfer settings of the line or stitch link. -/
  | timeLinkSet (c : HostCall)
  /-- TIME_PORT_SET (R341). TIME.PORT_SET stages port stamping delays. -/
  | timePortSet (c : HostCall)
  /-- TIME_TT_STATUS (R342). TIME.TT_STATUS returns the time-transfer offset and delay. -/
  | timeTtStatus (c : HostCall)
  /-- TIME_PORT_STATUS (R342). TIME.PORT_STATUS returns port stamp counters. -/
  | timePortStatus (c : HostCall)
  /-- PPS_EDGE (R323). A rising edge on PPS_IN_A or PPS_IN_B is latched and applies a pending pulse step. -/
  | ppsEdge (second : Bool) (frac : Nat)
  /-- REF_INPUT_SET (R367). REF.INPUT_SET stages a reference input's settings. -/
  | refInputSet (c : HostCall)
  /-- REF_SELECT_SET (R368). REF.SELECT_SET stages selection mode and loop settings. -/
  | refSelectSet (c : HostCall)
  /-- REF_OUTPUT_SET (R369). REF.OUTPUT_SET stages a pulse or clock output. -/
  | refOutputSet (c : HostCall)
  /-- REF_HOLDOVER_SET (R370). REF.HOLDOVER_SET stages the holdover model settings. -/
  | refHoldoverSet (c : HostCall)
  /-- REF_STATUS (R371). REF.STATUS returns the sync state, steering and holdover status. -/
  | refStatus (c : HostCall)
  /-- REF_INPUT_STATUS (R372). REF.INPUT_STATUS returns a reference input's state and offsets. -/
  | refInputStatus (c : HostCall)
  /-- REF_PTP_SET (R373). REF.PTP_SET stages the PTP boundary clock. -/
  | refPtpSet (c : HostCall)
  /-- REF_MODEL_EXPORT (R373). REF.MODEL_EXPORT writes the holdover model record. -/
  | refModelExport (c : HostCall)
  /-- REF_MODEL_IMPORT (R364). REF.MODEL_IMPORT stages a holdover model record. -/
  | refModelImport (c : HostCall)
  /-- REF_WTR_CLEAR (R373). REF.WTR_CLEAR ends a reference's wait to restore. -/
  | refWtrClear (c : HostCall)
  /-- REF_FAILURE (R347). A reference input meets a failure condition and becomes FAILED. -/
  | refFailure (ref : Nat) (cause : Nat)
  /-- REF_FAILURE_CLEARS (R352). A failed reference's failure clears and it enters QUALIFYING or WTR. -/
  | refFailureClears (ref : Nat)
  /-- REF_QUALIFIED (R352). QUAL_MS without failure moves a reference to WTR or AVAILABLE. -/
  | refQualified (ref : Nat)
  /-- REF_WTR_EXPIRY (R352). WTR_S passes and a reference becomes AVAILABLE. -/
  | refWtrExpiry (ref : Nat)
  /-- SELECTION_EVALUATION (R353). Every 1 ms the selection chooses a target and starts a switch or holdover. -/
  | selectionEvaluation (m : RefMeas)
  /-- SWITCH_COMPLETE (R354). After measuring the new reference, build-outs are loaded and the loops take the new reference. -/
  | switchComplete (phase : Int) (m : RefMeas)
  /-- OSC_TEMP_READING (R360). The once-per-second urgent oscillator thermistor request reads the oscillator temperature. -/
  | oscTempReading (codes : List Nat)
  /-- LANE_PORT_SET (R393). LANE.PORT_SET stages creation, change or deletion of a port. -/
  | lanePortSet (c : HostCall)
  /-- LANE_EQ_SET (R394). LANE.EQ_SET stages a lane's equalisation. -/
  | laneEqSet (c : HostCall)
  /-- LANE_LOOPBACK (R383). LANE.LOOPBACK stages a lane loopback. -/
  | laneLoopback (c : HostCall)
  /-- LANE_STITCH_SET (R392). LANE.STITCH_SET stages the stitch relay. -/
  | laneStitchSet (c : HostCall)
  /-- LANE_STATUS (R395). LANE.STATUS returns a lane's state and counters. -/
  | laneStatus (c : HostCall)
  /-- LANE_PORT_STATUS (R395). LANE.PORT_STATUS returns a port's state and counters. -/
  | lanePortStatus (c : HostCall)
  /-- LANE_STITCH_STATUS (R395). LANE.STITCH_STATUS returns the stitch receiver state and counters. -/
  | laneStitchStatus (c : HostCall)
  /-- LANE_LOCK (R379). An ingress CDR locks to a present signal. -/
  | laneLock (lane : Nat) (snr : Nat)
  /-- LANE_UNLOCK (R389). An ingress lane loses CDR lock. -/
  | laneUnlock (lane : Nat)
  /-- PORT_UP (R378). A port aligned without faults for 10 ms comes up. -/
  | portUp (port : Nat)
  /-- PORT_DOWN (R378). A port goes down at once on loss of alignment or a fault. -/
  | portDown (port : Nat) (why : Nat)
  /-- STITCH_FRAME_RECEIVED (R388). A received stitch frame's overhead, containers, cells and time records are taken in. -/
  | stitchFrameReceived (f : StitchFrame)
  /-- HOST_FRAME_RECEIVED (R378). A frame received on a host port is checked, parsed, classified, acted on and admitted to its queue. -/
  | hostFrameReceived (f : HostFrame) (e : PktEnv)
  /-- VERIFIED_RELEASE (R466). A packet held in the verified-release store is released once its tag passes. -/
  | verifiedRelease (e : PktEnv)
  /-- QUEUE_SERVICE (R427). At a destination's packet boundary the scheduler starts the next packet from the highest level with credit. -/
  | queueService (q : ServiceSlot)
  /-- PARSE_PROFILE (R401). PARSE.PROFILE stages a parse profile. -/
  | parseProfile (c : HostCall)
  /-- PARSE_SELECT (R400). PARSE.SELECT stages a selection entry. -/
  | parseSelect (c : HostCall)
  /-- PARSE_GLOBAL (R421). PARSE.GLOBAL stages TPID3 and ECPRI_PORT. -/
  | parseGlobal (c : HostCall)
  /-- CLASS_ENTRY_ADD (R420). CLASS.ENTRY_ADD inserts an entry into the staged exact-match table. -/
  | classEntryAdd (c : HostCall)
  /-- CLASS_ENTRY_DEL (R421). CLASS.ENTRY_DEL removes the entry holding a flow index. -/
  | classEntryDel (c : HostCall)
  /-- CLASS_ACTION_SET (R411). CLASS.ACTION_SET stages a flow action. -/
  | classActionSet (c : HostCall)
  /-- CLASS_BULK (R421). CLASS.BULK stages many entries with actions from host memory. -/
  | classBulk (c : HostCall)
  /-- CLASS_EXPRESS_SET (R408). CLASS.EXPRESS_SET stages an express key entry. -/
  | classExpressSet (c : HostCall)
  /-- CLASS_EXCEPTION (R416). CLASS.EXCEPTION stages an exception class's action. -/
  | classException (c : HostCall)
  /-- CLASS_GEN_CLEAR (R417). CLASS.GEN_CLEAR empties the staged generation. -/
  | classGenClear (c : HostCall)
  /-- CLASS_STATUS (R421). CLASS.STATUS returns RULE_GEN, table counts and exception counters. -/
  | classStatus (c : HostCall)
  /-- CLASS_FLOW_READ (R421). CLASS.FLOW_READ returns a flow's action, counters and key. -/
  | classFlowRead (c : HostCall)
  /-- CLASS_PIPE_STATUS (R421). CLASS.PIPE_STATUS returns a pipeline's counters. -/
  | classPipeStatus (c : HostCall)
  /-- QUEUE_SET (R446). QUEUE.SET stages a queue's configuration. -/
  | queueSet (c : HostCall)
  /-- QUEUE_STATUS (R447). QUEUE.STATUS returns a queue's occupancy and counters. -/
  | queueStatus (c : HostCall)
  /-- MEM_REGION (R448). MEM.REGION stages an HBM region. -/
  | memRegion (c : HostCall)
  /-- MEM_BUDGET (R449). MEM.BUDGET stages the HBM bandwidth shares. -/
  | memBudget (c : HostCall)
  /-- MEM_FILL (R451). MEM.FILL starts filling a region with a pattern. -/
  | memFill (c : HostCall)
  /-- MEM_READ (R451). MEM.READ copies HBM lines of a readable region to host memory. -/
  | memRead (c : HostCall) (hits : List MemHit)
  /-- MEM_WRITE (R451). MEM.WRITE writes host data into a general region. -/
  | memWrite (c : HostCall) (hits : List MemHit)
  /-- MEM_SCRUB_SET (R450). MEM.SCRUB_SET stages a scrubber's period and remap policy. -/
  | memScrubSet (c : HostCall)
  /-- MEM_TEST_WRITE (R444). MEM.TEST_WRITE writes data and check bits separately. -/
  | memTestWrite (c : HostCall)
  /-- MEM_REMAP (R443). MEM.REMAP stages a remap entry. -/
  | memRemap (c : HostCall)
  /-- MEM_ERR_READ (R451). MEM.ERR_READ returns error and scrub counters of a memory. -/
  | memErrRead (c : HostCall)
  /-- MEM_STATUS (R451). MEM.STATUS returns regions, shares and trap ring status. -/
  | memStatus (c : HostCall)
  /-- SCRUB_BURST_START (R441). A scrubber requests leave for its next 4 MiB burst. -/
  | scrubBurstStart (mem : Nat)
  /-- SCRUB_BURST_END (R441). A scrub burst ends, having corrected or reported the lines it read. -/
  | scrubBurstEnd (mem : Nat) (hits : List MemHit)
  /-- CRYPT_CONTEXT_SET (R471). CRYPT.CONTEXT_SET stages a crypto context. -/
  | cryptContextSet (c : HostCall)
  /-- CRYPT_KEY_LOAD (R472). CRYPT.KEY_LOAD unwraps and stages keys into context slots. -/
  | cryptKeyLoad (c : HostCall)
  /-- CRYPT_KEY_ERASE (R473). CRYPT.KEY_ERASE stages erasure of key slots. -/
  | cryptKeyErase (c : HostCall)
  /-- CRYPT_UNQUARANTINE (R473). CRYPT.UNQUARANTINE stages the end of a context's quarantine. -/
  | cryptUnquarantine (c : HostCall)
  /-- CRYPT_ALARM_SET (R473). CRYPT.ALARM_SET stages alarm source enables and AUTH_THRESH. -/
  | cryptAlarmSet (c : HostCall)
  /-- CRYPT_ALARM_CLEAR (R469). CRYPT.ALARM_CLEAR returns the thimble to ARMED and rederives KEKs if no source is active. -/
  | cryptAlarmClear (c : HostCall)
  /-- CRYPT_ZEROISE (R473). CRYPT.ZEROISE raises thimble alarm source 7. -/
  | cryptZeroise (c : HostCall)
  /-- CRYPT_STATUS (R473). CRYPT.STATUS returns the thimble and cipher status. -/
  | cryptStatus (c : HostCall)
  /-- CRYPT_CONTEXT_READ (R474). CRYPT.CONTEXT_READ returns a context's slot states and counters. -/
  | cryptContextRead (c : HostCall)
  /-- THIMBLE_ALARM (R469). An enabled alarm source erases all keys, KEKs and set credentials. -/
  | thimbleAlarm (source : Nat) (on : Bool) (edges : List (Bool × Bool))
  /-- POWER_SET (R481). POWER.SET stages the wake or sleep target of units. -/
  | powerSet (c : HostCall)
  /-- POWER_BUDGET (R480). POWER.BUDGET stages the leave budget, steady limit, step limit and warning margin. -/
  | powerBudget (c : HostCall)
  /-- POWER_STATUS (R488). POWER.STATUS returns power state, thermal state and leave figures. -/
  | powerStatus (c : HostCall)
  /-- WAKE_END (R483). A unit's wake ends, releasing its leave and making it running or failed. -/
  | wakeEnd (u : PowerUnit) (r : WakeResult)
  /-- THERMAL_READING (R487). The 1 ms urgent thermal housekeeping request reads Tj and advances the thermal state machine. -/
  | thermalReading (temps : List Int)
  /-- MON_SELECT (R501). MON.SELECT stages counter selection codes. -/
  | monSelect (c : HostCall)
  /-- MON_DUMP_SET (R502). MON.DUMP_SET stages the dump period and destination. -/
  | monDumpSet (c : HostCall)
  /-- MON_READ (R494). MON.READ writes a patch's counters at a snapshot to host memory. -/
  | monRead (c : HostCall)
  /-- MON_STATUS (R503). MON.STATUS returns dump sequence and status. -/
  | monStatus (c : HostCall)
  /-- DUMP_BOUNDARY (R496). At each dump boundary all counters are captured, selections apply and a dump is written. -/
  | dumpBoundary (consumed : Option Nat)
  /-- HK_SEQ_SET (R508). HK.SEQ_SET stages the housekeeping sequence table. -/
  | hkSeqSet (c : HostCall)
  /-- HK_READ (R509). HK.READ returns an entry's latest result and extremes. -/
  | hkRead (c : HostCall)
  /-- HK_RESULT (R505). A housekeeping entry delivers a filtered result and checks its limits. -/
  | hkResult (codes : List Nat)
  /-- CAPT_COEF (R512). CAPT.COEF stages the decimator coefficients. -/
  | captCoef (c : HostCall)
  /-- CAPT_START (R515). CAPT.START schedules a capture run at a device frame boundary. -/
  | captStart (c : HostCall)
  /-- CAPT_STOP (R516). CAPT.STOP ends a run at the next device frame boundary. -/
  | captStop (c : HostCall)
  /-- CAPT_STATUS (R516). CAPT.STATUS returns the capture state and counts. -/
  | captStatus (c : HostCall)
  /-- OTP_PROGRAM (R530). OTP.PROGRAM starts writing a new generation of an OTP region. -/
  | otpProgram (c : HostCall)
  /-- OTP_PROGRAM_END (R530). OTP programming ends after verify and the commit word, or with a failing status. -/
  | otpProgramEnd (e : OtpEnd)
  /-- OTP_STATUS (R531). OTP.STATUS returns the generation state of each region. -/
  | otpStatus (c : HostCall)
  /-- OTP_READ (R531). OTP.READ returns the payload in force of a region. -/
  | otpRead (c : HostCall)
  /-- FW_LOAD (R523). FW.LOAD delivers one chunk of the firmware image to the boot ROM. -/
  | fwLoad (c : HostCall)
  /-- FW_INFO (R531). FW.INFO returns the running firmware version and hash. -/
  | fwInfo (c : HostCall)
  /-- POR_RELEASE (R522). POR_N rising starts the boot steps: counter, OTP read, KEKs, clocks and PCIe. -/
  | porRelease (selfTest : Bool)
  /-- PFAIL_ASSERT (R533). PFAIL_N asserted stops leave grants, freezes counters, sends last gasp, writes the final dump and stops OTP programming. -/
  | pfailAssert (consumed : Option Nat)
  /-- ALIGNMENT_CANDIDATE_FOUND (R236). In SEARCH, a symbol position whose alignment-word correlations reach AW_THRESH is held as a candidate, or ignored when 4 are held. -/
  | alignmentCandidateFound (sc pos : Nat) (r : List Cx2)
  /-- OPEN_SEARCH_CONTEXT (R303). In a quiet span or echo slot, a preamble autocorrelation reaching 0.50 opens a reception context, which then finds its unique word or closes as a false preamble or collision. -/
  | openSearchContext (sc : Nat) (e : SearchEvent)
  /-- STITCH_LANE_MARKER (R389). A marker on a stitch ingress lane is checked, giving marker lock after 2 good markers 6,250 words apart, losing it after 3 bad or missing ones, and measuring lane skew. -/
  | stitchLaneMarker (lane : Nat) (m : Marker)
  /-- PCIE_LINK_CHANGE (R51). The PCIe link trains, enters or leaves L0 or L1, or goes down. -/
  | pcieLinkChange (p : PcieState)
  /-- PRECONV_ATTEMPT_END (R190). After 2^17 symbols a PRECONV attempt moves to GRID or retries with a cold start. -/
  | preconvAttemptEnd (sc : Nat)
  /-- GRID_TIMEOUT (R190). Eight frames without a pilot grid return a subcarrier to PRECONV. -/
  | gridTimeout (sc : Nat)
  /-- CONVERGENCE_LOST (R191). Low pilot SNR for 4 frames or singular convergence moves a subcarrier from TRACK to PRECONV. -/
  | convergenceLost (sc snr corr : Nat)
  /-- SOP_ALARM_CLEAR_TIMEOUT (R176). One second with no window above the threshold clears the SOP alarm. -/
  | sopAlarmClearTimeout (sc : Nat)
  /-- FRAME_LOSS (R238). LOSS_COUNT consecutive failing frame boundaries return the aligner to SEARCH. -/
  | frameLoss (sc : Nat) (m : FrameSyms)
  /-- PHASE_LOST (R239). A block-phase mark wrong on 2 consecutive occasions clears PHASE_KNOWN. -/
  | phaseLost (sc : Nat) (mark : Bool) (mfi : Option Nat)
  /-- DLG_CLEAR_TIMEOUT (R257). 100 ms of good overheads without LAST_GASP clears dLG. -/
  | dlgClearTimeout (sc : Nat)
  /-- ANCHOR_TIMEOUT (R265). If W delivers no good chunk within 100 ms of the commit, releases are anchored to P. -/
  | anchorTimeout (g : Nat)
  /-- HOLD_OFF_EXPIRY (R267). An SF or SD condition lasting HOLD_OFF becomes a request and may change the active copy. -/
  | holdOffExpiry (g : Nat)
  /-- PROT_WTR_EXPIRY (R267). A running WTR ends after WTR_S and gives way to NR. -/
  | protWtrExpiry (g : Nat)
  /-- LEAF_ALIGNMENT_LOST (R302). The unique word missing in 4 consecutive granted bursts moves the leaf to RANGING. -/
  | leafAlignmentLost (leaf : Nat)
  /-- TT_OFFSET_INVALID (R335). Eight multiframes without a usable exchange make the offset invalid. -/
  | ttOffsetInvalid (stitch : Bool)
  /-- TOD_MESSAGE (R348). A complete ToD UART message is checked and accepted or counted in TOD_ERRORS. -/
  | todMessage (second : Bool) (bytes : List Byte)
  /-- REFERENCE_TIME_STEP (R359). The first offset measurement after a switch to a time-capable reference steps unestablished time. -/
  | referenceTimeStep (m : RefMeas)
  /-- STITCH_ALIGN_TIMEOUT (R389). Eight frames in ALIGNING without 2 good overheads return the stitch receiver to DOWN. -/
  | stitchAlignTimeout (f : StitchFrame)
  /-- STITCH_SOH_LOSS (R389). Eight consecutive bad stitch overheads take the stitch receiver down. -/
  | stitchSohLoss (f : StitchFrame)
  /-- REMAP_COPY_DONE (R443). A line's copy to its spare completes and accesses are redirected. -/
  | remapCopyDone (mem entry : Nat)
  /-- OLD_HOLD_EXPIRY (R467). OLD_HOLD_MS after the first good packet of a newer slot retires older loaded slots. -/
  | oldHoldExpiry (ctx : Nat)
  /-- VTILE_SETPOINT_CHANGE (R486). The device changes its requested VDD_TILE setpoint from its measured silicon speed. -/
  | vtileSetpointChange (mv : Nat)
  /-- PTP_MESSAGE_INTERVAL (R366). The firmware boundary clock sends Sync, Delay_Req and Announce messages on its ports at 16, 16 and 8 per second. -/
  | ptpMessageInterval (slave : Option Nat)
  /-- PROVE_WAIT_END (R47). After the wait of min(n,16) x 100 ms following consecutive proof failures, a waiting SESSION.PROVE is evaluated. -/
  | proveWaitEnd
  /-- DEVICE_FRAME_BOUNDARY (R73). Each 10 us device frame boundary starts the transmit frames, chunks, stitch frames and periodic per-frame work. -/
  | deviceFrameBoundary
  /-- QUEUED_QUILT_COMMIT_START (R88). A quilt commit waiting behind another starts and broadcasts PREPARE once the earlier one ends. -/
  | queuedQuiltCommitStart
  /-- HELLO_TIMER (R87). Each member sends HELLO on every link once per millisecond. -/
  | helloTimer
  /-- ACK_SEND_DEADLINE (R89). At ACK_DEADLINE less its distance times 100 us, a relay sends what its subtree has given and lists missing children. -/
  | ackSendDeadline
  /-- ACK_DEADLINE_EXPIRY (R89). At ACK_DEADLINE the coordinator decides to send COMMIT_AT or ABORT. -/
  | ackDeadlineExpiry
  /-- PREPARED_SILENCE_TIMEOUT (R91). A prepared member that hears neither COMMIT_AT nor ABORT by T_MAX + 10 ms detaches. -/
  | preparedSilenceTimeout
  /-- PARENT_HELLO_LOSS (R91). No HELLO on the parent link for 10 ms with no other route detaches the member. -/
  | parentHelloLoss
  /-- DETACHED_RECHECK (R90). Ten ms after T the coordinator reads CFG_GEN of devices marked detached and unmarks those at NEW_GEN. -/
  | detachedRecheck
  /-- FE_WRITES_DONE (R112). The last staged front-end write frame of a commit ends, and waiting reads proceed. -/
  | feWritesDone
  /-- LASBUS_STRETCH_TIMEOUT (R115). Clock stretching longer than 10 ms is a bus error; the device sends 9 clocks and a stop. -/
  | lasbusStretchTimeout
  /-- CAL_TRIGGER (R122). Temperature movement beyond TRIGGER_DC after HOLDOFF_S starts an automatic calibration run request. -/
  | calTrigger
  /-- LINE_TRACK_LOSS (R189). All continuous subcarriers out of TRACK for 8 frames return the line to FREQ_ACQ. -/
  | lineTrackLoss
  /-- PERFORMANCE_SECOND (R261). Each performance second is classified and availability decided for every monitored entity. -/
  | performanceSecond
  /-- PM_INTERVAL_END (R263). A 15-minute interval closes and becomes the previous interval. -/
  | pmIntervalEnd
  /-- DISC_RESPONSE_TIMEOUT (R307). 128 frames without SEEN or ASSIGN move the leaf to BACKOFF or INVITE_WAIT. -/
  | discResponseTimeout
  /-- SILENT_TIMEOUT (R307). A leaf silent for 1 s forgets LEAF_ID and EQD and returns to WAIT_DS. -/
  | silentTimeout
  /-- STEP_AT_COUNT (R323). A pending step with AT 3 acts when the counter reaches AT_COUNT. -/
  | stepAtCount
  /-- STEP_PULSE_TIMEOUT (R323). A pulse step with no edge in 2 s ends with TIME_NO_PULSE. -/
  | stepPulseTimeout
  /-- SLEW_HOLD_END (R324). A slew hold ends and RATE_AFTER applies. -/
  | slewHoldEnd
  /-- ACQUIRE_LOCKED (R356). Ten seconds within frequency and offset limits move ACQUIRING to LOCKED. -/
  | acquireLocked
  /-- MODEL_LEARN_UPDATE (R361). Each 60 s average in LOCKED updates the oscillator model. -/
  | modelLearnUpdate
  /-- GENERATION_RETIRED (R419). The former generation retires when its in-flight packet count reaches zero. -/
  | generationRetired
  /-- FILL_BURST_END (R451). A 4 MiB fill burst ends, releasing leave and completing the fill after its last burst. -/
  | fillBurstEnd
  /-- KEY_LOAD_BULK_END (R472). A bulk key load of more than 64 records ends after unwrapping. -/
  | keyLoadBulkEnd
  /-- LEAVE_GRANT (R484). The arbiter grants the head request when it fits within the budget. -/
  | leaveGrant
  /-- RAMP_START (R485). A granted wake's VDD_TILE ramp starts once the slope fits within STEP_LIMIT. -/
  | rampStart
  /-- THERMAL_SHUTDOWN (R487). Tj at least Tmax + 10 C for 1 ms sleeps every unit outside the DORMANT column. -/
  | thermalShutdown
  /-- CAPTURE_RUN_START (R515). A scheduled capture run starts at its device frame boundary, with the samples that
  its tap gives from the first on that output set 0 rests on. -/
  | captureRunStart (taps : List Cx2)
  /-- CAPTURE_END (R513). A capture run ends on count, full region, stop or cut and writes its header. -/
  | captureEnd
  /-- POR_ASSERT (R520). POR_N low for 1 us starts a cold reset. -/
  | porAssert
  /-- IMAGE_CHECK_END (R524). The firmware image check ends, starting firmware in DORMANT or returning STAGE to 0. -/
  | imageCheckEnd
  /-- DEVICE_RESET_START (R526). One ms after SYS.RESET on the device, a warm reset starts. -/
  | deviceResetStart
  /-- WATCHDOG_RESET (R525). Firmware silent for 100 ms starts a warm reset. -/
  | watchdogReset
  /-- CONTROLLER_MEMORY_FAULT (R525). An uncorrectable word in controller memory starts a warm reset. -/
  | controllerMemoryFault
  /-- PATCH_RESET_APPLY (R526). A unit reset applies at the next device frame boundary and returns the unit to its wake state. -/
  | patchResetApply
  /-- LAST_GASP_END (R533). After 64 frames, LAST_GASP stops being sent. -/
  | lastGaspEnd
  /-- PFAIL_RECOVER (R533). PFAIL_N high for 10 ms resumes counters and aborts a stopped OTP programming. -/
  | pfailRecover
deriving DecidableEq, Repr

end Sys2Proof
end

