-- ==== Sys2Proof/Decode.lean ====
section
/-! DEFINITION. The commands that a word spells by the opcode table: none, since no row of the table gives its command bits. A host
command's own coding is an item (R50), which the meanings read. -/

namespace Sys2Proof

/-- The command that the `nbits` low bits of `w` spell by the opcode table. -/
def decodeTableWord (_nbits _w : Nat) : Option Instr := none

end Sys2Proof
end

