-- ==== Sys2Proof/Config.lean ====
section
/-! DEFINITION. The free values: what the spec says takes some value without saying which. None has a body, so that no proof
can know one. Each use draws the next index from `Dev.free`, a counter of the model's own. -/

namespace Sys2Proof.Config

/-- The k-th free value drawn by the block: a value the spec leaves open (assumption 1). A use that the spec bounds reduces
it into its bound. -/
opaque freeValue : Nat → Nat

/-- The 8 check bits of 128 data bits in HBM (R437): the spec gives no code (assumption 10). -/
opaque hbmCheck : Nat → BitVec 8

/-- The 8 check bits of a 64-bit word in an on-die store (R437, assumption 10). -/
opaque sramCheck : Nat → BitVec 8

/-- The body of an export record that holds a set's retirement map and values, as a number (R129): the layout is the device's own
(assumption 74). -/
opaque calBody : List Int → Nat

/-- The retirement map and values that an imported body holds (R125, R129, assumption 74). -/
opaque calData : Nat → List Int

/-- The residual of the last accepted run, in 0.1 dBc, corrected by the interpolation in use at a distance in 0.01 °C from the nearest set
(R128, assumption 201). -/
opaque calResidual : Int → Int → Int

/-- A figure of `CAL.QUALITY` while no run has been accepted in the mode: its place in the results, and the converter (R128,
assumption 201). -/
opaque calUnmeasured : Nat → Nat → Nat

/-- The keyed hash function of a way of the exact-match table: the key's number, the way, direction, profile and key bytes (R406, assumption
141). -/
opaque cuckooHash : Nat → Nat → Bool → Nat → List Byte → Nat

/-- Which of an entry's 16 cells gives way on a cuckoo path: the key's number, the moves left and the entry's flow (R407, assumption 141). -/
opaque cuckooVictim : Nat → Nat → Nat → Nat

/-- The bits of the TAP's instruction register, and the boundary cells (R3, assumption 208). -/
opaque tapBits : Nat
opaque tapCells : Nat

/-- The TAP instruction that a code selects: 0 EXTEST, 1 SAMPLE/PRELOAD, 2 IDCODE, 3 BYPASS (R3, assumption 208). -/
opaque tapCode : List Bool → Nat

/-- The host port to which a container belongs (R256, assumption 170). -/
opaque containerPort : Nat → Nat

/-- A front-end part is on the board and drives the line (R109, assumption 71). -/
opaque fePart : Nat → Bool

/-- A coded bit is inverted by `FEC.INJECT`: mantissa and exponent of the probability, the free draw of the frame, and the bit's place; each
is inverted independently with the probability that they give (R217, assumption 205). -/
opaque injected : Nat → Nat → Nat → Nat → Bool

/-- The coefficients in 2^-16 that take back a slice's skew in 0.01 ps and bandwidth mismatch in 0.01 GHz (R11, R119, assumption 223). -/
opaque sliceFilter : Int → Int → List Int

/-- The coefficients in 2^-16 that delay a lane by this many 0.01 ps (R163, R166, assumption 223). -/
opaque delayFilter : Int → List Int

/-- The coefficients in 2^-16, real and imaginary part, that compensate this many ps/nm (R168, assumption 223). -/
opaque cdTaps : Int → List (Int × Int)

/-- The part in 2^-16 by which carrier recovery follows a symbol (R182, assumption 223). -/
opaque carrierHold : Int

/-- The convergence bound of the modulus error, in 2^-32 (R190, assumption 223). -/
opaque convBound : Nat

/-- Instantaneous DGD in 0.1 ps, PDL in 0.01 dB and residual dispersion in ps/nm of an equaliser's taps: the four filters, each tap as its real
and imaginary part (R176, assumption 223). -/
opaque tapsDgd : List (List (Int × Int)) → Nat
opaque tapsPdl : List (List (Int × Int)) → Nat
opaque tapsCd : List (List (Int × Int)) → Int

/-- The SOP rotation rate in 0.1 Mrad/s between an equaliser's taps and those one frame later (R176, assumption 223). -/
opaque tapsSop : List (List (Int × Int)) → List (List (Int × Int)) → Nat

/-- The step size of the polarisation equaliser in 2^-16, normal and fast (R174, assumption 204). -/
opaque eqStep : Bool → Int

/-- One iteration of the inner decoder over a code's window: the two positions before it, then its own, each a list of groups and each group
the soft values of its columns (R207, assumption 206). -/
opaque decodeStep : Nat → List (List (List Int)) → List (List (List Int))

/-- The matcher bits, as a number, that the dematcher gives for a block of amplitudes that no rank has: `H_CODE` and the block (R141,
assumption 206). -/
opaque dematched : Nat → List Nat → Nat

/-- The gain in 0.01 dB, at this many GHz, of a DAC whose slices have these bandwidths (R187, assumption 207). -/
opaque rollOff : List Int → Nat → Int

/-- The coefficients of a lane's pre-compensation, in 2^-16 of a sample code for a unit component, from the gain in 0.01 dB and the phase in
0.01° that it is to have at 0, 1, 2, … 160 GHz (R187, R188, assumption 207). -/
opaque preFilter : List (Int × Int) → List Int

/-- The wake coefficients of the capture stages, in 2^-17, by 6 × (stage − 1) + tap: the spec gives the bands that they pass and attenuate
(R512, assumption 173). -/
opaque captWake : Nat → Int

/-- What a code in 1/16 LSB of a housekeeping input 0 to 17 stands for, in the unit of the input (R504, assumption 213). -/
opaque hkScale : Nat → Nat → Int

end Sys2Proof.Config
end

