-- ==== Sys2Proof/Machine/Bits.lean ====
section
/-! DEFINITION. Bit fields, sign extension, byte order and saturation over natural numbers (R5 to R7). -/

namespace Sys2Proof.Machine

/-- Bits [lo + w - 1 : lo] of x. -/
def bits (x lo w : Nat) : Nat := x / 2 ^ lo % 2 ^ w

/-- Bit n of x. -/
def bit (x n : Nat) : Bool := bits x n 1 == 1

/-- A Bool as a one-bit field. -/
def b2n (b : Bool) : Nat := if b then 1 else 0

/-- The signed value of a w-bit two's-complement field. -/
def signed (w v : Nat) : Int := if v < 2 ^ (w - 1) then (v : Int) else (v : Int) - (2 ^ w : Nat)

/-- The w-bit two's-complement field of a signed value (modulo 2^w). -/
def unsigned (w : Nat) (i : Int) : Nat := (i % (2 ^ w : Nat)).toNat

/-- A value held to the largest w-bit number (saturating fields). -/
def sat (w v : Nat) : Nat := if v < 2 ^ w then v else 2 ^ w - 1

/-- A signed value held to a w-bit signed field. -/
def satS (w : Nat) (i : Int) : Nat :=
  let top : Int := (2 ^ (w - 1) : Nat)
  unsigned w (if i < -top then -top else if i ≥ top then top - 1 else i)

/-- ⌈a / b⌉. -/
def ceilDiv (a b : Nat) : Nat := (a + b - 1) / b

/-- a / b rounded to the nearest whole number, halves away from zero (`round` of R319). -/
def roundDiv (a b : Int) : Int :=
  let q := (2 * (if a < 0 then -a else a) + b) / (2 * b)
  if a < 0 then -q else q

/-- ⌊log10 q⌋ for q ≥ 1, with exponents below 2^k. -/
def log10Floor (q : Nat) : Nat → Nat → Nat
  | 0, j => j
  | k + 1, j => log10Floor q k (if 10 ^ (j + 2 ^ k) ≤ q then j + 2 ^ k else j)

/-- 10 log10 (a / b) in 0.01 dB to the nearest, for positive a and b. -/
def decibel (a b : Nat) : Int :=
  if b ≤ a then ((log10Floor (a ^ 2000 / b ^ 2000) 16 0 + 1) / 2 : Nat) else -((log10Floor (b ^ 2000 / a ^ 2000) 16 0 + 1) / 2 : Nat)

/-- One packed field of a result or item: bit offset, width, value. -/
structure Bf where
  off : Nat
  w : Nat
  v : Nat
deriving DecidableEq, Repr

/-- Fields laid side by side into one number; each value is cut to its width. -/
def pack : List Bf → Nat
  | [] => 0
  | f :: r => (f.v % 2 ^ f.w) * 2 ^ f.off + pack r

/-- A field of a layout at byte `o`, bits [lo + w - 1 : lo]. -/
def at' (o lo w v : Nat) : Bf := ⟨8 * o + lo, w, v⟩

/-- A field that starts at byte `o`, w bits wide. -/
def fieldAt (o w v : Nat) : Bf := ⟨8 * o, w, v⟩

/-- A signed field that starts at byte `o`, w bits wide. -/
def fieldAtS (o w : Nat) (v : Int) : Bf := ⟨8 * o, w, unsigned w v⟩

/-- The number whose little-endian bytes are given (R6). -/
def leNat : List Byte → Nat
  | [] => 0
  | b :: r => b.toNat + 256 * leNat r

/-- The n little-endian bytes of a number (R6). -/
def leBytes : Nat → Nat → List Byte
  | 0, _ => []
  | n + 1, v => BitVec.ofNat 8 v :: leBytes n (v / 256)

/-- The number whose bytes are given most significant first (R7). -/
def beNat (l : List Byte) : Nat := l.foldl (fun a b => 256 * a + b.toNat) 0

/-- The n bytes of a number, most significant first (R7). -/
def beBytes (n v : Nat) : List Byte := (leBytes n v).reverse

/-- Bytes [o, o + n) of a list of bytes. -/
def slice (l : List α) (o n : Nat) : List α := (l.drop o).take n

/-- A list cut or padded with zero bytes to n bytes. -/
def padTo (n : Nat) (l : List Byte) : List Byte := (l ++ List.replicate (n - l.length) 0).take n

/-- A list cut into pieces of n, for at most `k` pieces. -/
def chunks (n : Nat) : Nat → List α → List (List α)
  | 0, _ => []
  | k + 1, l => if l.isEmpty then [] else l.take n :: chunks n k (l.drop n)

/-- Put an element into a sorted list, behind its equals. -/
def insertBy (le : α → α → Bool) (x : α) : List α → List α
  | [] => [x]
  | y :: r => if le y x then y :: insertBy le x r else x :: y :: r

/-- A list sorted by an order, equals in their order of appearance. -/
def sortBy (le : α → α → Bool) (l : List α) : List α := l.foldl (fun a x => insertBy le x a) []

/-- The indices of the set bits of a mask below n, ascending. -/
def maskBits (n m : Nat) : List Nat := (List.range n).filter (bit m)

end Sys2Proof.Machine
end

