-- ==== Sys2Proof/Machine/Crypto.lean ====
section
/-! DEFINITION. The published functions the spec names (R3): CRC-8 (R83), CRC-32 (IEEE 802.3), SHA-256 and HMAC-SHA-256 (FIPS
180-4, FIPS 198-1), AES (FIPS 197), KW unwrap (NIST SP 800-38F) and GCM (NIST SP 800-38D). All work on lists of bytes. -/

namespace Sys2Proof.Machine

/-- One bit step of a CRC that shifts left: `w` bits wide, polynomial `p`. -/
def crcStep (w p c : Nat) : Nat :=
  let c2 := c * 2
  if c2 < 2 ^ w then c2 else (c2 - 2 ^ w) ^^^ p

/-- A byte into a w-bit CRC, most significant bit first, not reflected. -/
def crcByte (w p c : Nat) (b : Byte) : Nat :=
  (List.range 8).foldl (fun c _ => crcStep w p c) (c ^^^ (b.toNat * 2 ^ (w - 8)))

/-- An unreflected CRC of `w` bits over bytes. -/
def crcMsb (w p init : Nat) (l : List Byte) : Nat := l.foldl (crcByte w p) init

/-- CRC-8 of a quilt cell: x^8 + x^2 + x + 1, initial value 0, not reflected (R83). -/
def crc8 (l : List Byte) : Nat := crcMsb 8 0x07 0 l

/-- One bit step of the reflected CRC-32 of IEEE 802.3. -/
def crc32Bit (c : Nat) : Nat := if c % 2 = 1 then (c / 2) ^^^ 0xEDB88320 else c / 2

/-- A byte into the reflected CRC-32. -/
def crc32Byte (c : Nat) (b : Byte) : Nat :=
  (List.range 8).foldl (fun c _ => crc32Bit c) (c ^^^ b.toNat)

/-- CRC-32 as in IEEE 802.3 (R524, R527). -/
def crc32 (l : List Byte) : Nat := (l.foldl crc32Byte 0xFFFFFFFF) ^^^ 0xFFFFFFFF

/-- The primes below n, rising. -/
def primesBelow (n : Nat) : List Nat := (List.range n).filter fun p => 2 ≤ p && (List.range p).all fun q => q < 2 || p % q != 0

/-- The first 32 bits behind the point of the e-th root of p: the largest r of 36 bits with r^e at most p · 2^(32e), less its whole
part. -/
def rootBits (e p : Nat) : Nat :=
  ((List.range 36).foldr (fun b r => if (r + 2 ^ b) ^ e ≤ p * 2 ^ (32 * e) then r + 2 ^ b else r) 0) % 2 ^ 32

/-- The round constants of SHA-256 (FIPS 180-4): from the cube roots of the first 64 primes. -/
def sha256K : List Nat := (primesBelow 312).map (rootBits 3)

/-- The initial hash value of SHA-256 (FIPS 180-4): from the square roots of the first 8 primes. -/
def sha256H0 : List Nat := (primesBelow 20).map (rootBits 2)

/-- Rotate a 32-bit word right. -/
def rotr32 (x n : Nat) : Nat := x / 2 ^ n + (x % 2 ^ n) * 2 ^ (32 - n)

/-- Extend the 16 message words of a block by `n` further words (newest first). -/
def sha256Schedule : Nat → List Nat → List Nat
  | 0, w => w
  | n + 1, w =>
    let w2 := w.getD 1 0
    let w7 := w.getD 6 0
    let w15 := w.getD 14 0
    let w16 := w.getD 15 0
    let s0 := rotr32 w15 7 ^^^ rotr32 w15 18 ^^^ w15 / 8
    let s1 := rotr32 w2 17 ^^^ rotr32 w2 19 ^^^ w2 / 1024
    sha256Schedule n (((w16 + s0 + w7 + s1) % 2 ^ 32) :: w)

/-- One round of SHA-256 on the eight working words. -/
def sha256Round (v : List Nat) (kw : Nat) : List Nat :=
  match v with
  | [a, b, c, d, e, f, g, h] =>
    let s1 := rotr32 e 6 ^^^ rotr32 e 11 ^^^ rotr32 e 25
    let ch := (e &&& f) ^^^ ((0xFFFFFFFF ^^^ e) &&& g)
    let t1 := h + s1 + ch + kw
    let s0 := rotr32 a 2 ^^^ rotr32 a 13 ^^^ rotr32 a 22
    let mj := (a &&& b) ^^^ (a &&& c) ^^^ (b &&& c)
    [(t1 + s0 + mj) % 2 ^ 32, a, b, c, (d + t1) % 2 ^ 32, e, f, g]
  | v => v

/-- One 64-byte block into the hash value. -/
def sha256Block (h : List Nat) (block : List Byte) : List Nat :=
  let w0 := (chunks 4 16 block).map beNat
  let w := (sha256Schedule 48 w0.reverse).reverse
  let v := (List.zipWith (fun a b => a + b) sha256K w).foldl sha256Round h
  List.zipWith (fun a b => (a + b) % 2 ^ 32) h v

/-- The padding of a message of n bytes. -/
def sha256Pad (n : Nat) : List Byte :=
  [0x80] ++ List.replicate ((119 - n % 64) % 64) 0 ++ beBytes 8 (8 * n)

/-- SHA-256 (FIPS 180-4). -/
def sha256 (m : List Byte) : List Byte :=
  let p := m ++ sha256Pad m.length
  ((chunks 64 (p.length / 64) p).foldl sha256Block sha256H0).flatMap (beBytes 4)

/-- XOR of two byte lists, as far as both reach. -/
def xorBytes (a b : List Byte) : List Byte := List.zipWith (fun x y => x ^^^ y) a b

/-- HMAC-SHA-256 with a key of at most 64 bytes (FIPS 198-1). -/
def hmacSha256 (key m : List Byte) : List Byte :=
  let k := padTo 64 key
  sha256 (k.map (· ^^^ 0x5c) ++ sha256 (k.map (· ^^^ 0x36) ++ m))

/-- The bytes of an ASCII text. -/
def ascii (s : String) : List Byte := s.toList.map (fun c => BitVec.ofNat 8 c.toNat)

/-- The S-box of AES (FIPS 197). -/
def aesSbox : List Nat :=
  [0x63, 0x7c, 0x77, 0x7b, 0xf2, 0x6b, 0x6f, 0xc5, 0x30, 0x01, 0x67, 0x2b, 0xfe, 0xd7, 0xab, 0x76,
   0xca, 0x82, 0xc9, 0x7d, 0xfa, 0x59, 0x47, 0xf0, 0xad, 0xd4, 0xa2, 0xaf, 0x9c, 0xa4, 0x72, 0xc0,
   0xb7, 0xfd, 0x93, 0x26, 0x36, 0x3f, 0xf7, 0xcc, 0x34, 0xa5, 0xe5, 0xf1, 0x71, 0xd8, 0x31, 0x15,
   0x04, 0xc7, 0x23, 0xc3, 0x18, 0x96, 0x05, 0x9a, 0x07, 0x12, 0x80, 0xe2, 0xeb, 0x27, 0xb2, 0x75] ++
  [0x09, 0x83, 0x2c, 0x1a, 0x1b, 0x6e, 0x5a, 0xa0, 0x52, 0x3b, 0xd6, 0xb3, 0x29, 0xe3, 0x2f, 0x84,
   0x53, 0xd1, 0x00, 0xed, 0x20, 0xfc, 0xb1, 0x5b, 0x6a, 0xcb, 0xbe, 0x39, 0x4a, 0x4c, 0x58, 0xcf,
   0xd0, 0xef, 0xaa, 0xfb, 0x43, 0x4d, 0x33, 0x85, 0x45, 0xf9, 0x02, 0x7f, 0x50, 0x3c, 0x9f, 0xa8,
   0x51, 0xa3, 0x40, 0x8f, 0x92, 0x9d, 0x38, 0xf5, 0xbc, 0xb6, 0xda, 0x21, 0x10, 0xff, 0xf3, 0xd2] ++
  [0xcd, 0x0c, 0x13, 0xec, 0x5f, 0x97, 0x44, 0x17, 0xc4, 0xa7, 0x7e, 0x3d, 0x64, 0x5d, 0x19, 0x73,
   0x60, 0x81, 0x4f, 0xdc, 0x22, 0x2a, 0x90, 0x88, 0x46, 0xee, 0xb8, 0x14, 0xde, 0x5e, 0x0b, 0xdb,
   0xe0, 0x32, 0x3a, 0x0a, 0x49, 0x06, 0x24, 0x5c, 0xc2, 0xd3, 0xac, 0x62, 0x91, 0x95, 0xe4, 0x79,
   0xe7, 0xc8, 0x37, 0x6d, 0x8d, 0xd5, 0x4e, 0xa9, 0x6c, 0x56, 0xf4, 0xea, 0x65, 0x7a, 0xae, 0x08] ++
  [0xba, 0x78, 0x25, 0x2e, 0x1c, 0xa6, 0xb4, 0xc6, 0xe8, 0xdd, 0x74, 0x1f, 0x4b, 0xbd, 0x8b, 0x8a,
   0x70, 0x3e, 0xb5, 0x66, 0x48, 0x03, 0xf6, 0x0e, 0x61, 0x35, 0x57, 0xb9, 0x86, 0xc1, 0x1d, 0x9e,
   0xe1, 0xf8, 0x98, 0x11, 0x69, 0xd9, 0x8e, 0x94, 0x9b, 0x1e, 0x87, 0xe9, 0xce, 0x55, 0x28, 0xdf,
   0x8c, 0xa1, 0x89, 0x0d, 0xbf, 0xe6, 0x42, 0x68, 0x41, 0x99, 0x2d, 0x0f, 0xb0, 0x54, 0xbb, 0x16]

/-- SubBytes of one byte. -/
def aesSub (b : Byte) : Byte := BitVec.ofNat 8 (aesSbox.getD b.toNat 0)

/-- The inverse of SubBytes of one byte: its place in the S-box. -/
def aesSubInv (b : Byte) : Byte := BitVec.ofNat 8 (aesSbox.findIdx (· == b.toNat))

/-- Multiply by x in the field of AES. -/
def aesX (b : Byte) : Byte := if b.toNat < 128 then b <<< 1 else (b <<< 1) ^^^ 0x1b

/-- Multiply two bytes in the field of AES. -/
def aesMul (a b : Byte) : Byte :=
  (List.range 8).foldr (fun k r => aesX r ^^^ (if bit b.toNat k then a else 0)) 0

/-- The words of an AES key schedule, newest first: `n` more words for a key of `nk` words. -/
def aesExpand (nk : Nat) : Nat → Byte → List (List Byte) → List (List Byte)
  | 0, _, w => w
  | n + 1, rcon, w =>
    let i := w.length
    let t := w.headD []
    let far := w.getD (nk - 1) []
    if i % nk = 0 then
      let r := (t.drop 1 ++ t.take 1).map aesSub
      aesExpand nk n (aesX rcon) (xorBytes far (xorBytes r [rcon, 0, 0, 0]) :: w)
    else if nk > 6 ∧ i % nk = 4 then aesExpand nk n rcon (xorBytes far (t.map aesSub) :: w)
    else aesExpand nk n rcon (xorBytes far t :: w)

/-- The round keys of AES, 16 bytes each, for a 16-byte or a 32-byte key. -/
def aesRoundKeys (key : List Byte) : List (List Byte) :=
  let nk := key.length / 4
  let w := (aesExpand nk (4 * (nk + 7) - nk) 1 (chunks 4 nk key).reverse).reverse
  (chunks 4 (nk + 7) w).map List.flatten

/-- ShiftRows: byte i of the state comes from byte (5i mod 16). -/
def aesShift (s : List Byte) : List Byte := (List.range 16).map (fun i => s.getD (5 * i % 16) 0)

/-- The inverse of ShiftRows. -/
def aesShiftInv (s : List Byte) : List Byte := (List.range 16).map (fun i => s.getD (13 * i % 16) 0)

/-- One column times a circulant of the field. -/
def aesMixCol (m c : List Byte) : List Byte :=
  (List.range 4).map (fun r => (List.range 4).foldl
    (fun a k => a ^^^ aesMul (c.getD k 0) (m.getD ((k + 4 - r) % 4) 0)) 0)

/-- MixColumns with the given circulant row. -/
def aesMix (m s : List Byte) : List Byte := (chunks 4 4 s).flatMap (aesMixCol m)

/-- AES encryption of one block with the given round keys. -/
def aesEncRounds : List (List Byte) → List Byte → List Byte
  | [], s => s
  | [k], s => xorBytes (aesShift (s.map aesSub)) k
  | k :: r, s => aesEncRounds r (xorBytes (aesMix [2, 3, 1, 1] (aesShift (s.map aesSub))) k)

/-- AES encryption of one 16-byte block (FIPS 197). -/
def aesEncrypt (key block : List Byte) : List Byte :=
  match aesRoundKeys key with
  | [] => block
  | k0 :: r => aesEncRounds r (xorBytes block k0)

/-- AES decryption rounds; the keys run from the last round to the first. -/
def aesDecRounds : List (List Byte) → List Byte → List Byte
  | [], s => s
  | [k], s => xorBytes ((aesShiftInv s).map aesSubInv) k
  | k :: r, s => aesDecRounds r (aesMix [14, 11, 13, 9] (xorBytes ((aesShiftInv s).map aesSubInv) k))

/-- AES decryption of one 16-byte block (FIPS 197). -/
def aesDecrypt (key block : List Byte) : List Byte :=
  match (aesRoundKeys key).reverse with
  | [] => block
  | k0 :: r => aesDecRounds r (xorBytes block k0)

/-- One inner step of KW unwrapping: step number t, on A and the registers R (the i-th of n). -/
def kwStep (key : List Byte) (n : Nat) (s : List Byte × List (List Byte)) (t : Nat) : List Byte × List (List Byte) :=
  let i := (t - 1) % n
  let b := aesDecrypt key (xorBytes s.1 (beBytes 8 t) ++ s.2.getD i [])
  (b.take 8, s.2.set i (b.drop 8))

/-- KW unwrap (NIST SP 800-38F): the key data, none where the integrity check fails or the length is no KW length. -/
def kwUnwrap (kek c : List Byte) : Option (List Byte) :=
  let n := c.length / 8 - 1
  if c.length % 8 ≠ 0 ∨ n < 2 then none else
  let s := ((List.range (6 * n)).reverse.map (· + 1)).foldl (kwStep kek n) (c.take 8, chunks 8 n (c.drop 8))
  if s.1 = List.replicate 8 0xa6 then some s.2.flatten else none

/-- Multiplication of GCM's field, bit 0 the most significant bit of byte 0: `n` bits of x left, z so far. -/
def ghashMulBits (x : Nat) : Nat → Nat → Nat → Nat
  | 0, _, z => z
  | n + 1, v, z =>
    let z' := if bit x n then z ^^^ v else z
    let v' := if v % 2 = 1 then (v / 2) ^^^ (0xE1 * 2 ^ 120) else v / 2
    ghashMulBits x n v' z'

/-- The product of two blocks in GCM's field. -/
def ghashMul (x y : Nat) : Nat := ghashMulBits x 128 y 0

/-- GHASH under the hash key h over data whose length is padded to whole blocks. -/
def ghash (h : Nat) (data : List Byte) : Nat :=
  (chunks 16 (ceilDiv data.length 16) data).foldl (fun y b => ghashMul (y ^^^ beNat (padTo 16 b)) h) 0

/-- Pad to a whole number of 16-byte blocks. -/
def padBlocks (l : List Byte) : List Byte := padTo (16 * ceilDiv l.length 16) l

/-- The counter-mode key stream of GCM over data: block counter values from 2. -/
def gcmCtr (key iv data : List Byte) : List Byte :=
  let bl := chunks 16 (ceilDiv data.length 16) data
  (List.range bl.length).flatMap (fun i => xorBytes (bl.getD i []) (aesEncrypt key (iv ++ beBytes 4 (i + 2))))

/-- The GCM tag over additional data and cipher text, with a 12-byte IV. -/
def gcmTag (key iv aad ct : List Byte) : List Byte :=
  let h := beNat (aesEncrypt key (List.replicate 16 0))
  let g := ghash h (padBlocks aad ++ padBlocks ct ++ beBytes 8 (8 * aad.length) ++ beBytes 8 (8 * ct.length))
  xorBytes (beBytes 16 g) (aesEncrypt key (iv ++ beBytes 4 1))

/-- GCM encryption: cipher text and 16-byte tag (NIST SP 800-38D). -/
def gcmEncrypt (key iv aad pt : List Byte) : List Byte × List Byte :=
  let ct := gcmCtr key iv pt
  (ct, gcmTag key iv aad ct)

/-- GCM decryption: the plain text and whether the tag passes. -/
def gcmDecrypt (key iv aad ct tag : List Byte) : List Byte × Bool :=
  (gcmCtr key iv ct, gcmTag key iv aad ct == tag)

end Sys2Proof.Machine
end

