-- ==== Sys2Proof/Machine/Names.lean ====
section
/-! DEFINITION. The names the spec gives with codes: statuses (R56 and each chapter's status table), events with their default
priorities (R59, R60 and each chapter's event table), session roles (R31), patch classes (R64), device roles (R24) and power
states (R20). -/

namespace Sys2Proof.Machine

/-- Status codes of responses and operation results. -/
inductive Status where
  | ok
  | accepted
  | badCommand
  | badParameter
  | outOfRange
  | denied
  | sessionClosed
  | noLeave
  | state
  | stagedConflict
  | limitReached
  | hardwareFault
  | aborted
  | authFailed
  | noChallenge
  | creditExceeded
  | idleTimeout
  | quiltVeto
  | quiltUnreachable
  | tooLate
  | notCoordinator
  | detached
  | digestMismatch
  | noTime
  | cancelled
  | calDisagree
  | calCut
  | calForeign
  | busNack
  | loadBusy
  | loadSlots
  | loadCut
  | cdNotFound
  | eqNoSignal
  | containerSplit
  | containerUndefined
  | loopMismatch
  | protCapacity
  | protMember
  | leafUnknown
  | leafCapacity
  | grantConflict
  | outOfReach
  | noEcho
  | timeNoPulse
  | refForeign
  | refNotAvailable
  | portOverlap
  | stitchFull
  | classFull
  | classDuplicate
  | classIndexBusy
  | classProfile
  | memRegion
  | memBandwidth
  | memNotFilled
  | memUncorrectable
  | queueExpressMix
  | cryptUnwrap
  | cryptSlotBusy
  | cryptMismatch
  | cryptAlarm
  | powerLimit
  | powerThermal
  | captCut
  | otpNoVpp
  | otpExhausted
  | otpVerify
  | fwRejected
  | fwRollback
  | fwCorrupt
deriving DecidableEq, Repr

/-- The 16-bit code of a status. -/
def Status.code : Status → Nat
  | .ok => 0x0000
  | .accepted => 0x0001
  | .badCommand => 0x0101
  | .badParameter => 0x0102
  | .outOfRange => 0x0103
  | .denied => 0x0201
  | .sessionClosed => 0x0202
  | .noLeave => 0x0301
  | .state => 0x0401
  | .stagedConflict => 0x0402
  | .limitReached => 0x0501
  | .hardwareFault => 0x0601
  | .aborted => 0x0701
  | .authFailed => 0x0840
  | .noChallenge => 0x0841
  | .creditExceeded => 0x0842
  | .idleTimeout => 0x0843
  | .quiltVeto => 0x0860
  | .quiltUnreachable => 0x0861
  | .tooLate => 0x0862
  | .notCoordinator => 0x0863
  | .detached => 0x0864
  | .digestMismatch => 0x0865
  | .noTime => 0x0866
  | .cancelled => 0x0867
  | .calDisagree => 0x0880
  | .calCut => 0x0881
  | .calForeign => 0x0882
  | .busNack => 0x0883
  | .loadBusy => 0x08A0
  | .loadSlots => 0x08A1
  | .loadCut => 0x08A2
  | .cdNotFound => 0x08C0
  | .eqNoSignal => 0x08C1
  | .containerSplit => 0x0900
  | .containerUndefined => 0x0901
  | .loopMismatch => 0x0902
  | .protCapacity => 0x0920
  | .protMember => 0x0921
  | .leafUnknown => 0x0940
  | .leafCapacity => 0x0941
  | .grantConflict => 0x0942
  | .outOfReach => 0x0943
  | .noEcho => 0x0944
  | .timeNoPulse => 0x0960
  | .refForeign => 0x0980
  | .refNotAvailable => 0x0981
  | .portOverlap => 0x09A0
  | .stitchFull => 0x09A1
  | .classFull => 0x09C0
  | .classDuplicate => 0x09C1
  | .classIndexBusy => 0x09C2
  | .classProfile => 0x09C3
  | .memRegion => 0x09E0
  | .memBandwidth => 0x09E1
  | .memNotFilled => 0x09E2
  | .memUncorrectable => 0x09E3
  | .queueExpressMix => 0x09E4
  | .cryptUnwrap => 0x0A00
  | .cryptSlotBusy => 0x0A01
  | .cryptMismatch => 0x0A02
  | .cryptAlarm => 0x0A03
  | .powerLimit => 0x0A20
  | .powerThermal => 0x0A21
  | .captCut => 0x0A40
  | .otpNoVpp => 0x0A60
  | .otpExhausted => 0x0A61
  | .otpVerify => 0x0A62
  | .fwRejected => 0x0A63
  | .fwRollback => 0x0A64
  | .fwCorrupt => 0x0A65

/-- Event sources. -/
inductive Ev where
  | wakeDone
  | wakeFailed
  | leaveRefused
  | tjWarn
  | tjHot
  | tjShutdown
  | tjNormal
  | vtileRequest
  | boot
  | pfail
  | patchReset
  | eventOverflow
  | sessionOpened
  | sessionClosed
  | authFailed
  | opDone
  | opFailed
  | commitApplied
  | commitRefused
  | stagingDiscarded
  | quiltPrepared
  | quiltVeto
  | quiltAborted
  | quiltDetached
  | quiltRejoined
  | quiltResyncNeeded
  | quiltRouteChanged
  | quiltDuplicate
  | quiltHopsExceeded
  | quiltChannelError
  | convClip
  | convLow
  | convLevelOk
  | calDone
  | calDisagree
  | calCut
  | calSuspended
  | calNoLeave
  | convSliceRetired
  | convSliceFault
  | lasbusError
  | loadAnnounced
  | loadSwitched
  | loadRxSwitched
  | loadMissed
  | loadNotSeen
  | loadMarginLow
  | loadMarginOk
  | loadAnnError
  | narrowLoRange
  | lineLocked
  | lineLost
  | freqRange
  | eqAcquired
  | eqLost
  | sopAlarm
  | sopAlarmClear
  | cycleSlip
  | cdResidual
  | cdScanDone
  | cdClassChanged
  | freqCorrected
  | laserLimit
  | fecSd
  | fecSdClear
  | fecUncorr
  | fecFastLong
  | fecIterChanged
  | frameIn
  | frameOof
  | framePhase
  | ohCrc
  | slotmapMismatch
  | containerSlip
  | containerDelineation
  | loopbackEnded
  | secDefectSet
  | secDefectClear
  | pathDefectSet
  | pathDefectClear
  | ttiChanged
  | labelChanged
  | uasStart
  | uasEnd
  | pmInterval
  | protSwitch
  | protDeskew
  | protSlip
  | protRescue
  | leafDiscovered
  | leafRanged
  | leafLost
  | leafBack
  | leafOutOfReach
  | burstCollision
  | burstMisalign
  | leafLastGasp
  | leafAssigned
  | leafGiveUp
  | leafMoveRequest
  | leafDeregistered
  | leafSilenced
  | timeStepped
  | timeLost
  | stampOverflow
  | ttValid
  | ttInvalid
  | slewHoldEnd
  | refFailed
  | refAvailable
  | refSwitchStart
  | refSwitchDone
  | refSwitchAbandoned
  | holdoverEnter
  | holdoverExit
  | syncState
  | refTimeAlarm
  | modelValid
  | outQlChanged
  | thermFault
  | laneLocked
  | laneUnlocked
  | laneFallback
  | laneSlip
  | portUp
  | portDown
  | portFecUncorr
  | stitchUp
  | stitchDown
  | stitchEcho
  | classGenSwapped
  | classGenRetired
  | parseException
  | classTableHigh
  | classRehash
  | pipeOverrun
  | ctrlQueueDrop
  | queueHigh
  | queueDrop
  | hbmBwDrop
  | expressWait
  | queueLost
  | memCorrected
  | memUncorrectable
  | memRemapAdvised
  | memRemapped
  | memRemapFull
  | scrubPass
  | cryptTagFail
  | cryptQuarantine
  | cryptPnWarn
  | cryptKeyRetired
  | cryptNewAn
  | cryptLenDiscard
  | cryptOverrun
  | vrDrop
  | thimbleAlarm
  | thimbleCleared
  | cryptContextLost
  | monDumpLost
  | hkLimit
  | hkLimitClear
  | captDone
  | captCut
  | otpProgrammed
  | otpTorn
  | otpSpareLow
deriving DecidableEq, Repr

/-- The 9-bit code of an event source (R58). -/
def Ev.code : Ev → Nat
  | .wakeDone => 0x000
  | .wakeFailed => 0x001
  | .leaveRefused => 0x002
  | .tjWarn => 0x003
  | .tjHot => 0x004
  | .tjShutdown => 0x005
  | .tjNormal => 0x006
  | .vtileRequest => 0x007
  | .boot => 0x008
  | .pfail => 0x009
  | .patchReset => 0x00A
  | .eventOverflow => 0x010
  | .sessionOpened => 0x011
  | .sessionClosed => 0x012
  | .authFailed => 0x013
  | .opDone => 0x014
  | .opFailed => 0x015
  | .commitApplied => 0x020
  | .commitRefused => 0x021
  | .stagingDiscarded => 0x022
  | .quiltPrepared => 0x023
  | .quiltVeto => 0x024
  | .quiltAborted => 0x025
  | .quiltDetached => 0x026
  | .quiltRejoined => 0x027
  | .quiltResyncNeeded => 0x028
  | .quiltRouteChanged => 0x029
  | .quiltDuplicate => 0x02A
  | .quiltHopsExceeded => 0x02B
  | .quiltChannelError => 0x02C
  | .convClip => 0x040
  | .convLow => 0x041
  | .convLevelOk => 0x042
  | .calDone => 0x043
  | .calDisagree => 0x044
  | .calCut => 0x045
  | .calSuspended => 0x046
  | .calNoLeave => 0x047
  | .convSliceRetired => 0x048
  | .convSliceFault => 0x049
  | .lasbusError => 0x04A
  | .loadAnnounced => 0x060
  | .loadSwitched => 0x061
  | .loadRxSwitched => 0x062
  | .loadMissed => 0x063
  | .loadNotSeen => 0x064
  | .loadMarginLow => 0x065
  | .loadMarginOk => 0x066
  | .loadAnnError => 0x067
  | .narrowLoRange => 0x068
  | .lineLocked => 0x070
  | .lineLost => 0x071
  | .freqRange => 0x072
  | .eqAcquired => 0x073
  | .eqLost => 0x074
  | .sopAlarm => 0x075
  | .sopAlarmClear => 0x076
  | .cycleSlip => 0x077
  | .cdResidual => 0x078
  | .cdScanDone => 0x079
  | .cdClassChanged => 0x07A
  | .freqCorrected => 0x07B
  | .laserLimit => 0x07C
  | .fecSd => 0x080
  | .fecSdClear => 0x081
  | .fecUncorr => 0x082
  | .fecFastLong => 0x083
  | .fecIterChanged => 0x084
  | .frameIn => 0x090
  | .frameOof => 0x091
  | .framePhase => 0x092
  | .ohCrc => 0x093
  | .slotmapMismatch => 0x094
  | .containerSlip => 0x095
  | .containerDelineation => 0x096
  | .loopbackEnded => 0x097
  | .secDefectSet => 0x0A0
  | .secDefectClear => 0x0A1
  | .pathDefectSet => 0x0A2
  | .pathDefectClear => 0x0A3
  | .ttiChanged => 0x0A4
  | .labelChanged => 0x0A5
  | .uasStart => 0x0A6
  | .uasEnd => 0x0A7
  | .pmInterval => 0x0A8
  | .protSwitch => 0x0A9
  | .protDeskew => 0x0AA
  | .protSlip => 0x0AB
  | .protRescue => 0x0AC
  | .leafDiscovered => 0x0C0
  | .leafRanged => 0x0C1
  | .leafLost => 0x0C2
  | .leafBack => 0x0C3
  | .leafOutOfReach => 0x0C4
  | .burstCollision => 0x0C5
  | .burstMisalign => 0x0C6
  | .leafLastGasp => 0x0C7
  | .leafAssigned => 0x0C8
  | .leafGiveUp => 0x0C9
  | .leafMoveRequest => 0x0CA
  | .leafDeregistered => 0x0CB
  | .leafSilenced => 0x0CC
  | .timeStepped => 0x0E0
  | .timeLost => 0x0E1
  | .stampOverflow => 0x0E2
  | .ttValid => 0x0E3
  | .ttInvalid => 0x0E4
  | .slewHoldEnd => 0x0E5
  | .refFailed => 0x0F0
  | .refAvailable => 0x0F1
  | .refSwitchStart => 0x0F2
  | .refSwitchDone => 0x0F3
  | .refSwitchAbandoned => 0x0F4
  | .holdoverEnter => 0x0F5
  | .holdoverExit => 0x0F6
  | .syncState => 0x0F7
  | .refTimeAlarm => 0x0F8
  | .modelValid => 0x0F9
  | .outQlChanged => 0x0FA
  | .thermFault => 0x0FB
  | .laneLocked => 0x100
  | .laneUnlocked => 0x101
  | .laneFallback => 0x102
  | .laneSlip => 0x103
  | .portUp => 0x104
  | .portDown => 0x105
  | .portFecUncorr => 0x106
  | .stitchUp => 0x107
  | .stitchDown => 0x108
  | .stitchEcho => 0x109
  | .classGenSwapped => 0x120
  | .classGenRetired => 0x121
  | .parseException => 0x122
  | .classTableHigh => 0x123
  | .classRehash => 0x124
  | .pipeOverrun => 0x125
  | .ctrlQueueDrop => 0x126
  | .queueHigh => 0x130
  | .queueDrop => 0x131
  | .hbmBwDrop => 0x132
  | .expressWait => 0x133
  | .queueLost => 0x134
  | .memCorrected => 0x140
  | .memUncorrectable => 0x141
  | .memRemapAdvised => 0x142
  | .memRemapped => 0x143
  | .memRemapFull => 0x144
  | .scrubPass => 0x145
  | .cryptTagFail => 0x160
  | .cryptQuarantine => 0x161
  | .cryptPnWarn => 0x162
  | .cryptKeyRetired => 0x163
  | .cryptNewAn => 0x164
  | .cryptLenDiscard => 0x165
  | .cryptOverrun => 0x166
  | .vrDrop => 0x167
  | .thimbleAlarm => 0x168
  | .thimbleCleared => 0x169
  | .cryptContextLost => 0x16A
  | .monDumpLost => 0x170
  | .hkLimit => 0x171
  | .hkLimitClear => 0x172
  | .captDone => 0x173
  | .captCut => 0x174
  | .otpProgrammed => 0x175
  | .otpTorn => 0x176
  | .otpSpareLow => 0x177

/-- The default priority of an event source. -/
def Ev.priority : Ev → Nat
  | .quiltChannelError
  | .pmInterval
  | .memCorrected
  | .scrubPass => 0
  | .wakeFailed
  | .leaveRefused
  | .tjWarn
  | .vtileRequest
  | .boot
  | .sessionClosed
  | .opFailed
  | .commitRefused
  | .quiltVeto
  | .quiltAborted
  | .convClip
  | .convLow
  | .calDisagree
  | .calCut
  | .calNoLeave
  | .convSliceRetired
  | .lasbusError
  | .loadMissed
  | .loadNotSeen
  | .loadMarginLow
  | .loadAnnError
  | .freqRange
  | .eqLost
  | .sopAlarm
  | .cdResidual
  | .laserLimit
  | .fecSd
  | .fecUncorr
  | .fecFastLong
  | .framePhase
  | .slotmapMismatch
  | .containerSlip
  | .loopbackEnded
  | .pathDefectSet
  | .uasStart
  | .protSwitch
  | .protDeskew
  | .protSlip
  | .leafOutOfReach
  | .burstMisalign
  | .leafGiveUp
  | .leafMoveRequest
  | .leafDeregistered
  | .leafSilenced
  | .timeStepped
  | .ttInvalid
  | .refFailed
  | .refSwitchStart
  | .refSwitchAbandoned
  | .refTimeAlarm
  | .thermFault
  | .laneUnlocked
  | .laneFallback
  | .laneSlip
  | .portDown
  | .portFecUncorr
  | .stitchEcho
  | .classTableHigh
  | .pipeOverrun
  | .ctrlQueueDrop
  | .queueHigh
  | .hbmBwDrop
  | .expressWait
  | .memRemapAdvised
  | .cryptTagFail
  | .cryptPnWarn
  | .cryptLenDiscard
  | .cryptOverrun
  | .vrDrop
  | .monDumpLost
  | .hkLimit
  | .captCut
  | .otpTorn
  | .otpSpareLow => 2
  | .tjHot
  | .tjShutdown
  | .pfail
  | .eventOverflow
  | .authFailed
  | .quiltDetached
  | .quiltResyncNeeded
  | .quiltDuplicate
  | .quiltHopsExceeded
  | .calSuspended
  | .convSliceFault
  | .narrowLoRange
  | .lineLost
  | .frameOof
  | .secDefectSet
  | .leafLost
  | .leafLastGasp
  | .timeLost
  | .stampOverflow
  | .holdoverEnter
  | .stitchDown
  | .queueLost
  | .memUncorrectable
  | .memRemapFull
  | .cryptQuarantine
  | .cryptKeyRetired
  | .thimbleAlarm
  | .cryptContextLost => 3
  | _ => 1

/-- Every event source, by rising code. -/
def Ev.all : List Ev :=
  List.flatten [
    [.wakeDone, .wakeFailed, .leaveRefused, .tjWarn, .tjHot, .tjShutdown, .tjNormal, .vtileRequest, .boot, .pfail, .patchReset, .eventOverflow, .sessionOpened, .sessionClosed, .authFailed, .opDone, .opFailed, .commitApplied, .commitRefused, .stagingDiscarded, .quiltPrepared, .quiltVeto, .quiltAborted, .quiltDetached, .quiltRejoined, .quiltResyncNeeded, .quiltRouteChanged, .quiltDuplicate, .quiltHopsExceeded, .quiltChannelError, .convClip, .convLow, .convLevelOk, .calDone, .calDisagree, .calCut, .calSuspended, .calNoLeave, .convSliceRetired, .convSliceFault, .lasbusError, .loadAnnounced, .loadSwitched, .loadRxSwitched, .loadMissed, .loadNotSeen, .loadMarginLow, .loadMarginOk],
    [.loadAnnError, .narrowLoRange, .lineLocked, .lineLost, .freqRange, .eqAcquired, .eqLost, .sopAlarm, .sopAlarmClear, .cycleSlip, .cdResidual, .cdScanDone, .cdClassChanged, .freqCorrected, .laserLimit, .fecSd, .fecSdClear, .fecUncorr, .fecFastLong, .fecIterChanged, .frameIn, .frameOof, .framePhase, .ohCrc, .slotmapMismatch, .containerSlip, .containerDelineation, .loopbackEnded, .secDefectSet, .secDefectClear, .pathDefectSet, .pathDefectClear, .ttiChanged, .labelChanged, .uasStart, .uasEnd, .pmInterval, .protSwitch, .protDeskew, .protSlip, .protRescue, .leafDiscovered, .leafRanged, .leafLost, .leafBack, .leafOutOfReach, .burstCollision, .burstMisalign],
    [.leafLastGasp, .leafAssigned, .leafGiveUp, .leafMoveRequest, .leafDeregistered, .leafSilenced, .timeStepped, .timeLost, .stampOverflow, .ttValid, .ttInvalid, .slewHoldEnd, .refFailed, .refAvailable, .refSwitchStart, .refSwitchDone, .refSwitchAbandoned, .holdoverEnter, .holdoverExit, .syncState, .refTimeAlarm, .modelValid, .outQlChanged, .thermFault, .laneLocked, .laneUnlocked, .laneFallback, .laneSlip, .portUp, .portDown, .portFecUncorr, .stitchUp, .stitchDown, .stitchEcho, .classGenSwapped, .classGenRetired, .parseException, .classTableHigh, .classRehash, .pipeOverrun, .ctrlQueueDrop, .queueHigh, .queueDrop, .hbmBwDrop, .expressWait, .queueLost, .memCorrected, .memUncorrectable],
    [.memRemapAdvised, .memRemapped, .memRemapFull, .scrubPass, .cryptTagFail, .cryptQuarantine, .cryptPnWarn, .cryptKeyRetired, .cryptNewAn, .cryptLenDiscard, .cryptOverrun, .vrDrop, .thimbleAlarm, .thimbleCleared, .cryptContextLost, .monDumpLost, .hkLimit, .hkLimitClear, .captDone, .captCut, .otpProgrammed, .otpTorn, .otpSpareLow]]

/-- The default priority of an event code that a source has, else 0. -/
def Ev.priorityOfCode (c : Nat) : Nat :=
  match Ev.all.find? (fun e => e.code == c) with
  | some e => e.priority
  | none => 0


/-- The role of a session (R31, R48): 0 none, 1 observer, 2 operator, 3 privileged. -/
inductive SessRole where
  | none | observer | operator | privileged
deriving DecidableEq, Repr

/-- The two-bit code of a session role. -/
def SessRole.code : SessRole → Nat
  | .none => 0 | .observer => 1 | .operator => 2 | .privileged => 3

/-- The session role of a code. -/
def SessRole.ofCode : Nat → SessRole
  | 1 => .observer | 2 => .operator | 3 => .privileged | _ => .none

/-- The state of a session slot (R31). -/
inductive SlotState where
  | free | claimed | challenged | opened | closed
deriving DecidableEq, Repr

/-- The code of a slot state (R31). -/
def SlotState.code : SlotState → Nat
  | .free => 0 | .claimed => 1 | .challenged => 2 | .opened => 3 | .closed => 4

/-- The committed role of the device (R24). -/
inductive DevRole where
  | unset | p2p | hub | leaf
deriving DecidableEq, Repr

/-- The code of a device role (R24). -/
def DevRole.code : DevRole → Nat
  | .unset => 0 | .p2p => 1 | .hub => 2 | .leaf => 3

/-- The device role of a code. -/
def DevRole.ofCode : Nat → DevRole
  | 1 => .p2p | 2 => .hub | 3 => .leaf | _ => .unset

/-- The power states of the device (R20). -/
inductive PowerState where
  | dormant | listen | part | full
deriving DecidableEq, Repr

/-- The code of a power state (R24). -/
def PowerState.code : PowerState → Nat
  | .dormant => 0 | .listen => 1 | .part => 2 | .full => 3

/-- The patch classes (R64). -/
inductive PClass where
  | device | line | subcarrier | fec | frame | wideband | converter | leaf | hostLane | stitchLane | port | pipeline
  | classifier | queue | cipher | hbm | sram | time | reference | protection | housekeeping | capture | power | quilt
deriving DecidableEq, Repr

/-- The class value of a patch class (R64). -/
def PClass.value : PClass → Nat
  | .device => 0x00 | .line => 0x01 | .subcarrier => 0x02 | .fec => 0x03 | .frame => 0x04 | .wideband => 0x05
  | .converter => 0x06 | .leaf => 0x07 | .hostLane => 0x08 | .stitchLane => 0x09 | .port => 0x0A | .pipeline => 0x0B
  | .classifier => 0x0C | .queue => 0x0D | .cipher => 0x0E | .hbm => 0x0F | .sram => 0x10 | .time => 0x11
  | .reference => 0x12 | .protection => 0x13 | .housekeeping => 0x14 | .capture => 0x15 | .power => 0x16 | .quilt => 0x1F

/-- How many instances a patch class has (R64). -/
def PClass.count : PClass → Nat
  | .device => 1 | .line => 1 | .subcarrier => 32 | .fec => 32 | .frame => 32 | .wideband => 4 | .converter => 8
  | .leaf => 4095 | .hostLane => 16 | .stitchLane => 8 | .port => 16 | .pipeline => 8 | .classifier => 2
  | .queue => 16384 | .cipher => 5 | .hbm => 2 | .sram => 16 | .time => 1 | .reference => 7 | .protection => 80
  | .housekeeping => 1 | .capture => 1 | .power => 1 | .quilt => 1

/-- Every patch class, by rising class value. -/
def PClass.all : List PClass :=
  [.device, .line, .subcarrier, .fec, .frame, .wideband, .converter, .leaf, .hostLane, .stitchLane, .port, .pipeline,
   .classifier, .queue, .cipher, .hbm, .sram, .time, .reference, .protection, .housekeeping, .capture, .power, .quilt]

/-- The patch class of a class value, none where the table of R64 lists none. -/
def PClass.ofValue (v : Nat) : Option PClass := PClass.all.find? (fun c => c.value == v)

/-- A single unit of this device, by class and instance (R64). -/
structure Patch where
  cls : PClass
  inst : Nat
deriving DecidableEq, Repr

/-- The 20 low bits of a unit's patch identifier (R64). -/
def Patch.low (p : Patch) : Nat := p.cls.value * 2 ^ 14 + p.inst

/-- The 32-bit patch identifier of a unit of device `dev` (R64); the quilt is named with device 0xFFF. -/
def Patch.id (dev : Nat) (p : Patch) : Nat := (if p.cls = .quilt then 0xFFF else dev) * 2 ^ 20 + p.low

end Sys2Proof.Machine
end

