-- ==== Sys2Proof/Machine/Fields.lean ====
section
/-! DEFINITION. The configuration fields a commit sets (R68), each with the value it has after a whole-device reset. The committed
configuration is one table of these fields by index. -/

namespace Sys2Proof.Machine

/-- A configuration field. The index of a field (a unit, a port, an entry …) is said with each. -/
inductive Fld where
  -- R61: by event code
  | evtEnable | evtPriority
  -- R57: by role code; `credKey` is K, `credSet` says that one was set
  | credSet | credKey
  -- R23
  | role | stitchUse
  -- R65: by 1,024 × class value + instance; members by 4,096 × that + place, as `Member.enc`
  | groupCount | groupMember
  -- R79; `rejoin`, by device, is a staged `QUILT.REJOIN`
  | devNum | coordNum | quiltEnable | rejoin
  -- R481: by `PowerUnit.index`; R480
  | wakeTarget | budget | steady | stepLimit | tjMargin
  -- R501: by 8 × monitored patch + counter; R502
  | monSel | dumpPeriod | dumpDest | dumpAlign | dumpSlots | dumpAddr
  -- R508: `hkEntry` by entry, 16 bytes; R512: by 6 × (stage − 1) + tap; `captHost`: they are in force, not
  -- the wake coefficients
  | hkCount | hkEntry | captCoef | captHost
  -- R105, R106: by converter, taken at the commit and lost as the core sleeps; R108
  | gain | clipExp | lowLevel
  -- R110; R111: front-end writes by 4,096 × target + address; R116: by laser block; R117: by staging order, 16 bytes
  | feDiv | feWrite | lasAddr | lasEnable | lasWide | lasInvert | lasPtr | lasLsb | lasLimit | lasFast | lasWrite
  -- R126; R127, R129: imported records by number with their count at 16, and the modes dropped
  | calTrigger | calHoldoff | calTolSkew | calTolGain | calTolOffset | calTolBw | calTolLin | calImport | calDrop
  -- R146, R242: by subcarrier, map entries by 17 × subcarrier + position; R153: with the correction table by 65 × code + `H_CODE`; R157
  | planH | planCode | mapEntry | loadMargin | gapStd | gapLong | loadFloor | smooth | annRetry | ackWait | fastPenalty | corr
  | rxFirst | rxCount | txFirst | txCount | rxLo | txLo
  -- R166: by converter; R169; R177: by subcarrier; R186; R188: by 33 × lane + point
  | feSkew | feGain | fePhase | cdClass | cd | cdSlope | sopMode | convMinSnr | sopAlarm | sigMin | fbThresh | fbDwell | fbSettle
  | respGain | respPhase
  -- R216, R217: by subcarrier
  | fecFast | sdMant | sdExp | inject | injMant | injExp
  -- R241: by subcarrier; R243: by 2 × container + direction; R244: 0 the line, 1 + subcarrier
  | awThresh | pilotThresh | lossCount | contBind | contStitch | loopMode
  -- R269, R270: by subcarrier, the traces as numbers, most significant byte first; R271: by container
  | timMode | timAct | labelMode | expLabel | ttiTx | ttiExp | returnEn | returnId | degThr | degM
  -- R274: by 2 × group + direction (1 receive); R275: by group, acted on at the commit
  | grpEn | grpStitch | grpRev | grpW | grpP | grpDiff | grpWtr | grpHold | protReq | protReskew
  -- R310; R311: by subcarrier; R312: by subcarrier, entries by 2,048 × subcarrier + 8 × row + slot
  | loopFrames | rtdMin | rtdMax | captureDb | uwThresh | shared | discEn | cycleLog | grant
  -- R313: by leaf; R314: `leafMove` by leaf, 6 bytes, acted on at the commit; the leaf's own
  | leafEn | leafDed | leafHome | leafMod | leafCode | leafCont | leafIdent | leafMove | ownDisc | ownSleep | ownHome | ownCont
  -- R340: by link, 0 `line`, 1 `st[0]`; R341: by port
  | ttEn | ttFibre | ttAvg | rxRefMhz | txExtPs | rxExtPs | asymPs | portRxDelay | portTxDelay
  -- R367: by input; R368, `refTimeMode` is `TIME_STEER`; R369: by output; R370; R373; an imported model record, by number
  | refEnable | refPrio | refQl | refQualMs | refRange | refTod | refTodEdge | refBaud | refExtf | refCable
  | refMode | refForced | refQlEn | refRevertive | refBw | refTimeMode | refUtcValid | refWtr | refPull | refUtc | refAlarm | refTrim
  | outEn | outPol | outSup | outAlign | outSrc | outSc | outDiv | outWidth | outOffset | outDelay
  | hoTherm | hoQl | hoAvg | ntcBeta | ntcR25 | learnTau | modelImport
  -- R393: by port; R394, `lanePre2` … as two's complement bytes, and R395: by lane, stitch lanes from 16; R392
  | portEn | portSpeed | portRate | portDir | portMax | laneSrc | laneCtle | lanePre2 | lanePre1 | lanePost1 | laneLoop | stitchRelay
  | ptpMask | ptpDomain | ptpEn | ptpMcast | ptpPrio2
  -- R446: by queue; R448: by region, `rgFilled` acted on at the commit; R449; R450: by memory (0, 1 stacks, 2 + n stores); R443: by
  -- 16 × memory + entry, 1 + 2 × address, acted on at the commit
  | qEn | qKind | qBuf | qExpress | qPrio | qWeight | qDest | qMax | qOndie | qHigh
  | rgEn | rgKind | rgBase | rgSize | rgFilled | bwTx | bwRx | bwVerify | bwCapture | bwMaint | scrubPeriod | scrubEn | scrubAuto | remapSet
  -- R471: by context; R472: by 4 × context + slot, R473: by context, acted on at the commit; R473
  | cRole | cFormat | cSc | cValid | cClear | cSci | cWarn | cWindow | cReplay | cQ | cHold | cEtype | keyLoad | keyErase | unquar
  | alarmEn | authThresh
deriving DecidableEq, Repr

/-- The value of a configuration field after a whole-device reset; 0 where no rule states another (DESIGN CHOICE, assumption 190). -/
def Fld.reset (f : Fld) (i : Nat) : Nat :=
  match f with
  | .evtEnable => 1
  | .evtPriority => Ev.priorityOfCode i
  | .stepLimit => 10
  | .tjMargin => 5
  | .dumpPeriod => 1000
  | .dumpAlign => 1
  | .ttEn => 1
  | .clipExp => 6
  | .lowLevel => 65536 - 3000
  | .feDiv => 2
  | .calTrigger => 16
  | .calHoldoff => 10
  | .calTolSkew => 50
  | .calTolGain => 50
  | .calTolOffset => 30
  | .calTolBw => 50
  | .calTolLin => 25
  | .loadMargin => 100
  | .gapStd => 160
  | .gapLong => 90
  | .loadFloor => 50
  | .smooth => 3
  | .annRetry => 8
  | .ackWait => 1
  | .fastPenalty => 40
  | .convMinSnr => 40
  | .sopAlarm => 100
  | .sigMin => 65536 - 3500
  | .fbThresh => 200
  | .fbDwell => 100
  | .fbSettle => 50
  | .sdMant => 12
  | .sdExp => 2
  | .awThresh => 60
  | .pilotThresh => 50
  | .lossCount => 4
  | .ttAvg => 4
  | .expLabel => 0x2C
  | .degThr => 15000
  | .degM => 7
  | .grpRev => 1
  | .grpDiff => 256
  | .grpWtr => 300
  | .loopFrames => 8
  | .rtdMax => 60
  | .captureDb => 6
  | .uwThresh => 60
  | .grant => 0xFFF
  | .refEnable => if i = 6 then 1 else 0
  | .refPrio => 8
  | .refQl => 7
  | .refQualMs => 1000
  | .refRange => 460
  | .refRevertive => 1
  | .refBw => 1
  | .refTimeMode => 1
  | .refWtr => 300
  | .refPull => 10
  | .refAlarm => 1000
  | .hoQl => 6
  | .hoAvg => 300
  | .ntcBeta => 3435
  | .ntcR25 => 10000
  | .learnTau => 14
  | .ptpDomain => 24
  | .portMax => 9216
  | .laneCtle => 20
  | .lanePre1 => 248
  | .ptpPrio2 => 128
  | .qWeight => 1
  | .qMax => 256
  | .qOndie => 64
  | .qHigh => 80
  | .bwTx => 400
  | .bwRx => 400
  | .bwVerify => 100
  | .bwMaint => 50
  | .scrubPeriod => 1440
  | .scrubEn => 1
  | .cWarn => 24
  | .cReplay => 1
  | .cQ => 16
  | .cHold => 1000
  | .cEtype => 0x88B5
  | .authThresh => 16
  | _ => 0

/-- The key of field f at index i in the committed configuration. -/
def Fld.key (f : Fld) (i : Nat) : Nat := f.ctorIdx * 2 ^ 40 + i

/-- One staged field: the field, its index, its value and the bytes it takes in the basting area (R68, R70). -/
structure FieldVal where
  fld : Fld
  idx : Nat
  val : Nat
  bytes : Nat
deriving DecidableEq, Repr

end Sys2Proof.Machine
end

