-- ==== Sys2Proof/Machine/Tab.lean ====
section
/-! DEFINITION. Sparse tables by number: an unlisted key reads as a stated default. Canonical form: keys strictly rising and no
entry equal to its key's default, so that equal tables are equal lists. -/

namespace Sys2Proof.Machine

/-- A table of values by number (DESIGN CHOICE, assumption 14). -/
abbrev Tab (α : Type) := List (Nat × α)

/-- The value at key k; `d` gives what an unlisted key reads as. -/
def Tab.get (d : Nat → α) : Tab α → Nat → α
  | [], k => d k
  | (j, v) :: t, k => if j = k then v else Tab.get d t k

/-- The table without key k. -/
def Tab.erase : Tab α → Nat → Tab α
  | [], _ => []
  | (j, v) :: t, k => if j = k then Tab.erase t k else (j, v) :: Tab.erase t k

/-- The table with key k listed as v, keys kept rising. -/
def Tab.insert : Tab α → Nat → α → Tab α
  | [], k, v => [(k, v)]
  | (j, w) :: t, k, v =>
    if k < j then (k, v) :: (j, w) :: t
    else if j = k then (k, v) :: t
    else (j, w) :: Tab.insert t k v

/-- Write v at key k; writing what an unlisted key reads as removes the entry. -/
def Tab.set [DecidableEq α] (d : Nat → α) (t : Tab α) (k : Nat) (v : α) : Tab α :=
  if v = d k then t.erase k else t.insert k v

/-- Read, change and write back the value at key k. -/
def Tab.modify [DecidableEq α] (d : Nat → α) (t : Tab α) (k : Nat) (f : α → α) : Tab α :=
  t.set d k (f (t.get d k))

/-- Change the value at every listed key. -/
def Tab.mapVals [DecidableEq α] (d : Nat → α) (t : Tab α) (f : α → α) : Tab α :=
  (t.map fun e => (e.1, f e.2)).filter fun e => decide (e.2 ≠ d e.1)

/-- Every key of a table lies above b and the keys rise strictly (DESIGN CHOICE, assumption 14). -/
def Tab.rising (b : Nat) : Tab α → Bool
  | [] => true
  | (j, _) :: t => decide (b ≤ j) && Tab.rising (j + 1) t

/-- The canonical form: keys strictly rising, no entry equal to its default. -/
def Tab.wf [DecidableEq α] (d : Nat → α) (t : Tab α) : Bool :=
  Tab.rising 0 t && t.all (fun e => decide (e.2 ≠ d e.1))

/-- Occurrences of something that is reported at most once per second: the instants, newest first, and how many at each, those that
are a second old left out; and when it was last reported. -/
structure Recent where
  seen : List (Nat × Nat) := []
  said : Option Nat := none
deriving DecidableEq, Repr

end Sys2Proof.Machine
end

