-- ==== Sys2Proof/Machine/StateLane.lean ====
section
/-! DEFINITION. The state of host lanes, ports and the stitch port (chapter 13). -/

namespace Sys2Proof.Machine

/-- A lane: host lanes 0 to 15, stitch lanes at 16 and above. -/
structure LaneSt where
  locked : Bool := false
  /-- when it locked -/
  since : Nat := 0
  snr : Nat := 0
  losses : Nat := 0
  symbols : Nat := 0
  /-- the taps with which its equaliser last started, in 1/16 of the main one (R381, R382) -/
  ffe : List Int := []
  slips : Nat := 0
  /-- slips to be reported (R383) -/
  slipsSaid : Recent := {}
deriving DecidableEq, Repr

/-- A port: link state, the faults that took it down, since when, and its counters (R378, R395). -/
structure PortSt where
  up : Bool := false
  localFault : Bool := false
  remoteFault : Bool := false
  since : Nat := 0
  rxFrames : Nat := 0
  rxBytes : Nat := 0
  txFrames : Nat := 0
  txBytes : Nat := 0
  corrected : Nat := 0
  uncorr : Nat := 0
  discards : Nat := 0
  downs : Nat := 0
  /-- uncorrectable codewords to be reported -/
  uncorrSaid : Recent := {}
  /-- frames sent in a near-end loopback that have not come back, oldest first (R383) -/
  looped : List (List Byte) := []
deriving DecidableEq, Repr

/-- The states of the stitch receiver (R389). -/
inductive StitchState where
  | down | aligning | up
deriving DecidableEq, Repr

/-- The markers of a stitch ingress lane: runs of good and bad ones, lock, the last good one's `SFI` and `SFC`, and where it began in
words (R389). -/
structure MarkSt where
  good : Nat := 0
  bad : Nat := 0
  locked : Bool := false
  sfi : Nat := 0
  sfc : Nat := 0
  word : Nat := 0
deriving DecidableEq, Repr

/-- The stitch port (R384 to R392). -/
structure StitchSt where
  state : StitchState := .down
  marks : Tab MarkSt := []
  /-- frames in `ALIGNING`; good and bad `SOH_CRC` in succession -/
  frames : Nat := 0
  good : Nat := 0
  bad : Nat := 0
  echo : Bool := false
  farNum : Nat := 0
  farBdi : Bool := false
  farLG : Bool := false
  farRelay : Bool := false
  /-- the last good overhead's `SMAP` and `SCHUNK_PTR` entries -/
  map : List Nat := []
  ptrs : List Nat := []
  skew : Nat := 0
  sohErrors : Nat := 0
  bipViol : Nat := 0
  downs : Nat := 0
  discarded : Nat := 0
  /-- parity of the payload area last received, and last sent -/
  bip : Option (BitVec 8) := none
  txBip : BitVec 8 := 0
  /-- the port transmits; `SFI` and `SFC` of the frame being sent; its departure with `SFI` 0 -/
  txOn : Bool := false
  txSfi : Nat := 0
  txSfc : Nat := 0
  dep : Option Int := none
  /-- the overhead and the payload area of the frame sent last (R383) -/
  sent : Option (List Byte × List Byte) := none
  /-- the egress map: `STITCH_ID` and K of each container, by position (R387) -/
  txMap : List (Nat × Nat) := []
  /-- bytes of a cell that straddles two frames -/
  txRest : List Byte := []
  rxRest : List Byte := []
deriving DecidableEq, Repr

/-- Lanes, ports and the stitch port. -/
structure LaneAll where
  lanes : Tab LaneSt := []
  ports : Tab PortSt := []
  stitch : StitchSt := {}
deriving DecidableEq, Repr

end Sys2Proof.Machine
end

