-- ==== Sys2Proof/Machine/StateOver.lean ====
section
/-! DEFINITION. The state of overhead monitoring, protection, and the tree of a hub and its leaves (chapters 9 and 10). -/

namespace Sys2Proof.Machine

/-! ### Performance seconds (R260 to R263) -/

/-- A second that no later decision has placed yet (R261). -/
structure PmSec where
  es : Bool
  ses : Bool
  bbe : Nat
deriving DecidableEq, Repr

/-- One set of counters (R263). -/
structure PmCnt where
  es : Nat := 0
  ses : Nat := 0
  uas : Nat := 0
  bbe : Nat := 0
deriving DecidableEq, Repr

/-- One end's machine of R261: seconds pending, oldest first, availability, and the counter sets. -/
structure PmEnd where
  pending : List PmSec := []
  unavail : Bool := false
  cur : PmCnt := {}
  prev : PmCnt := {}
  tot : PmCnt := {}
deriving DecidableEq, Repr

/-- The blocks, errored blocks and defects of a second at both ends (R260, R262). -/
structure PmRun where
  blocks : Nat
  errored : Nat
  farErrored : Nat
  defect : Bool
  farDefect : Bool
deriving DecidableEq, Repr

/-- The performance monitoring of an entity: the running second's start, blocks, errored blocks and defects at both ends. -/
structure PmSt where
  near : PmEnd := {}
  far : PmEnd := {}
  from' : Nat := 0
  /-- it counts whole seconds of device time, time being established since its unit woke -/
  byTime : Bool := false
  blocks : Nat := 0
  errored : Nat := 0
  farErrored : Nat := 0
  defect : Bool := false
  farDefect : Bool := false
  suspect : Bool := true
  prevSuspect : Bool := false
  /-- a second that has ended while the parity of its last block is not known; a second counted in no category leaves `none` -/
  ended : Option (Option PmRun) := none
deriving DecidableEq, Repr

/-! ### Sections and paths (R249 to R259) -/

/-- What a subcarrier's receiver keeps of the section (R250 to R257). -/
structure SecSt where
  /-- bits of R257 -/
  defects : Nat := 0
  /-- good overheads in succession with `LAST_GASP`, and when the last such came -/
  lgRun : Nat := 0
  lgLast : Nat := 0
  /-- good overheads in succession with `SM_BDI` 1 and with 0 -/
  bdiOn : Nat := 0
  bdiOff : Nat := 0
  /-- the trace block in progress with how many of its bytes came, the run of equal blocks, and the accepted trace -/
  block : List Byte := []
  trace : List Byte := []
  traceRun : Nat := 0
  accepted : List Byte := List.replicate 64 0
  hasTrace : Bool := false
  /-- the run of equal labels and the accepted label -/
  labelVal : Nat := 0
  labelRun : Nat := 0
  label : Option Nat := none
  /-- parity of the last frame received, none where it is not evaluated; violations to return; violations counted -/
  bip : Option (BitVec 8) := none
  /-- the last frame was uncorrectable -/
  lastBad : Bool := false
  beiAcc : Nat := 0
  bipErr : Nat := 0
  /-- parity of the last frame sent, and the trace block being sent (R270) -/
  txBip : BitVec 8 := 0
  txTrace : Nat := 0
  pm : PmSt := {}
deriving DecidableEq, Repr

/-- What a sink keeps of a path (R253, R258, R260). -/
structure PathSt where
  /-- bits of R258 -/
  defects : Nat := 0
  ciOn : Nat := 0
  ciOff : Nat := 0
  /-- a good chunk has come in the running device frame; frames in succession without one; good chunks in succession -/
  gotGood : Bool := false
  noGood : Nat := 0
  good : Nat := 0
  late : Nat := 0
  onTime : Nat := 0
  bdiOn : Nat := 0
  bdiOff : Nat := 0
  degOn : Nat := 0
  degOff : Nat := 0
  /-- parity of the last chunk received, the `PFN` that follows it, and violations to return -/
  bip4 : Option Nat := none
  nextPfn : Option Nat := none
  beiAcc : Nat := 0
  /-- the last chunk was counted as errored -/
  lastBad : Bool := false
  pm : PmSt := {}
deriving DecidableEq, Repr

/-- A chunk (R229): the 8 bytes of its header and its payload as they came, the positions of the marked bytes counted from its first
byte (R233), the path entry that travelled with it, and a word in error of the store that holds it (R439, R440). -/
structure Chunk where
  head : List Byte
  payload : List Byte
  marks : List Nat
  pm : Option Nat
  hit : Option MemHit
deriving DecidableEq, Repr

/-- A chunk cut from a received frame (R228 to R230, R388): whether it came on the stitch port, else its subcarrier; the container of the
slot map or the `STITCH_ID`; its bytes with the marked ones; its path entry; and when the frame came. -/
structure RxPiece where
  stitch : Bool
  sc : Nat
  id : Nat
  bytes : List Byte
  marks : List Nat
  pm : Option Nat
  at' : Nat
deriving DecidableEq, Repr

/-- The bytes of a container's chunk that have come before its frame ended, with the marked ones and its path entry (R230). -/
structure CutSt where
  bytes : List Byte := []
  marks : List Nat := []
  pm : Option Nat := none
  /-- a chunk header has started it -/
  on : Bool := false
deriving DecidableEq, Repr

/-! ### Protection (R264 to R268) -/

/-- A receive group (R264 to R267). -/
structure ProtSt where
  /-- when the group was committed or re-anchored -/
  from' : Nat := 0
  /-- the next chunk to release and the device frame in which; the anchoring copy's lead at the anchor; releases to skip (+1) or repeat (-1) -/
  next : Option (Nat × Nat) := none
  lead : Nat := 0
  slip : Int := 0
  anchorP : Bool := false
  w : List Chunk := []
  p : List Chunk := []
  /-- `PFN` last arrived of each copy and when, for the differential -/
  wAt : Option (Nat × Nat) := none
  pAt : Option (Nat × Nat) := none
  /-- requests present, by code as bits; what the host asked for; SF and SD conditions: since when each lasts, W then P -/
  reqs : Nat := 0
  sf : List (Option Nat) := [none, none]
  sd : List (Option Nat) := [none, none]
  wtr : Option Nat := none
  active : Bool := false
  rescued : Nat := 0
  slips : Nat := 0
  switches : Nat := 0
  /-- chunks rescued in the running second of device time, that second, and those of the last one -/
  resSec : Nat := 0
  resNo : Nat := 0
  resLast : Nat := 0
  farPs : Nat := 0
deriving DecidableEq, Repr

/-! ### The hub (R279 to R309) -/

/-- The states of a leaf at the hub (R308). -/
inductive HubLeaf where
  | free | admitted | active | ranging | lost
deriving DecidableEq, Repr

/-- An entry of the leaf equaliser memory (R282): taps, timing phase in 1/8 symbol, frequency offset in MHz, whether the polarisations are
swapped, received level in 2^-32 of the mean power, and the time of its last write. -/
structure LemEntry where
  taps : Taps
  timing : Int
  freq : Int
  swap : Bool
  level : Nat
  at' : Nat
deriving DecidableEq, Repr

/-- A grant as it was sent (R294, R297): upstream frame, first slot, slots, `MOD` and `CODE`. -/
structure SentGrant where
  frame : Nat
  slot : Nat
  span : Nat
  mod : Nat
  code : Nat
deriving DecidableEq, Repr

/-- A leaf at the hub (R300 to R309, R315). -/
structure LeafAt where
  state : HubLeaf := .free
  rtd : Nat := 0
  eqd : Nat := 0
  /-- an `EQD` sent and not yet applied: the new value, and the grid frame from which the hub expects it -/
  eqdNext : Option (Nat × Nat) := none
  freq : Option Int := none
  snr : Option Nat := none
  /-- offsets e of the last good bursts, newest first, and unique words missed in succession -/
  offs : List Int := []
  missRun : Nat := 0
  granted : Nat := 0
  good : Nat := 0
  missed : Nat := 0
  hdrErrors : Nat := 0
  misaligned : Nat := 0
  uncorr : Nat := 0
  stale : Nat := 0
  misAt : Option Nat := none
  /-- grants sent whose bursts have not come, oldest first -/
  grants : List SentGrant := []
  /-- runs of good headers with `LAST_GASP` 1, with `SM_BDI` 1 and 0; defects dLG and dBDI -/
  lgRun : Nat := 0
  bdiOn : Nat := 0
  bdiOff : Nat := 0
  dLG : Bool := false
  dBDI : Bool := false
  bseq : Option Nat := none
  bip : Option (BitVec 8) := none
  beiAcc : Nat := 0
  /-- smoothed SNR reports by subcarrier, in 2^-20 of 0.01 dB -/
  reports : Tab (Option Nat) := []
  mseq : Nat := 0
  /-- the operation of `BURST.RANGE`: slot, serial, seq; and the device frame from which the echo is overdue -/
  rangeOp : Option (Nat × Nat × Nat) := none
  rangeEnd : Nat := 0
  pm : PmSt := {}
deriving DecidableEq, Repr

/-- A message record that waits or is being sent (R295): its subcarrier, frames still to send, and its 24 bytes. -/
structure TreeMsg where
  sc : Nat
  left : Nat
  bytes : List Byte
deriving DecidableEq, Repr

/-- A discovery list entry (R306, R314). -/
structure DiscEntry where
  ident : Nat
  rtd : Nat
  freq : Int
  power : Int
  sc : Nat
  far : Bool
  sec : Nat
deriving DecidableEq, Repr

/-- Burst reception of a subcarrier (R298, R303, R314). -/
structure BurstSc where
  falsePre : Nat := 0
  collisions : Nat := 0
  decoded : Nat := 0
  cancelled : Nat := 0
  /-- collisions in this occasion -/
  occasion : Nat := 0
  /-- contexts open in the search, the older first: the preamble power of each -/
  contexts : List Nat := []
  /-- the next occasion carries `INVITE_ONLY` -/
  invite : Bool := false
  /-- grid slots kept quiet for a leaf's echo: the leaf, from and to, as 8 × upstream frame + slot -/
  quiet : List (Nat × Int × Int) := []
deriving DecidableEq, Repr

/-- The hub's tree. -/
structure HubSt where
  leaves : Tab LeafAt := []
  /-- the leaf equaliser memory, by entry; 4,095 is the working entry of open bursts (R282) -/
  lem : Tab (Option LemEntry) := []
  msgs : List TreeMsg := []
  /-- the discovery list, and how many bursts were ever listed -/
  disc : List DiscEntry := []
  discCount : Nat := 0
  scs : Tab BurstSc := []
  /-- where the round robin of `REPORT` stands, by subcarrier -/
  robin : Tab Nat := []
deriving DecidableEq, Repr

/-! ### A leaf (R283 to R307) -/

/-- The states of a leaf (R307). -/
inductive LeafState where
  | off | waitDs | discWait | discSent | backoff | inviteWait | seen | active | silent
deriving DecidableEq, Repr

/-- A grant that names the leaf (R294): its subcarrier, upstream frame as 256 × `MFC` + `MFI`, slot and record. -/
structure LeafGrant where
  sc : Nat
  frame : Nat
  slot : Nat
  record : Nat
deriving DecidableEq, Repr

/-- The leaf's own state (R307, R314) (DESIGN CHOICE, assumption 109). -/
structure LeafOwn where
  state : LeafState := .off
  r : Nat := 0
  id : Nat := 0xFFF
  eqd : Nat := 0
  /-- an `EQD` received: value, and the upstream frame from which it applies -/
  eqdNext : Option (Nat × Nat) := none
  rtd : Nat := 0
  /-- an `RTD` has come since it entered `ACTIVE` (R337) -/
  rtdKnown : Bool := false
  freq : Option Int := none
  since : Nat := 0
  /-- occasions still to pass in `BACKOFF`; the subcarrier that it is invited on and the occasion's frame -/
  waitOcc : Nat := 0
  invited : Option (Nat × Nat) := none
  dedicated : Bool := false
  /-- `MSEQ` last acted on and when, by message type -/
  mseqs : Tab (Option (Nat × Nat)) := []
  bseq : Nat := 0
  rptSc : Nat := 0
  /-- grants received and not yet used, oldest first; where those of the last 256 frames start: upstream frame modulo 256, slot (R299) -/
  grants : List LeafGrant := []
  starts : List (Nat × Nat) := []
  /-- the home frame received last, as 256 × `MFC` + `MFI`, the last one whose overhead was used, and how many just before that were not,
  at most 3 (R295) -/
  no : Nat := 0
  goodNo : Option Nat := none
  unheard : Nat := 3
  /-- A_F of the last home frames, newest first: frame and instant in 10^-15 TC (R283) -/
  arrivals : List (Nat × Int) := []
  /-- when the last burst sent ended, in 10^-15 TC (R304) -/
  lastEnd : Int := 0
  bip : BitVec 8 := 0
  /-- a discovery burst or echo due: attempt, sub-position, whether invited, and the frame it refers to (256 × `MFC` + `MFI`) -/
  disc : Option (Nat × Nat × Bool × Nat) := none
  echo : Option Nat := none
  /-- violations to return, and the far end's section indications from `REPORT` -/
  farBei : Nat := 0
  farBdi : Bool := false
deriving DecidableEq, Repr

/-- Overhead, protection and bursts. -/
structure OverSt where
  secs : Tab SecSt := []
  /-- by container, 1,024 + stitch identifier for stitch members -/
  paths : Tab PathSt := []
  /-- receive groups by instance -/
  groups : Tab ProtSt := []
  /-- the group reported next in `PS_GROUP` -/
  psNext : Nat := 0
  /-- the 15-minute interval in progress -/
  interval : Nat := 0
  /-- received containers without a binding (R233) -/
  unbound : Nat := 0
  /-- what has come of chunks that run on into the next frame: by container, 1,024 + stitch identifier (R230, R388) -/
  cuts : Tab CutSt := []
  /-- chunks cut from received frames that wait for the decapsulator, oldest first -/
  chunks : List RxPiece := []
  hub : HubSt := {}
  leaf : LeafOwn := {}
deriving DecidableEq, Repr

end Sys2Proof.Machine
end

