-- ==== Sys2Proof/Machine/StateLine.lean ====
section
/-! DEFINITION. The state of the line side: converters, subcarriers, equalisers, framers, overhead, bursts (chapters 4 to 10). -/

namespace Sys2Proof.Machine

/-! ### Converters and calibration (R97 to R131) -/

/-- What is measured and alarmed at a converter (R107, R108). -/
structure ConvLvl where
  level : Int := 0
  peak : Nat := 0
  /-- clipped samples of the running second, of the last completed second, and since the core woke -/
  clipSec : Nat := 0
  clipLast : Nat := 0
  clipTotal : Nat := 0
  clipAlarm : Bool := false
  clipClear : Nat := 0
  lowAlarm : Bool := false
  lowClear : Nat := 0
  /-- when the alarm events were last raised -/
  clipAt : Option Nat := none
  lowAt : Option Nat := none
deriving DecidableEq, Repr

/-- What a converter's samples of the running level interval add up to: the sum of their squares, the largest magnitude, and how many are clipped
(R99, R107). -/
structure LevelSum where
  sq : Nat := 0
  peak : Nat := 0
  clips : Nat := 0
deriving DecidableEq, Repr

/-- What a laser bus transaction does (R114, R116, R117): a host write, a host read for a slot's command, or an automatic
correction of laser 0 (transmit) or 1 (local oscillator), with its step in kHz. -/
inductive LasKind where
  | write (commit : Nat) | read (slot serial : Nat) | correct (laser : Nat) (step : Int)
deriving DecidableEq, Repr

/-- A laser bus transaction. -/
structure LasTx where
  kind : LasKind
  addr : Nat
  wide : Bool
  ptr : Nat
  /-- bytes to write, or the count to read -/
  data : List Byte
  count : Nat
deriving DecidableEq, Repr

/-- A calibration set (R120): mode, temperature in 0.01 °C, time of the run, order of formation, retirement map (converter,
slice), twice the value of every quantity, and its body as a number (R129). -/
structure CalSet where
  full : Bool
  temp : Int
  sec : Nat
  order : Nat
  retired : List (Nat × Nat)
  vals : List CalConv
  body : Nat
deriving DecidableEq, Repr

/-- Coefficients in force (R121): each quantity as a fraction over twice a common denominator. -/
structure CalCoef where
  den : Nat
  vals : List CalConv
deriving DecidableEq, Repr

/-- Who started a calibration run (R122, R123, R127). -/
inductive CalKind where
  | auto | commanded | initial
deriving DecidableEq, Repr

/-- A calibration run, waiting for leave or in progress (R118 to R124). -/
structure CalRun where
  kind : CalKind
  started : Option Nat
  full : Bool
  startTemp : Int
  slot : Nat
  serial : Nat
  seq : Nat
  /-- which of up to 3 initial runs this is -/
  attempt : Nat
  /-- tolerances in force at the start: offset, gain, skew, bandwidth, linearity -/
  tol : List Nat
deriving DecidableEq, Repr

/-- The converter core's state beyond its mode (R97 to R131). -/
structure ConvSt where
  /-- `GAIN_Q` or `SWING_10MV` in force, by converter; unlisted: 0 dB, 600 mVppd -/
  setting : Tab Nat := []
  lvl : Tab ConvLvl := []
  /-- the device frame boundary at which the core's level intervals began, and the number of the last that ended (R107) -/
  lvlFrom : Nat := 0
  intervals : Nat := 0
  /-- what the DACs have sent in the running interval, by lane -/
  sent : List LevelSum := []
  /-- commits whose writes are on the front-end bus, with the counter value at which the last frame of each ends (R112) -/
  fe : List (Nat × Nat) := []
  /-- accumulated corrections of the two lasers in kHz, and when one was last written (R185) -/
  lasAcc : List Int := [0, 0]
  lasWritten : List Nat := [0, 0]
  /-- laser bus: the transaction on the bus and when it started, and those queued -/
  lasCur : Option LasTx := none
  lasSince : Nat := 0
  lasQueue : List LasTx := []
  sets : List CalSet := []
  nextOrder : Nat := 0
  run : Option CalRun := none
  /-- temperature reference (R122) in 0.01 °C; when the last run, or the core's wake, ended -/
  calRef : Int := 0
  calEnd : Nat := 0
  rejected : Nat := 0
  suspended : Bool := false
  /-- coefficients in force -/
  coef : Option CalCoef := none
  coefTemp : Int := 0
  /-- a changeover of coefficients waits for the next device frame boundary -/
  coefNext : Option CalCoef := none
  /-- the last accepted run's residual and ENOB estimates, by converter, in narrow mode (0) and in full mode (1) -/
  quality : Tab (List (Int × Nat × Nat)) := []
  /-- the samples that each DAC's pre-compensation still holds, by lane, oldest first (R10, R187) -/
  dacTail : List (List Int) := []
  /-- slices retired (converter, slice), and converters in the slice fault state (R125) -/
  retired : List (Nat × Nat) := []
  /-- `nextOrder` as the core went to sleep: later sets of a sleeping core are imported ones (R125) -/
  sleptOrder : Nat := 0
  fault : List Nat := []
deriving DecidableEq, Repr

/-! ### Subcarriers (R132 to R248) -/

/-- A line frame as it was sent: when its first symbol is at the last register before the DAC, in 10^-15 TC (R545); its subcarrier, `H_CODE`,
`CODE`, k and information bytes; its plan's `PLAN_ID` stands in the overhead's map of the plan in force (R225, R227). -/
structure LineFrame where
  start : Int
  sc : Nat
  h : Nat
  code : Nat
  k : Nat
  info : List Byte
deriving DecidableEq, Repr

/-- A symbol: its four components in units whose square is unit.1 / unit.2 of the mean power per polarisation. -/
structure Sym where
  xi : Int
  xq : Int
  yi : Int
  yq : Int
  unit : Nat × Nat
deriving DecidableEq, Repr

/-- The encoder of a subcarrier (R199, R205, R217): the frame before the one in the encoder, that frame, whose end waits for the matcher
bits of the next (R224), whether bits of it are inverted, with mantissa, exponent and the free draw that says which; the code's chain; and
the symbols of the frames and bursts encoded last, newest first, each stretch with when its first symbol is at the last register before the
DAC, in 10^-15 TC. -/
structure EncSc where
  prev : Option LineFrame := none
  cur : Option LineFrame := none
  inject : Option (Nat × Nat × Nat) := none
  chain : List (List Nat) := []
  sent : List (Int × List Sym) := []
deriving DecidableEq, Repr

/-- Sums over the pilots of one polarisation: received times conjugate of the known value, received power, and how many (R137). -/
structure PilotSum where
  s : Cx := {}
  e : Nat := 0
  n : Nat := 0
deriving DecidableEq, Repr

/-- A loading plan and its slot map: 17 entries as R227, none where no map is known (R146, R227). -/
structure Plan where
  id : Nat := 0
  h : Nat := 0
  code : Nat := 0
  map : Option (List Nat) := none
deriving DecidableEq, Repr

/-- A transmitting subcarrier's announcement state (R150). -/
inductive AnnState where
  | steady | announce | final
deriving DecidableEq, Repr

/-- The transmit side of a subcarrier (R148 to R150, R225): plan in force, announced plan, the committed change that waits and
its commit, retries, whether `RX_SEEN` named the next plan in this multiframe; the number of the device frame boundary of its first frame, that
frame's own number, and how many multiframe boundaries have passed. -/
structure TxSt where
  plan : Plan := { map := some [] }
  state : AnnState := .steady
  next : Plan := { map := some [] }
  pend : Option (Plan × Nat) := none
  /-- the commit whose change is announced -/
  commit : Nat := 0
  retries : Nat := 0
  seen : Bool := false
  start : Nat := 0
  first : Nat := 0
  mf : Nat := 0
deriving DecidableEq, Repr

/-- A receiving subcarrier's plan state (R151). -/
inductive RxState where
  | steady | pending | armed
deriving DecidableEq, Repr

/-- The receive side of a subcarrier's loading (R151, R152, R158): the plan in force, the shadow plan, the last beacon, stored
maps by `PLAN_ID`, the far end's report and its smoothed value in 2^-20 of 0.01 dB. -/
structure RxSt where
  plan : Option Plan := none
  state : RxState := .steady
  shadow : Plan := {}
  seen : Nat := 0
  beacon : Option Nat := none
  maps : Tab (List Nat) := []
  report : Nat := 0xFFFF
  smooth : Option Nat := none
  missed : Nat := 0
  lost : Nat := 0
deriving DecidableEq, Repr

/-- Pilot SNR of a subcarrier in 0.01 dB (R137 to R139, R155); the smoothed value in 2^-20 of that. -/
structure SnrSt where
  snr : Nat := 0
  x : Nat := 0
  y : Nat := 0
  smooth : Option Nat := none
  min : Option Nat := none
  valid : Bool := false
  low : Bool := false
  above : Nat := 0
  /-- the pilots of the running multiframe, X and Y, and whether convergence and frame have been held since it began -/
  sumX : PilotSum := {}
  sumY : PilotSum := {}
  whole : Bool := false
  /-- noise over signal power of each polarisation as fractions, from the last frame's pilots (R206) -/
  noise : Option ((Nat × Nat) × (Nat × Nat)) := none
deriving DecidableEq, Repr

/-- The equaliser states of a subcarrier (R190). -/
inductive EqState where
  | off | waitLine | preconv | grid | track
deriving DecidableEq, Repr

/-- Carrier recovery of a subcarrier (R182): the running estimate of the carrier's turn of X and of Y, the last pilot's, the sum of what each
pilot's turn advances on the one before, and the slips undone. -/
structure Carrier where
  est : Cx2 := {}
  pilot : Option Cx2 := none
  adv : Cx := {}
  slips : Nat := 0
deriving DecidableEq, Repr

/-- The equaliser of a subcarrier (R173 to R195). -/
structure EqSc where
  state : EqState := .off
  attempt : Nat := 0
  /-- the taps, those at the ends of the last frames, newest first, and those held for a warm start -/
  taps : Taps := {}
  hist : List Taps := []
  held : Option Taps := none
  /-- when the present state was entered, when `WAIT_LINE` was left -/
  since : Nat := 0
  left : Nat := 0
  /-- pilot position mod 64 found in the last frame (`GRID`) -/
  grid : Option Nat := none
  /-- consecutive frames below `CONV_MIN_SNR` -/
  low : Nat := 0
  /-- an episode of loss lasts: `EV_EQ_LOST` has been raised -/
  lost : Bool := false
  count : Nat := 0
  time : Nat := 0
  /-- peak SOP rotation rates of the last 100 windows, newest first; when the running window began, the alarm, and when a window
  last lay above the threshold -/
  sop : List Nat := []
  sopFrom : Nat := 0
  sopAlarm : Bool := false
  sopOver : Nat := 0
  sopAt : Option Nat := none
  /-- the peak SOP rotation rate of the running window -/
  sopPeak : Nat := 0
  dgd : Nat := 0
  pdl : Nat := 0
  cdRes : Int := 0
  /-- carrier recovery, its residual frequency in kHz, and where the mixing of the subcarrier stands: the TC at which the codes of the last
  frame began, its turn there in 1/320,000,000, and its frequency in kHz -/
  car : Carrier := {}
  freqKhz : Int := 0
  mixAt : Option Int := none
  mixTurn : Nat := 0
  mixKhz : Int := 0
  /-- the symbol-rate estimate in 0.1 ppt (R179); when the last frame arrived, in 10^-15 TC, and when the one that began the running
  multiframe's measurement did, and whether an estimate has been formed before -/
  rateFine : Int := 0
  arrived : Option Int := none
  rateFrom : Option (Int × Bool) := none
  /-- the modulus error of the last frame of a `PRECONV` attempt (R190) -/
  modErr : Option Nat := none
  slips : Nat := 0
  slipsSaid : Recent := {}
deriving DecidableEq, Repr

/-- The decoder of a subcarrier (R204 to R217). -/
structure FecSc where
  decoding : Bool := false
  /-- the next decoded frame is the first after a start (R210) -/
  first : Bool := true
  coded : Nat := 0
  corrected : Nat := 0
  outerCorrected : Nat := 0
  outerFailed : Nat := 0
  uncorr : Nat := 0
  frames : Nat := 0
  /-- the running window: coded and corrected bits, and its threshold -/
  winCoded : Nat := 0
  winCorrected : Nat := 0
  winMant : Nat := 12
  winExp : Nat := 2
  winFrom : Nat := 0
  ber : Nat := 0xFFFF
  sdAlarm : Bool := false
  sdClear : Nat := 0
  uncorrSaid : Recent := {}
  /-- soft values of the two positions before, newest first; none where they are erased (R201, R210) -/
  hist : List (List (List Int)) := []
  /-- amplitudes of the block that straddles the end of the last frame, each with its mark (R141, R224) -/
  tail : List (Nat × Bool) := []
deriving DecidableEq, Repr

/-- The aligner states (R238). -/
inductive AlignState where
  | wait | search | inFrame
deriving DecidableEq, Repr

/-- What the decoder makes of a frame (R212, R214): its coded bits with their marks, those of the first position after it, the history,
and its findings: bits changed, outer codewords corrected and failed, and whether a row of the short position is left unsatisfied. -/
structure RxDecoded where
  slots : List (Bool × Bool)
  after : List (Bool × Bool)
  hist : List (List (List Int))
  corrected : Nat
  outerCorr : Nat
  outerFail : Nat
  unsat : Bool
deriving DecidableEq, Repr

/-- A frame's information bytes, its payload area's marked ones by position, and the amplitudes of the block that straddles its end. -/
structure RxInfo where
  oh : List Byte
  payload : List Byte
  marks : List Nat
  tail : List (Nat × Bool)
deriving DecidableEq, Repr

/-- A decoded frame before it is counted and delivered: when it came, its plan, its index while the phase is known, whether it is the first
after a start or ends at a change to fast mode, what the decoder found, and its contents. -/
structure TakenFrame where
  cnt : Nat
  cfr : Nat
  plan : Plan
  phase : Bool
  k : Option Nat
  first : Bool
  due : Bool
  found : RxDecoded
  info : RxInfo
deriving DecidableEq, Repr

/-- The aligner of a subcarrier (R236 to R245): candidates by symbol position and swap. -/
structure FrSc where
  state : AlignState := .wait
  cands : List (Nat × Bool) := []
  phase : Bool := false
  /-- quarter turns of X and of Y, and whether the outputs are swapped -/
  rotation : Nat := 0
  rotY : Nat := 0
  swapped : Bool := false
  mfi : Nat := 0
  /-- k of the last frame received, while known, and marks wrong in succession -/
  k : Option Nat := none
  markMiss : Nat := 0
  misses : Nat := 0
  /-- the frame boundary in symbols modulo 87,500, and whether the phase was lost and is to be taken again -/
  pos : Nat := 0
  retake : Bool := false
  /-- since when it is out of `IN_FRAME`, and since when in it with the phase known -/
  outSince : Nat := 0
  inSince : Option Nat := none
  oof : Nat := 0
  falseCands : Nat := 0
  ohErrors : Nat := 0
  ohSaid : Recent := {}
  notDelivered : Nat := 0
  mapMismatch : Nat := 0
  slips : Nat := 0
  /-- facility loopback: the payload area in its store, and whether it has been sent -/
  loop : List (List Byte) := []
  looped : Bool := false
  /-- the last good overhead -/
  oh : List Byte := []
  /-- the last frame, while its beacon names another plan and the next frame's decides whether it is lost (R152, R213) -/
  held : Option TakenFrame := none
deriving DecidableEq, Repr

/-- A subcarrier tile. -/
structure ScSt where
  tx : TxSt := {}
  enc : EncSc := {}
  rx : RxSt := {}
  snr : SnrSt := {}
  eq : EqSc := {}
  fec : FecSc := {}
  fr : FrSc := {}
deriving DecidableEq, Repr

/-- The line states (R189). -/
inductive LineState where
  | idle | noSignal | freqAcq | locked
deriving DecidableEq, Repr

/-- A dispersion scan (R172). -/
structure ScanSt where
  min : Int
  max : Int
  step : Nat
  startAt : Nat
  noSignal : Bool
  slot : Nat
  serial : Nat
  seq : Nat
deriving DecidableEq, Repr

/-- The line as a whole (R163 to R195). -/
structure LineSt where
  state : LineState := .idle
  /-- the signal is present; consecutive intervals with an ADC below `SIG_MIN` -/
  signal : Bool := false
  below : Nat := 0
  /-- `EV_FREQ_RANGE` has been raised in this episode -/
  rangeEv : Bool := false
  /-- a subcarrier has reached `TRACK` since the line locked; since when none is in it -/
  reached : Bool := false
  outSince : Nat := 0
  /-- dispersion class in force, the settings it aims at, and the values applied: at the reference frequency, by tile -/
  cls : Nat := 0
  cd : Int := 0
  slope : Int := 0
  cdApplied : Int := 0
  cdTiles : List Int := [0, 0, 0, 0]
  freqOffset : Option Int := none
  rateOffset : Option Int := none
  /-- far end's `FREQ_REPORT`; on a leaf the hub's measurement -/
  farReport : Option Int := none
  iqGainX : Int := 0
  iqGainY : Int := 0
  iqPhaseX : Int := 0
  iqPhaseY : Int := 0
  skews : List Int := [0, 0, 0, 0]
  /-- the DC offset removed of each lane, in 2^-16 LSB, and the mean power that normalisation divides by, of X and of Y (R163) -/
  dc : List Int := [0, 0, 0, 0]
  norm : List Nat := []
  corrections : Nat := 0
  /-- when each laser's dwell window began, and what has been measured of its offset since, in kHz with the instant, newest first: transmit,
  local oscillator (R185) -/
  dwell : List Nat := [0, 0]
  offs : List (List (Nat × Int)) := [[], []]
  /-- the laser position breaks R156, and the event has been raised -/
  loRange : Bool := false
  /-- `EV_CD_RESIDUAL` may be raised -/
  cdArmed : Bool := true
  scan : Option ScanSt := none
  scanEst : Int := 0
  scanValid : Bool := false
  scanPeak : Nat := 0
  scanCands : Nat := 0
  /-- a class change waits for this subcarrier's receive frame boundary (R171) -/
  clsWait : Option Nat := none
  /-- the counter value at which the class last changed (R28) -/
  clsAt : Option Nat := none
deriving DecidableEq, Repr

/-- A container in one direction (R229 to R246): its counters, the next `PFN`, the packets to send with their headers and the bytes
of the first one that have been sent, chunks held for a relay, and what the decapsulator holds of the packet in progress. -/
structure ContSt where
  frames : Nat := 0
  bytes : Nat := 0
  stomped : Nat := 0
  delin : Nat := 0
  chunkErrors : Nat := 0
  pfnJumps : Nat := 0
  slips : Nat := 0
  lastPfn : Nat := 0
  pfn : Nat := 0
  out : List (List Byte) := []
  sent : Nat := 0
  /-- chunks held for transmission by a relay, and whether its store has been started -/
  relay : List Chunk := []
  relaying : Bool := false
  /-- the TC count at which the relay store was started, and how many chunks have entered it since (R234) -/
  relayFrom : Int := 0
  relayIn : Nat := 0
  /-- path entry parity of the last chunk sent -/
  bip4 : Nat := 0
  /-- the stream position is held: header or frame bytes of the packet in progress, how many bytes of the frame are missing, and
  whether one of them is marked -/
  sync : Bool := false
  part : List Byte := []
  need : Nat := 0
  marked : Bool := false
  /-- `PFN` of the last chunk received -/
  rxPfn : Option Nat := none
  delinAt : Option Nat := none
deriving DecidableEq, Repr

end Sys2Proof.Machine
end

