-- ==== Sys2Proof/Machine/StatePkt.lean ====
section
/-! DEFINITION. The state of the packet engine, the queues, the memories and the crypto contexts (chapters 14 to 16). -/

namespace Sys2Proof.Machine

/-! ### Rule generations (R398 to R421) -/

/-- A selection entry (R400). -/
structure SelEntry where
  rx : Bool
  pass : Nat
  tags : Nat
  profile : Nat
  etype : Nat
  mask : Nat
  ports : Nat
deriving DecidableEq, Repr

/-- An extractor (R401). -/
structure Extractor where
  off : Nat
  len : Nat
  mask : Nat
deriving DecidableEq, Repr

/-- A parse profile (R401). -/
structure Profile where
  /-- 0 none, 1 IPv4, 2 IPv6 -/
  l3 : Nat
  udp : Bool
  /-- 0 none, 1 over Ethernet, 2 over UDP -/
  ecpri : Nat
  lenCheck : Bool
  exts : List Extractor
  express : Bool
  /-- 0xFFFF: exception -/
  miss : Nat
deriving DecidableEq, Repr

/-- An entry of the exact-match table, its key with zeros to 48 bytes (R406). -/
structure ClassEntry where
  rx : Bool
  profile : Nat
  key : List Byte
  flow : Nat
deriving DecidableEq, Repr

/-- An express key entry (R408). -/
structure ExpressEntry where
  profile : Nat
  flow : Nat
  key8 : List Byte
  mask8 : List Byte
deriving DecidableEq, Repr

/-- A flow action (R411); one that was never set drops. -/
structure FlowAct where
  queue : Nat := 0
  dest : Nat := 0
  crypt : Nat := 0
  verified : Bool := false
  recirc : Nat := 0
  ctx : Nat := 0
  decapOff : Nat := 0
  decapLen : Nat := 0
  stampMode : Nat := 0
  stampId : Nat := 0
deriving DecidableEq, Repr

/-- A generation of rules for both directions (R417): selection entries and profiles by index, express entries by 256 × direction +
index, actions by flow, exception queues by 8 × direction + class. -/
structure RuleGen where
  gen : Nat := 0
  sel : Tab (Option SelEntry) := []
  prof : Tab (Option Profile) := []
  table : List ClassEntry := []
  /-- the number of the hash key in use, and the flow of the entry in each cell, by 16,384 × way + 4 × bucket + place (R406, R407) -/
  hashKey : Nat := 0
  cells : Tab (Option Nat) := []
  express : Tab (Option ExpressEntry) := []
  acts : Tab FlowAct := []
  exc : Tab (Option Nat) := []
  tpid3 : Nat := 0x9100
  ecpriPort : Nat := 0
deriving DecidableEq, Repr

/-! ### Packets -/

/-- Where a packet came from (R410). -/
inductive PktSrc where
  | port (p : Nat) | cont (c : Nat) | leaf (n : Nat)
deriving DecidableEq, Repr

/-- What the flow action saw of an IEEE 1588 event message (R328): where it stands, whether over UDP with IPv4 or IPv6,
`messageType` and `sequenceId`. -/
structure PtpInfo where
  off : Nat
  v4 : Bool
  v6 : Bool
  type : Nat
  seq : Nat
deriving DecidableEq, Repr

/-- A packet in the engine: the frame from its destination address to its FCS, whether it leaves with a stomped FCS (R233, R463),
the failed verdict of a tag (R465), the ingress time in 2^-16 ns while it may still be used, and what its last flow action asked of
the egress (R328). -/
structure Pkt where
  frame : List Byte
  stomp : Bool := false
  failed : Bool := false
  arr : Option Int := none
  keep : Option Int := none
  mode : Nat := 0
  id : Nat := 0
  ptp : Option PtpInfo := none
deriving DecidableEq, Repr

/-- A packet in a queue, and whether it lies in HBM (R430). -/
structure QPkt where
  pkt : Pkt
  hbm : Bool
deriving DecidableEq, Repr

/-- A queue (R427 to R447): its packets, oldest first, the bytes of its first HBM page already drained, its deficit, its counters,
and whether it has reached `HIGH_PCT` without falling below half of it since (DESIGN CHOICE, assumption 165). -/
structure QueueSt where
  /-- the queue has been enabled -/
  on : Bool := false
  items : List QPkt := []
  drained : Nat := 0
  /-- the stack of each HBM page held, oldest first (R431) -/
  pages : List Nat := []
  deficit : Nat := 0
  high : Bool := false
  enq : Nat := 0
  deq : Nat := 0
  deqBytes : Nat := 0
  dropLimit : Nat := 0
  dropNoSpace : Nat := 0
  dropBw : Nat := 0
  dropOther : Nat := 0
  waits : Nat := 0
deriving DecidableEq, Repr

/-- A packet held in the verified-release store (R466): its direction and source, its pass, generation and flow action, what comes of
it, and whether its tag passed. -/
structure HeldPkt where
  rx : Bool
  src : PktSrc
  pass : Nat
  gen : Nat
  flow : Nat
  act : FlowAct
  pkt : Pkt
  /-- slot and packet number of the pass, for the replay state -/
  an : Nat
  pn : Nat
  good : Bool
deriving DecidableEq, Repr

/-- The packet engine and the queues. -/
structure PktSt where
  active : RuleGen := {}
  former : Option RuleGen := none
  /-- the staged generation and the session that owns it (R417) -/
  staged : Option (Nat × RuleGen) := none
  /-- packets and bytes by flow (R414) -/
  flows : Tab (Nat × Nat) := []
  /-- exceptions by 8 × direction + class (R415) -/
  excs : Tab Nat := []
  ctrlDrops : Nat := 0
  /-- the controller intake, oldest first (R413) -/
  ctrlIn : List (Option Nat × List Byte) := []
  /-- packets spread to each pipeline, and where each direction's round robin stands (R409) -/
  spread : Tab Nat := []
  turn : List Nat := [0, 0]
  /-- how many packets wait in each direction's intake, and the packet cycle of that (R409) -/
  intake : List (Nat × Nat) := [(0, 0), (0, 0)]
  /-- pages that each scheduler has taken, and packets dropped for a word in error by memory (R431, R440) -/
  paged : List Nat := [0, 0]
  hitDrops : Tab Nat := []
  /-- `PIPE_OVERRUN` of transmit and receive -/
  overrun : List Nat := [0, 0]
  queues : Tab QueueSt := []
  /-- the queue whose turn it is in the round robin, by 8 × destination + priority -/
  robin : Tab Nat := []
  /-- packets in the verified-release store, oldest first -/
  held : List HeldPkt := []
  /-- events held to one per second -/
  epis : Tab Recent := []
deriving DecidableEq, Repr

/-! ### Memories (R432 to R451) -/

/-- The check bits of a stored line or word: those of its data; those that were written with it (R444); or bits that show it
uncorrectable. -/
inductive CheckBits where
  | own | given (c : Nat) | bad
deriving DecidableEq, Repr

/-- A stored line of 64 bytes or word of 8: its data as a number, first byte lowest, and its check bits (R437). -/
structure MemLine where
  data : Nat
  check : CheckBits
deriving DecidableEq, Repr

/-- A stretch of HBM lines filled with a pattern of 8 bytes (R451): first line, count, pattern. A pattern of 2^64 and above stands for
samples that a capture run has written: their values are free (R513, assumption 1). -/
structure FillSpan where
  first : Nat
  count : Nat
  pattern : Nat
deriving DecidableEq, Repr

/-- A remap entry: the line or word redirected, and whether its copy is done (R443). -/
structure RemapEnt where
  addr : Nat
  done : Bool
deriving DecidableEq, Repr

/-- One memory: HBM stack or on-die store (R437 to R443). -/
structure MemSt where
  corrected : Nat := 0
  uncorr : Nat := 0
  lastAddr : Nat := 0
  rmw : Nat := 0
  remap : Tab (Option RemapEnt) := []
  passes : Nat := 0
  /-- a pass runs: when it began and the number of its next burst -/
  running : Bool := false
  passFrom : Nat := 0
  burst : Nat := 0
  /-- a burst waits for leave or is in progress; a refused one waits for the next `POWER.BUDGET` commit (R484) -/
  waiting : Bool := false
  refused : Bool := false
  /-- lines corrected in this pass and in the one before (R442) -/
  fixed : List Nat := []
  before : List Nat := []
deriving DecidableEq, Repr

/-- A fill in progress (R451): region, pattern, its next MiB and its end, the operation it answers. -/
structure FillSt where
  region : Nat
  pattern : Nat
  next : Nat
  last : Nat
  slot : Nat
  serial : Nat
  seq : Nat
  /-- the burst in progress has leave since then -/
  started : Option Nat
deriving DecidableEq, Repr

/-- HBM, on-die stores and their protection. -/
structure MemAll where
  /-- lines of HBM by number that differ from what the fills left; none: never written -/
  lines : Tab (Option MemLine) := []
  /-- fills, the latest first -/
  fills : List FillSpan := []
  /-- test words by 8 × store + word (R440, R444) -/
  words : Tab MemLine := []
  /-- memories: 0, 1 HBM stacks; 2 + n `sram[n]` -/
  mems : Tab MemSt := []
  /-- regions whose `FILLED` is 1 -/
  filled : List Nat := []
  fill : Option FillSt := none
  /-- next trap record, in bytes from the region's base, and its `TRAP_SEQ` -/
  trapOff : Nat := 0
  trapSeq : Nat := 0
  /-- bursts with leave, 0 and 1 of the scrubbers and 2 of a fill, with what is left of each in sixths of a byte, and the instant of that (R441) -/
  bursts : List (Nat × Nat) := []
  burstAt : Nat := 0
  /-- the running window of 1 µs and the bytes that each user has taken in it (R435, R436) -/
  window : Nat := 0
  taken : Tab Nat := []
deriving DecidableEq, Repr

/-! ### Crypto contexts and the thimble (R459 to R474) -/

/-- The states of a key slot (R461). -/
inductive KeyState where
  | empty | loaded | active | retired
deriving DecidableEq, Repr

/-- A key slot: `pn` is the next packet number of an encrypt context, the highest accepted one of a decrypt context; `seen` are the
accepted numbers within the window. -/
structure KeySlot where
  state : KeyState := .empty
  key : List Byte := []
  salt : List Byte := []
  ssci : Nat := 0
  pn : Nat := 0
  ceiling : Nat := 0
  seen : List Nat := []
  /-- order of loading in the context; a packet has passed with it; the warning was given -/
  order : Nat := 0
  good : Bool := false
  warned : Bool := false
deriving DecidableEq, Repr

/-- A crypto context beyond its configuration. -/
structure CtxSt where
  slots : Tab KeySlot := []
  loads : Nat := 0
  quarantined : Bool := false
  lost : Bool := false
  tagFail : Nat := 0
  noKey : Nat := 0
  format : Nat := 0
  len : Nat := 0
  ceiling : Nat := 0
  replay : Nat := 0
  quar : Nat := 0
  /-- tag failures of a second of device time, that second, and the direction of the last one (R465, R466) -/
  failSec : Nat := 0
  failNo : Nat := 0
  failRx : Bool := false
  /-- when older slots retire, and the order below which they do (R467) -/
  holds : List (Nat × Nat) := []
deriving DecidableEq, Repr

/-- A bulk key load that waits for leave or unwraps (R472). -/
structure BulkLoad where
  id : Nat
  bytes : List Byte
  slot : Nat
  serial : Nat
  seq : Nat
  started : Option Nat
deriving DecidableEq, Repr

/-- The thimble and the crypto contexts. -/
structure CryptAll where
  ctxs : Tab CtxSt := []
  /-- the packet cycle up to which each core ciphers (R454) -/
  cores : Tab Nat := []
  alarm : Bool := false
  /-- sources seen, and sources whose condition holds -/
  seen : List Nat := []
  live : List Nat := []
  /-- key-encryption keys exist -/
  keks : Bool := false
  overrun : Nat := 0
  vrDrops : Nat := 0
  bulks : List BulkLoad := []
  nextBulk : Nat := 0
deriving DecidableEq, Repr

end Sys2Proof.Machine
end

