-- ==== Sys2Proof/Machine/StateRef.lean ====
section
/-! DEFINITION. The state of references, loops, holdover and pulse outputs (chapter 12). -/

namespace Sys2Proof.Machine

/-- The states of a reference (R352). -/
inductive RefState where
  | off | failed | qualifying | wtr | available
deriving DecidableEq, Repr

/-- A reference: its state, `FAIL_CAUSE`, when its loss started, whether it failed since its enable, when its timer ends, its
measured frequency in ppt and time offset in 2^-16 ns, and what a GNSS input keeps of pulses and ToD messages (R347, R348, R352, R372). -/
structure RefIn where
  state : RefState := .off
  cause : Nat := 0
  lossStart : Nat := 0
  failed : Bool := false
  due : Nat := 0
  freq : Int := 0
  time : Option Int := none
  failures : Nat := 0
  todErrors : Nat := 0
  /-- the last accepted second; the second that a message gave the edge after it; whether a message was accepted since the last
  edge; edges without one, and misplaced edges, in succession -/
  todLast : Option Nat := none
  todNext : Option Nat := none
  gotMsg : Bool := false
  noMsg : Nat := 0
  misplaced : Nat := 0
  /-- of a GNSS input: since when it has been without an edge in its place; where in TC the last one lay and the TC of its second, once
  two have come, in 10^-15 TC (R347) -/
  since : Nat := 0
  grid : Option Int := none
  period : Option Int := none
deriving DecidableEq, Repr

/-- The loop states (R356). -/
inductive SyncState where
  | freeRun | acquiring | locked | switching | holdover
deriving DecidableEq, Repr

/-- A running switch: the old and the new reference, and the decision's instant (R354). -/
structure RefSwitch where
  old : Option Nat
  new : Nat
  start : Nat
deriving DecidableEq, Repr

/-- The oscillator model (R360, R361, R364): coefficients in 10^-18, `T0` in 0.01 °C, seconds of learning, the temperature span met,
whether it was imported, seconds of learning since, and the instant from which age counts. -/
structure OscModel where
  valid : Bool := false
  t0 : Int := 0
  c0 : Int := 0
  c1 : Int := 0
  c2 : Int := 0
  c3 : Int := 0
  c4 : Int := 0
  learned : Nat := 0
  span : Option (Int × Int) := none
  imported : Bool := false
  relearn : Nat := 0
  c0From : Nat := 0
  /-- the weighted sums of the fit in 2^-32: by term, its products with each term and with the error in 10^-18 (R361) -/
  sums : List (List Int) := []
deriving DecidableEq, Repr

/-- What holdover started from (R362): `y_entry` in 1e-15, temperature in 0.01 °C, its rate in 0.01 °C/h, and age in AC cycles. -/
structure HoEntry where
  y : Int := 0
  th : Int := 0
  dth : Int := 0
  age : Nat := 0
deriving DecidableEq, Repr

/-- An output (R365): of a pulse `ALIGN` and `OFFSET` in force, the last pulse, and boundaries counted towards the next. -/
structure OutPin where
  align : Nat := 0
  offset : Int := 0
  last : Option Int := none
  count : Nat := 0
  /-- the frequency code that `CLK_OUT` sends, while it runs -/
  clk : Option Nat := none
deriving DecidableEq, Repr

/-- What an unlisted reference holds: `LOCAL` is always available (R352). -/
def refDefault (k : Nat) : RefIn := if k = 6 then { state := .available } else {}

/-- References, loops, holdover, outputs. -/
structure RefSt where
  ins : Tab RefIn := []
  sync : SyncState := .freeRun
  selected : Option Nat := none
  /-- S in 1e-15 and when it was last moved -/
  s : Int := 0
  sAt : Nat := 0
  /-- frequency build-out in ps, time build-out in 2^-16 ns and when it was last reduced -/
  buildFreq : Int := 0
  buildTime : Int := 0
  sw : Option RefSwitch := none
  /-- committed values that wait for the end of the switch (R355) -/
  held : List FieldVal := []
  /-- the commits that they belong to -/
  heldBy : List Nat := []
  alarm : Bool := false
  entry : HoEntry := {}
  /-- the oscillator errors measured over the last `HO_AVG_S`, newest first, with their instants, in 1e-15 (R362) -/
  errs : List (Nat × Int) := []
  /-- the last entry into `LOCKED`, and how long that stay was once it is over -/
  lockedAt : Nat := 0
  lockedFor : Nat := 0
  /-- since when the conditions for `LOCKED` hold -/
  goodFrom : Option Nat := none
  /-- when selection is next evaluated -/
  evalAt : Nat := 25000
  hoFrom : Nat := 0
  hoLast : Nat := 0
  switches : Nat := 0
  outQl : Nat := 6
  model : OscModel := {}
  /-- when the next 60 s average ends -/
  learnAt : Nat := 0
  /-- `OSC_TEMP` and th in 0.01 °C, dth in 0.01 °C/h, readings of the last 10 min, newest first -/
  temp : Int := 0
  dth : Int := 0
  temps : List (Nat × Int) := []
  thermFault : Bool := false
  /-- device time up to which pulses have been placed, and the outputs -/
  swept : Int := 0
  outs : Tab OutPin := []
  /-- when the boundary clock next sends, and whether the next interval carries Announce -/
  ptpAt : Nat := 0
  ptpAnnounce : Bool := true
  /-- the boundary clock's port in the slave state, as the firmware last chose it -/
  ptpSlave : Option Nat := none
deriving DecidableEq, Repr

end Sys2Proof.Machine
end

