-- ==== Sys2Proof/Machine/State.lean ====
section
/-! DEFINITION. The state of the block: everything the spec gives it, as plain data, and its value after reset. A field's value
in its structure is its reset value. Times are counts of AC cycles of 40 ns (R5, R318). -/

namespace Sys2Proof.Machine

/-! ### Bobbins, sessions and interrupts (R29 to R63) -/

/-- One stage of a bobbin: the item's bytes, its sequence number, its priority, and whether time was established at it (R36,
R37, R322) (DESIGN CHOICE, assumption 65). -/
structure BItem where
  bits : Item
  seq : Nat
  prio : Nat
  /-- time was established when the item was produced (R322) -/
  est : Bool
deriving DecidableEq, Repr

/-- Which item a presentation window presents: the read log's item at the read position, or the unread item at an index (R37). -/
inductive Presented where
  | log | unread (i : Nat)
deriving DecidableEq, Repr

/-- A bobbin that the host consumes: unread items in order of arrival, the read log of held items, the read position, the mark
and the presented item (R36 to R38). -/
structure Bobbin where
  unread : List BItem := []
  log : List BItem := []
  pos : Nat := 0
  mark : Option Nat := none
  presented : Option Presented := none
deriving DecidableEq, Repr

/-- A command item in a command bobbin, and whether its `SEQ` was held when it was rung (R41, R52). -/
structure CmdEntry where
  item : Item
  seqHeld : Bool
deriving DecidableEq, Repr

/-- One patch entry of the basting area: the owning session slot (for a coordinator's, 8 + 8 × `OP_ID` + the origin slot), the patch that
holds it and the staged fields (R68 to R70). -/
structure Entry where
  owner : Nat
  patch : Patch
  vals : List FieldVal
deriving DecidableEq, Repr

/-- A forwarded command (R82): the devices that owe an `RSP`, those that have accepted it, the deadline, the first failing status so far,
and for a group's read each device's combined results, with the counts of members read and not read and the members' snapshot
times (R66, R67). -/
structure FwdWait where
  devs : List Nat := []
  done : List Nat := []
  deadline : Nat := 0
  status : Nat := 0
  groupRead : Bool := false
  acc : List (Nat × Nat) := []
  len : Nat := 0
  read : Nat := 0
  notRead : Nat := 0
  mixed : Bool := false
  times : List QTime := []
  /-- the `OP_ID` and the stream, where the command stages (R87, R92) -/
  op : Nat := 0
  stream : Option (List Byte) := none
  /-- the session's staging before the command, which stands again where a member refuses (R66) -/
  before : List Entry := []
  /-- what devices wrote to the command's host-memory buffer, and its descriptors (R51) -/
  bufs : List (Nat × List Byte) := []
  descs : List Item16 := []
deriving DecidableEq, Repr

/-- Why a command that the controller has taken has no response yet (R49). -/
inductive Waiting where
  /-- `SESSION.PROVE` waiting under R47 -/
  | prove
  /-- a local commit of `MODE` 0 waiting for its boundary (R74), by the model's commit number -/
  | commit (id : Nat)
  /-- a forwarded command (R82) -/
  | forward (w : FwdWait)
  /-- `CONV.FE_READ` waiting behind commit writes (R113) -/
  | feRead (target addr : Nat)
  /-- `CONV.LAS_READ` in the laser bus queue (R117) -/
  | lasRead
  /-- `SYS.RESET` of units, at the next device frame boundary (R526) -/
  | unitReset
  /-- `FW.LOAD` with `LAST`, until the check ends (R523) -/
  | fwCheck
deriving DecidableEq, Repr

/-- A command taken by the controller and not yet answered (R49, R52). -/
structure Taken where
  item : Item
  why : Waiting
deriving DecidableEq, Repr

/-- One of the session's accepted operations (R57). -/
structure OpRec where
  seq : Nat
  code : Nat
  status : Status
deriving DecidableEq, Repr

/-- The group-read record (R67, R78). -/
structure GroupRec where
  read : Nat := 0
  notRead : Nat := 0
  mixed : Bool := false
  oldest : QTime := ⟨0, 0⟩
  newest : QTime := ⟨0, 0⟩
deriving DecidableEq, Repr

/-- A session slot (R31, R44 to R49, R57). -/
structure Slot where
  tag : BitVec 16 := 0
  state : SlotState := .free
  role : SessRole := .none
  /-- `CREDITS_GRANTED` -/
  credits : Nat := 0
  releaseErr : Bool := false
  doorbellLost : Bool := false
  closeReason : Nat := 0
  cmdItem : Item := 0
  /-- the command bobbin, in `RING` order -/
  cmds : List CmdEntry := []
  taken : Option Taken := none
  rsp : Bobbin := {}
  /-- when the slot was claimed, closed, last rung, and when the `SESSION.OPEN` response was produced -/
  claimedAt : Nat := 0
  closedAt : Nat := 0
  lastRing : Nat := 0
  /-- a `RING` has come since the slot was claimed -/
  rung : Bool := false
  openedAt : Nat := 0
  devNonce : BitVec 128 := 0
  hostNonce : BitVec 128 := 0
  reqRole : SessRole := .none
  /-- K of the role asked for, as at `SESSION.OPEN` (R45, R57) -/
  key : List Byte := []
  reqCredits : Nat := 0
  /-- `IDLE_TIMEOUT` in seconds -/
  idleTimeout : Nat := 0
  /-- the model's number of the session, so that an operation outliving its session is not another session's -/
  serial : Nat := 0
  /-- accepted operations, newest first, at most 32 -/
  ops : List OpRec := []
  groupRec : GroupRec := {}
deriving DecidableEq, Repr

/-- The event bobbin and its loss accounting (R32, R58, R62). -/
structure EvtSt where
  bob : Bobbin := {}
  nextSeq : Nat := 0
  /-- `EVT_LOST` -/
  lost : Nat := 0
  owner : Option Nat := none
  /-- `ITEM_SEQ` of the `EV_EVENT_OVERFLOW` in the kept stage while its episode lasts -/
  overflow : Option Nat := none
deriving DecidableEq, Repr

/-- The time-stamp bobbin and its loss accounting (R32, R63, R332). -/
structure StampSt where
  bob : Bobbin := {}
  nextSeq : Nat := 0
  /-- `STAMP_LOST` -/
  lost : Nat := 0
  owner : Option Nat := none
  /-- an overflow episode lasts (R332) -/
  overflow : Bool := false
deriving DecidableEq, Repr

/-- Interrupt vectors and the attention output (R30, R42, R43) (PRESUMED, assumption 7). -/
structure IrqSt where
  /-- the word at 0x0014 without its reserved bits -/
  attn : Word32 := 0
  armed : BitVec 16 := 0
  /-- `STAGE` has changed since vector 0 was last armed -/
  stageChanged : Bool := false
  /-- the 64 words of the MSI-X table, by word number -/
  table : Tab Word32 := []
  /-- pending bits of masked vectors -/
  pba : BitVec 16 := 0
  /-- the GPIO driven as the attention output and its level -/
  pin : Option (Nat × Bool) := none
deriving DecidableEq, Repr

/-- Sessions, mailboxes and events. -/
structure CtlSt where
  slots : Tab Slot := []
  evt : EvtSt := {}
  stamp : StampSt := {}
  irq : IrqSt := {}
  /-- the slot the controller served last, for the round robin of R52 -/
  lastServed : Nat := 7
  /-- consecutive proof failures n, and when the last one fell (R47) -/
  authFails : Nat := 0
  lastFail : Nat := 0
  /-- the last session number given -/
  serial : Nat := 0
  pcie : PcieState := .down
deriving DecidableEq, Repr

/-! ### Staging, commits and snapshots (R64 to R78, R567) -/

/-- How far an accepted commit has come (R73, R75). -/
inductive CommitPhase where
  /-- validated, waiting for its first boundary -/
  | waiting
  /-- part-way: device boundary applied, receive boundaries of these subcarriers outstanding, and announcements to start -/
  | partway (rx : List Nat) (tx : List Nat)
  /-- applied; its final status waits for wakes or announced switches -/
  | ending
deriving DecidableEq, Repr

/-- A validated commit that has not ended (R71 to R75, R482). -/
structure PCommit where
  id : Nat
  slot : Nat
  serial : Nat
  seq : Nat
  code : Nat
  timed : Bool
  /-- the apply point: a counter value, or T as a device time in 2^-16 ns -/
  applyAt : Nat
  t : Option Nat
  entries : List Entry
  /-- `OP_ID` and `NEW_GEN` of a quilt commit, and its `POLICY` -/
  quilt : Option (Nat × Nat)
  policy : Nat := 0
  phase : CommitPhase
  /-- `ACCEPTED` has been answered -/
  answered : Bool
  /-- wakes not yet ended -/
  wakes : List PowerUnit
  /-- subcarriers whose announced switch the final status waits for -/
  loads : List Nat
  /-- what the commit waits for before it counts as applied: 0 its front-end writes, 1 its laser writes, 2 the end of a reference switch
  (R112, R117, R355) -/
  buses : List Nat
  /-- failures so far: the wake order of the unit and its status -/
  fails : List (Nat × Status)
  /-- the generation of rules that the commit makes active (R418) -/
  rules : Option RuleGen := none
  /-- `EV_COMMIT_REFUSED` has been raised for it (R570) -/
  told : Bool := false
deriving DecidableEq, Repr

/-- Committed configuration, basting area and commits. -/
structure CfgSt where
  /-- the committed configuration, by `Fld.key` -/
  cfg : Tab Nat := []
  staged : List Entry := []
  commits : List PCommit := []
  nextCommit : Nat := 0
  cfgGen : Nat := 0
  quiltGen : Nat := 0
  snapGen : Nat := 0
  snapTime : QTime := ⟨0, 0⟩
deriving DecidableEq, Repr

/-! ### The quilt (R79 to R93) -/

/-- A message waiting to be sent on a link (R83, R87): its class, whether it has been started, and its remaining cells. -/
structure TxMsg where
  cls : Nat
  started : Bool
  cells : List (List Byte)
deriving DecidableEq, Repr

/-- A neighbour on a link, from its last `HELLO` (R80, R86). `dup`: it shares its number with another device (R81). -/
structure NbrSt where
  dist : Nat
  lastHello : Nat
  gen : Nat
  detached : Bool
  isCoord : Bool
  subtree : Nat
  depth : Nat
  dup : Bool := false
  /-- at a hub: the leaf in whose bursts it is heard -/
  leaf : Option Nat := none
deriving DecidableEq, Repr

/-- What a device keeps of one link (R83, R84). -/
structure LinkSt where
  /-- `CELL_SEQ` of the last valid cell received and sent, and the message being assembled -/
  rxSeq : Option Nat := none
  txSeq : Nat := 0
  asm : List Byte := []
  /-- messages waiting to be sent, in order of arrival: class (0 protocol, 1 routing, 2 bulk), whether the message has been
  started, and its remaining cells of 14 bytes (R87) -/
  txq : List TxMsg := []
deriving DecidableEq, Repr

/-- The states of a member (R91). -/
inductive MemberState where
  | idle | prepared | scheduled | detached
deriving DecidableEq, Repr

/-- A quilt operation that this member has prepared (R91). Times are device times in units of 2^-16 ns. -/
structure PrepSt where
  opId : Nat
  /-- it was detached when it prepared: a replay (R92) -/
  wasDetached : Bool
  newGen : Nat
  tMax : Nat
  t : Option Nat
  commit : Nat
  /-- its `PREPARE` was a broadcast, not sent to this device alone (R92) -/
  bcast : Bool := true
deriving DecidableEq, Repr

/-- Acknowledgements gathered from a subtree for one `OP_ID` (R87, R89). -/
structure AckSt where
  opId : Nat
  newGen : Nat
  /-- the device time by which this relay sends, in 2^-16 ns -/
  sendBy : Nat
  count : Nat
  digest : Item16
  missCount : Nat
  missing : List Nat
  /-- children that still owe an `ACK` -/
  waiting : List Nat
  vetoed : Bool
  sent : Bool
deriving DecidableEq, Repr

/-- The quilt commit that the coordinator runs (R88, R89). -/
structure QCommit where
  commit : Nat
  opId : Nat
  newGen : Nat
  targets : List Nat
  policy : Nat
  timed : Bool
  /-- device times in 2^-16 ns -/
  t : Nat
  ackDeadline : Nat
  lead : Nat
  expected : Item16
  decided : Bool
  /-- the detached device that a replay is for (R92) -/
  replay : Option Nat := none
deriving DecidableEq, Repr

/-- A kept `CMD` stream of a past quilt commit (R92). -/
structure KeptStream where
  gen : Nat
  dev : Nat
  bytes : List Byte
deriving DecidableEq, Repr

/-- The quilt's state at this device. -/
structure QuiltSt where
  links : Tab LinkSt := []
  /-- neighbours by 4,096 × link + device; the parent's key -/
  nbrs : Tab (Option NbrSt) := []
  parent : Option Nat := none
  /-- distance to the coordinator; 0 at the coordinator -/
  distance : Nat := 0
  /-- channel errors since the last `EV_QUILT_CHANNEL_ERROR`, and when that was raised (R84) -/
  errors : Nat := 0
  lastError : Option Nat := none
  /-- the coordinator's: device numbers that more than one device has reported (R81) -/
  dups : List Nat := []
  member : MemberState := .idle
  prep : Option PrepSt := none
  /-- a scheduled member lost its route: it is detached once it has applied (R91) -/
  detachNext : Bool := false
  ack : Option AckSt := none
  /-- streams accepted with `OK` by `OP_ID`, in order of acceptance, for the digest (R87) -/
  held : Tab (List Byte) := []
  /-- forwarded streams being assembled: of commands by origin slot, of responses by 8 × (device + 1) + slot -/
  streams : Tab (List Byte) := []
  /-- the `OP_ID` under which a session's remote staging travels, by slot -/
  slotOp : Tab Nat := []
  /-- the coordinator's count of `OP_ID`s: every one up to it has been used, and the later ones that have (R71); its running commit,
  commits that wait and kept streams -/
  lastOp : Nat := 0
  usedOps : List Nat := []
  running : Option QCommit := none
  queued : List Nat := []
  /-- replays that wait: device and generation (R92) -/
  replays : List (Nat × Nat) := []
  kept : List KeptStream := []
  /-- `CMD` streams of staging that other devices have accepted, by `OP_ID` -/
  sentStreams : List (Nat × KeptStream) := []
  /-- detached devices with the `QUILT_GEN` each last reported -/
  detachedList : Tab (Option Nat) := []
  /-- devices to read again 10 ms after T, a commit's each: T in 2^-16 ns, 0 once they are being read; `NEW_GEN`; the devices (R90) -/
  recheck : List (Nat × Nat × List Nat) := []
  /-- devices for which `EV_QUILT_RESYNC_NEEDED` has been raised since they detached (R92) -/
  resync : List Nat := []
  /-- a member without staging for a commit: its `OP_ID`, `NEW_GEN`, `T` in 2^-16 ns, and whether it was sent to this device alone (R93) -/
  genAt : Option (Nat × Nat × Nat × Bool) := none
  /-- devices known in the quilt, with their link -/
  members : Tab (Option Nat) := []
deriving DecidableEq, Repr

/-! ### Power (R477 to R490) -/

/-- How far a power unit is (R17, R483): asleep; its wake waits for leave; leave granted, waiting for the PLL or the ramp; the
ramp or start under way; running. -/
inductive UnitPhase where
  | asleep | queued | granted | starting | running
deriving DecidableEq, Repr

/-- A power unit: its phase, the commit that wakes it, and when its present phase began. -/
structure UnitSt where
  phase : UnitPhase := .asleep
  commit : Nat := 0
  since : Nat := 0
deriving DecidableEq, Repr

/-- What asks for leave (R484). -/
inductive LeaveOp where
  | wake (u : PowerUnit)
  | calibration
  | scrub (mem : Nat)
  | fill
  | rekey (id : Nat)
  | otp
deriving DecidableEq, Repr

/-- A leave request: its operation, its size in mW and when it was made or granted. -/
structure LeaveReq where
  op : LeaveOp
  mw : Nat
  since : Nat
deriving DecidableEq, Repr

/-- A ramp of `VDD_TILE` current, up or down (R485): its slope in µA/µs, when it starts and when it ends. -/
structure Ramp where
  slope : Nat
  start : Nat
  until' : Nat
deriving DecidableEq, Repr

/-- The thermal states (R487). -/
inductive Thermal where
  | normal | warn | hot | shutdown
deriving DecidableEq, Repr

/-- Power units, leave and thermal limits. -/
structure PowerSt where
  units : Tab UnitSt := []
  /-- the converter core's mode while it is not asleep: true full, false narrow -/
  coreFull : Bool := false
  queue : List LeaveReq := []
  held : List LeaveReq := []
  /-- ramps in progress, and those of units that have stopped (R485) -/
  ramps : List Ramp := []
  thermal : Thermal := .normal
  /-- Tj in 0.1 °C, and since when it has been at or above Tmax + 10 °C in `HOT` -/
  tj : Int := 0
  overSince : Option Nat := none
  /-- the eight sensors, in 0.01 °C (R504) -/
  sensors : List Int := []
  /-- `VTILE_REQ_MV` -/
  vtile : Nat := 700
  grants : Nat := 0
  refusals : Nat := 0
deriving DecidableEq, Repr

/-! ### Start-up, reset, OTP and power loss (R519 to R536) -/

/-- Why the device last started (R531). -/
inductive ResetCause where
  | por | warmKept | warmLoaded | watchdog | memory
deriving DecidableEq, Repr

/-- OTP programming in progress or waiting for leave (R530). -/
structure OtpProg where
  region : Nat
  gen : Nat
  payload : List Byte
  slot : Nat
  serial : Nat
  seq : Nat
  /-- when leave was granted -/
  started : Option Nat
  /-- stopped by the power-fail warning (R533) -/
  stopped : Bool
deriving DecidableEq, Repr

/-- The states of the TAP controller (IEEE 1149.1). -/
inductive TapCtl where
  | reset | idle | selectDr | captureDr | shiftDr | exit1Dr | pauseDr | exit2Dr | updateDr
  | selectIr | captureIr | shiftIr | exit1Ir | pauseIr | exit2Ir | updateIr
deriving DecidableEq, Repr

/-- The TAP's instructions (R3). -/
inductive TapInstr where
  | extest | samplePreload | bypass | idcode
deriving DecidableEq, Repr

/-- The boundary-scan TAP: controller, instruction, the register being shifted with the bit next to `JTAG_TDO` first, and the update latches of
the boundary cells; reset as IEEE 1149.1 has it (PRESUMED, assumption 208). -/
structure TapSt where
  ctl : TapCtl := .reset
  instr : TapInstr := .idcode
  shift : List Bool := []
  latch : List Bool := []
deriving DecidableEq, Repr

/-- Boot, firmware image, resets and the power-fail warning. -/
structure BootSt where
  /-- `POR_N` is low -/
  held : Bool := true
  stage : Nat := 0
  fwVersion : Nat := 0
  /-- image bytes received or kept -/
  image : List Byte := []
  /-- hash entry matched, 0xFF if `FW_CHECK` was not in force (R531) -/
  hashEntry : Nat := 0xFF
  cause : ResetCause := .por
  /-- warm resets since `POR_N` -/
  warm : Nat := 0
  /-- counter value at firmware start -/
  startCount : Nat := 0
  /-- a device reset by `SYS.RESET`: when it starts and `KEEP_IMAGE` (R526) -/
  resetAt : Option (Nat × Bool) := none
  /-- unit resets waiting for the boundary: slot and units of each (R526) -/
  unitResets : List (Nat × List Patch) := []
  /-- when `PFAIL_N` was asserted, while it is -/
  pfail : Option Nat := none
  /-- frames of last gasp still to send -/
  lastGasp : Nat := 0
  /-- the boundary-scan TAP (R3) -/
  tap : TapSt := {}
deriving DecidableEq, Repr

/-- OTP contents and what is in force (R527 to R530). Host-visible byte addresses are those of the region table. -/
structure OtpSt where
  bytes : Tab (BitVec 8) := []
  /-- bits (8 × address + bit) that do not read clearly at strict margin -/
  unclear : List Nat := []
  /-- generation in force of each region 0 to 6, as read at the last cold boot, and the generations found torn there -/
  inForce : List (Option Nat) := []
  torn : List (Nat × Nat) := []
  prog : Option OtpProg := none
deriving DecidableEq, Repr

/-! ### Counters, housekeeping and capture (R491 to R518) -/

/-- The latest results of a housekeeping entry (R507, R509). -/
structure HkRes where
  value : Int := 0
  code : Nat := 0
  min : Int := 0
  max : Int := 0
  /-- MIN and MAX start again at the next result -/
  fresh : Bool := true
  results : Nat := 0
  at' : Nat := 0
  valid : Bool := false
  alarm : Bool := false
  inside : Nat := 0
  lastEvent : Option Nat := none
deriving DecidableEq, Repr

/-- A capture run's parameters (R513, R515). -/
structure CaptRun where
  tap : Nat
  quarter : Nat
  stages : Nat
  ring : Bool
  sets : Nat
  startAt : Nat
  started : Bool
  /-- a stop takes effect at this boundary -/
  stopAt : Option Nat
  slot : Nat
  serial : Nat
  seq : Nat
  /-- the capture region, the time of tap sample 0 in 2^-16 ns and its TC count in 10^-15, and the tap samples in 100 TC -/
  region : Nat
  time : Int
  startTc : Nat
  rate : Nat
  discontinuity : Nat
  /-- what the tap gives, in 1/16 ADC LSB, from the first sample on that output set 0 rests on -/
  taps : List Cx2
deriving DecidableEq, Repr

/-- Performance counters, dumps, housekeeping and capture. -/
structure MonSt where
  /-- counters by 9 × monitored patch + counter, the cycle counter at 8 (R491, R493) -/
  counts : Tab Nat := []
  /-- selection codes in force, by 8 × monitored patch + counter (R492, R495) -/
  codes : Tab Nat := []
  /-- counters that wrapped since the last dump boundary, by the same index (R494) -/
  wraps : List Nat := []
  dumpSeq : Nat := 0
  dumpsLost : Nat := 0
  produced : Nat := 0
  /-- the counter value of the last dump boundary; the numbers of its device frame boundary and of the one from which boundaries are
  counted; where an interval ends early (R496) -/
  last : Nat := 0
  lastNo : Nat := 0
  dumpFrom : Nat := 0
  early : Option Nat := none
  first : Bool := true
  /-- counters with a committed selection that waits for the next dump boundary, by 8 × monitored patch + counter (R495) -/
  pend : List Nat := []
  /-- the TC count and the counter value at which the cycle counters were last brought up to date (R493) -/
  cycTc : Nat := 0
  cycAt : Nat := 0
  /-- an episode of lost dumps lasts -/
  losing : Bool := false
  /-- destination in force: 0 none, 1 host ring, 2 HBM region, its address and slots -/
  dest : Nat := 0
  destAddr : Nat := 0
  destSlots : Nat := 0
  /-- counters are frozen (R533) -/
  frozen : Bool := false
  /-- the running housekeeping entry and the results it has delivered in this pass (R505) -/
  hkEntry : Nat := 0
  hkDone : Nat := 0
  /-- when the running entry started, and its filter's last conversions, oldest first -/
  hkFrom : Nat := 0
  hkHist : List Nat := []
  hk : Tab HkRes := []
  capt : Option CaptRun := none
  /-- of the last run: `END_REASON`, sets written, passes and write rate in MB/s -/
  captEnd : Nat := 0
  captSets : Nat := 0
  captWraps : Nat := 0
  captRate : Nat := 0
deriving DecidableEq, Repr

/-! ### Time (R318 to R344) -/

/-- A pending `TIME.STEP` (R321, R323). -/
structure PStep where
  /-- 1 or 2 a pulse input, 3 a counter value -/
  kind : Nat
  /-- T in 2^-16 ns -/
  t : Nat
  /-- counter value for kind 3; else the deadline for a pulse -/
  limit : Nat
  slot : Nat
  serial : Nat
  seq : Nat
deriving DecidableEq, Repr

/-- The last rising edge of a pulse input: counter, fraction, and its device time in 2^-16 ns. -/
structure PpsEdge where
  cnt : Nat
  frac : Nat
  time : Int
  /-- the TC counted by it, in 1e-15 -/
  tc : Int
deriving DecidableEq, Repr

/-- A departure or arrival stamp of a multiframe: its `MFC`, its time in 2^-16 ns, the counter value at which its frame began, and
whether that frame is free of a class change (R28, R333, R335). -/
structure TtStamp where
  mfc : Nat
  time : Int
  start : Nat
  clean : Bool := true
deriving DecidableEq, Repr

/-- What time transfer keeps of one subcarrier: its last 8 departures, newest first, the far end's records of types 1 and 2, whether a type 2 record has come since
it was last used, the local arrivals, newest first, the records sent in the multiframe that goes out, by their k, and the multiframes whose
records have been taken in, by their k (R333 to R335). -/
structure TtSc where
  deps : List TtStamp := []
  farDep : Option (Nat × Nat) := none
  farArr : Option (Nat × Nat) := none
  fresh : Bool := false
  arr : List TtStamp := []
  sent : Tab (List Byte) := []
  took : Tab (Option Nat) := []
deriving DecidableEq, Repr

/-- The parameters of a sender, record type 3 (R334). -/
structure TtPar where
  timeValid : Bool
  fibre : Bool
  hub : Bool
  rxRef : Nat
  cdRx : Int
  txFix : Nat
  rxFix : Nat
deriving DecidableEq, Repr

/-- Time transfer on a link (R333 to R342): the far end's records, the last results, and what
`TIME.TT_STATUS` returns. -/
structure TtSt where
  scs : Tab TtSc := []
  far : Option TtPar := none
  results : List Int := []
  valid : Bool := false
  sc : Nat := 0
  offset : Int := 0
  delay : Int := 0
  /-- a applied, in ps -/
  asym : Int := 0
  used : Nat := 0
  discarded : Nat := 0
  /-- when an exchange was last used -/
  lastUsed : Nat := 0
  /-- why the latest multiframe had none: 1 none usable, 2 `FIBRE` differs, 3 a leaf without `RTD` (R343) -/
  reason : Nat := 1
  /-- `STITCH_RTT` in ps (R338) -/
  rtt : Nat := 0
  /-- the settings in force since a multiframe boundary (R340): `TT_EN`, `FIBRE`, `TT_AVG`, `RX_REF_MHZ`, `TX_EXT_PS`,
  `RX_EXT_PS`, `ASYM_PS` -/
  en : Bool := true
  fibre : Bool := false
  avg : Nat := 4
  rxRef : Nat := 0
  txExt : Nat := 0
  rxExt : Nat := 0
  asymSet : Int := 0
deriving DecidableEq, Repr

/-- Stamp counters of a port (R342). -/
structure StampCnt where
  tx : Nat := 0
  rx : Nat := 0
  fallback : Nat := 0
  unstamped : Nat := 0
deriving DecidableEq, Repr

/-- Anchor, rate and steps of device time (R319 to R325). -/
structure TimeSt where
  anchorCnt : Nat := 0
  anchorCfr : Nat := 0
  /-- `ANCHOR_T` in 2^-16 ns -/
  anchorT : Int := 0
  /-- `RATE` in 1e-15 -/
  rate : Int := 0
  established : Bool := false
  step : Option PStep := none
  /-- a slew hold: the counter value at which it ends and `RATE_AFTER` -/
  hold : Option (Nat × Int) := none
  ppsA : Option PpsEdge := none
  ppsB : Option PpsEdge := none
  /-- time transfer on the line and on the stitch link -/
  line : TtSt := {}
  stitch : TtSt := {}
  /-- stamp counters by port -/
  stamps : Tab StampCnt := []
  /-- the TC periods counted, in 10^-15, at the counter value at which their rate last changed (R16) -/
  tcBase : Nat := 0
  tcAt : Nat := 0
deriving DecidableEq, Repr

/-! ### What the last command made the block send -/

/-- What leaves the block: on PCIe, on the quilt channel, on a pin, on a bus (DESIGN CHOICE, assumption 2). -/
inductive Out where
  /-- an MSI-X message: vector, address, data (R43) -/
  | msix (vector addr data : Nat)
  /-- bytes written to the buffers of the command of a slot, in descriptor order: the address of each and its bytes (R51) -/
  | hostWrite (slot : Nat) (parts : List (Nat × List Byte))
  /-- bytes returned to a read of the words of BAR0 over PCIe, or shifted out on `SPI_MISO` (R29, R34, R37) -/
  | busRead (bytes : List Byte)
  /-- bytes written by DMA at a host address (R499) -/
  | dma (addr : Nat) (bytes : List Byte)
  /-- the attention output (R43) -/
  | attn (gpio : Nat) (level : Bool)
  /-- a frame on the front-end control bus (R109) -/
  | feFrame (bits : Nat)
  /-- a laser bus transaction: address, pointer bytes, bytes written, bytes to read, 400 kHz clock (R114, R117) -/
  | las (addr : Nat) (ptr data : List Byte) (read : Nat) (fast : Bool)
  /-- 9 clocks and a stop on the laser bus (R115) -/
  | lasRecover
  /-- a line frame (R222): subcarrier, plan `H_CODE` and `CODE`, k, and its information bytes before fill and scrambling -/
  | lineFrame (sc h code k : Nat) (oh payload : List Byte)
  /-- sample codes of the DACs XI, XQ, YI and YQ over one device frame (R10, R99) -/
  | dac (lanes : List (List Int))
  /-- a burst's symbols as they enter pulse shaping (R285, R288): subcarrier, and the counter value and fraction in 2^-16 at which the first is at
  the last register before the DAC -/
  | burst (sc cnt cfr : Nat) (symbols : List Sym)
  /-- a pulse output starts a pulse: its number as R369, the instant in 2^-16 ns, active low, and its width in µs (PPS) or TC (R365) -/
  | pulse (output : Nat) (t : Int) (low : Bool) (width : Nat)
  /-- a stitch frame: its overhead bytes and, by position, the share of each container (R385) -/
  | stitchFrame (oh : List Byte) (shares : List (List Byte))
  /-- the bits of the eight stitch lanes over a stitch frame; none of a lane in far-end loopback (R383, R384) -/
  | stitchLanes (lanes : List (List Bool))
  /-- the transmit taps `PRE2`, `PRE1`, `MAIN` and `POST1` of a lane, stitch lanes from 16, in 1/128 (R381, R382) -/
  | laneTaps (lane : Nat) (pre2 pre1 main post1 : Int)
  /-- a port starts or stops sending remote fault (R378) -/
  | remoteFault (port : Nat) (on : Bool)
  /-- words of a received stitch frame sent back unchanged on these lanes: the frame's overhead bytes and payload area (R383, R392) -/
  | stitchRelay (lanes : List Nat) (oh payload : List Byte)
  /-- a far-end store repeats so many of a lane's words, or, below zero, drops them (R383) -/
  | wordSlip (lane : Nat) (words : Int)
  /-- a frame sent on a host port (R424) -/
  | hostFrame (port : Nat) (bytes : List Byte)
  /-- bits shifted out on `JTAG_TDO` -/
  | tdo (bits : List Bool)
  /-- a message of the boundary clock: port, message type, domain, destination as `MCAST`, `clockClass`, `PRIORITY2`, and of an event message its
  stamp in 2^-16 ns (R366) -/
  | ptp (port type domain mcast cls prio2 : Nat) (t : Option Int)
  /-- `CLK_OUT` takes a frequency: 10, 25 or 156.25 MHz from TC by its code, or stops (R365) -/
  | clock (freq : Option Nat)
deriving DecidableEq, Repr

/-! ### The whole state -/

/-- The device: everything a read command can read. -/
structure Dev where
  /-- the 64-bit time counter (R318) -/
  now : Nat := 0
  /-- the number of the device frame boundary that runs next (R73) -/
  boundary : Nat := 0
  /-- the model's own: how many free values have been drawn (assumption 1) -/
  free : Nat := 0
  /-- the model's own: what the last command made the block send, oldest first (assumption 2) -/
  out : List Out := []
  ctl : CtlSt := {}
  cfg : CfgSt := {}
  quilt : QuiltSt := {}
  power : PowerSt := {}
  boot : BootSt := {}
  otp : OtpSt := {}
  mon : MonSt := {}
  time : TimeSt := {}
  conv : ConvSt := {}
  line : LineSt := {}
  /-- subcarrier tiles -/
  scs : Tab ScSt := []
  /-- containers by 2 × number + direction (0 transmit, 1 receive) -/
  conts : Tab ContSt := []
  ohd : OverSt := {}
  ref : RefSt := {}
  lane : LaneAll := {}
  pkt : PktSt := {}
  mem : MemAll := {}
  crypt : CryptAll := {}
deriving DecidableEq, Repr

/-- A pinned view of a session (R77): its slot and number, and when it was set. -/
structure Pin where
  slot : Nat
  serial : Nat
  at' : Nat
  view : Dev
deriving DecidableEq, Repr

/-- The block: its waiting commands, the device, the last snapshot (R76) and the pinned views (R77). -/
structure State where
  pending : List Instr := []
  dev : Dev := {}
  snap : Dev := {}
  pins : List Pin := []
deriving DecidableEq, Repr

/-- OTP as the factory leaves it: the identity generation alone, of a device of grade X and step 2 whose other bytes are 0, with its CRC
and commit word (R527, R528; DESIGN CHOICE, assumption 11). -/
def OtpSt.factory : Tab (BitVec 8) :=
  [(9, 0x24#8), (10, 0x01#8), (11, 0x02#8), (24, 0xE0#8), (25, 0xC5#8), (26, 0x2B#8), (27, 0x5C#8), (28, 0xA5#8), (29, 0x5A#8),
   (30, 0x3C#8), (31, 0xC3#8)]

/-- The device while `POR_N` is low after power-on (R520): every field at its reset value, OTP as the factory leaves it (DESIGN CHOICE, assumption 11, DESIGN CHOICE, assumption 189). -/
def Dev.reset : Dev := { otp := { bytes := OtpSt.factory }, power := { sensors := List.replicate 8 0 } }

/-- The block right after reset: `POR_N` low, no command waiting, no view pinned (R520, assumption 11) (DESIGN CHOICE, assumption 189). -/
def State.reset : State := { dev := Dev.reset, snap := Dev.reset }

/-- Why the block stops with a fault: never. The spec gives a stop no other form than `STAGE` 3, which is state (R522) (DESIGN CHOICE, assumption 193). -/
inductive Fault where
deriving DecidableEq, Repr

/-- Why a command has no meaning in this model (DESIGN CHOICE, assumption 193). -/
inductive Refusal where
  /-- Raised by `exec` for a command that the model does not cover. Safe: the run stops. -/
  | notModelled (mnemonic : String)
deriving DecidableEq, Repr

end Sys2Proof.Machine
end

