-- ==== Sys2Proof/Machine/Ops.lean ====
section
/-! DEFINITION. The named operations every family uses: access to slots and configuration, device time, bobbins, counts and
events. -/

namespace Sys2Proof.Machine

/-! ### Access -/

/-- The state of a slot; slots other than 0 to 7 do not exist and read as free. -/
def Dev.slot (d : Dev) (n : Nat) : Slot := d.ctl.slots.get (fun _ => {}) n

/-- Change a slot. -/
def Dev.modSlot (d : Dev) (n : Nat) (f : Slot → Slot) : Dev :=
  { d with ctl := { d.ctl with slots := d.ctl.slots.modify (fun _ => {}) n f } }

/-- A committed configuration field (R68). -/
def Dev.conf (d : Dev) (f : Fld) (i : Nat := 0) : Nat := d.cfg.cfg.get (fun _ => f.reset i) (f.key i)

/-- The indices at which a committed field differs from its value after reset. -/
def Dev.listed (d : Dev) (f : Fld) : List Nat :=
  d.cfg.cfg.filterMap fun e => if f.key 0 ≤ e.1 ∧ e.1 < f.key 0 + 2 ^ 40 then some (e.1 - f.key 0) else none

/-- Commit a configuration field. -/
def Dev.setConf (d : Dev) (f : Fld) (i v : Nat) : Dev :=
  { d with cfg := { d.cfg with cfg := d.cfg.cfg.set (fun _ => f.reset i) (f.key i) v } }

/-- The committed role (R24). -/
def Dev.role (d : Dev) : DevRole := DevRole.ofCode (d.conf .role)

/-- The device number; 0 until one is committed (R79). -/
def Dev.num (d : Dev) : Nat := d.conf .devNum

/-- The patch identifier of one of this device's units. -/
def Dev.pid (d : Dev) (p : Patch) : Nat := p.id d.num

/-- The device's own patch, `dev[n]`. -/
def Dev.self (d : Dev) : Nat := d.pid ⟨.device, 0⟩

/-- Draw a free value: what the spec leaves open (assumption 1) (DESIGN CHOICE, assumption 31). -/
def Dev.draw (d : Dev) : Nat × Dev := (Config.freeValue d.free, { d with free := d.free + 1 })

/-- Something leaves the block. -/
def Dev.emit (d : Dev) (o : Out) : Dev := { d with out := d.out ++ [o] }

/-- The block's clock stands at least at counter value c: an event with a deadline falls at its deadline (assumption 5) (DESIGN CHOICE, assumption 192). -/
def Dev.at (d : Dev) (c : Nat) : Dev := if d.now < c then { d with now := c } else d

/-! ### Device time (R318 to R320, R326) -/

/-- AC cycles of so many microseconds, milliseconds and seconds (R5). -/
def usCycles (n : Nat) : Nat := 25 * n
/-- AC cycles of n milliseconds. -/
def msCycles (n : Nat) : Nat := 25000 * n
/-- AC cycles of n seconds. -/
def secCycles (n : Nat) : Nat := 25000000 * n

/-- Device time in 2^-16 ns at a counter value and fraction (R319) (DESIGN CHOICE, assumption 13). -/
def TimeSt.timeAt (t : TimeSt) (cnt cfr : Nat) : Int :=
  let e : Int := (((cnt : Int) - t.anchorCnt) * 65536 + cfr - t.anchorCfr) * 40
  t.anchorT + e + roundDiv (e * t.rate) 1000000000000000

/-- Device time in 2^-16 ns now. -/
def Dev.time16 (d : Dev) : Int := d.time.timeAt d.now 0

/-- The running second of device time. -/
def Dev.secondNo (d : Dev) : Nat := (d.time16 / 65536000000000).toNat

/-- Seconds and nanoseconds of a device time in 2^-16 ns (R320). -/
def toQTime (t : Int) : QTime :=
  let ns := (t / 65536).toNat
  ⟨ns / 1000000000 % 2 ^ 48, ns % 1000000000⟩

/-- A device time in 2^-16 ns from seconds and nanoseconds. -/
def ofQTime (t : QTime) : Nat := (t.sec * 1000000000 + t.ns) * 65536

/-- The compact stamp of a device time (R326). -/
def compact (t : Int) : Nat := ((t / 65536) % (2 ^ 32 : Nat)).toNat

/-- From counter value c on, the first of at most n values whose device time has reached t. -/
def TimeSt.reach (s : TimeSt) (t : Nat) : Nat → Nat → Nat
  | 0, c => c
  | n + 1, c => if s.timeAt c 0 ≥ t then c else s.reach t n (c + 1)

/-- The first counter value at which device time has reached t under the rate in force (DESIGN CHOICE, assumption 5, DESIGN CHOICE, assumption 66). -/
def TimeSt.countAt (s : TimeSt) (t : Nat) : Nat :=
  let e := ((t : Int) - s.anchorT) * 1000000000000000 / (1000000000000000 + s.rate)
  let c := (s.anchorCnt : Int) + (e + 40 * s.anchorCfr) / 2621440
  s.reach t 8 (c - 4).toNat

/-! ### The tile clock and the device frame grid (R5, R16, R73) -/

/-- TC periods per AC cycle in 10^-15: 100 (1 + S) while the system PLL runs, S the steering applied; 100 while it is off (R16). -/
def Dev.tcRate (d : Dev) : Nat :=
  100 * (1000000000000000 + if (d.power.units.get (fun _ => {}) 0).phase = .running then d.ref.s else 0).toNat

/-- The TC periods counted at counter value c, in 10^-15, at the rate in force (R16). -/
def Dev.tcTotal (d : Dev) (c : Nat) : Int := d.time.tcBase + ((c : Int) - d.time.tcAt) * d.tcRate

/-- The TC periods counted by now. -/
def Dev.tcNow (d : Dev) : Nat := (d.tcTotal d.now / 1000000000000000).toNat

/-- The packet cycle, of 2 TC, so many packet cycles from now (R14). -/
def Dev.pktCycle (d : Dev) (late : Nat) : Nat := d.tcNow / 2 + late

/-- The TC count so far is kept, before its rate changes (R16). -/
def Dev.foldTc (d : Dev) : Dev := { d with time := { d.time with tcBase := (d.tcTotal d.now).toNat, tcAt := d.now } }

/-- One device frame: 25,000 TC, in 10^-15 (R5). -/
def tcFrame : Nat := 25000 * 1000000000000000

/-- The counter value and fraction in 2^-16 at which so many 10^-15 TC have been counted, at the rate in force. -/
def Dev.tcInstant (d : Dev) (m : Nat) : Nat × Nat :=
  let x := ((((m : Int) - d.time.tcBase) * 65536 / d.tcRate) + (d.time.tcAt : Int) * 65536).toNat
  (x / 65536, x % 65536)

/-- The number of the device frame in progress at counter value c: boundaries lie at whole multiples of 25,000 TC counted from the
power-on reset (R73, DESIGN CHOICE, assumption 6). -/
def Dev.frameNo (d : Dev) (c : Nat) : Nat := (d.tcTotal c / tcFrame).toNat

/-- Device time at the device frame boundary at which the frame in progress began, with its fraction of the AC cycle (R318). -/
def Dev.boundaryTime (d : Dev) : Int := let i := d.tcInstant (d.frameNo d.now * tcFrame); d.time.timeAt i.1 i.2

/-- The number of the first device frame boundary at or after counter value c. -/
def Dev.frameUp (d : Dev) (c : Nat) : Nat := ((d.tcTotal c - d.tcRate) / tcFrame + 1).toNat

/-- The first counter value at which so many 10^-15 TC have been counted, at the rate in force. -/
def Dev.tcReach (d : Dev) (m : Nat) : Nat := ((d.time.tcAt : Int) - (((d.time.tcBase : Int) - m) / d.tcRate)).toNat

/-- The first counter value at or after device frame boundary k (DESIGN CHOICE, assumption 6). -/
def Dev.frameStart (d : Dev) (k : Nat) : Nat := d.tcReach (k * tcFrame)

/-- The first device frame boundary at or after counter value c, as a counter value (R73). -/
def Dev.gridUp (d : Dev) (c : Nat) : Nat := d.frameStart (d.frameUp c)

/-- The counter value of the n-th device frame boundary after c. -/
def Dev.gridAfter (d : Dev) (c n : Nat) : Nat := d.frameStart (d.frameNo c + n)

/-- One second has passed since an event was last raised. -/
def Dev.oncePerSecond (d : Dev) (last : Option Nat) : Bool :=
  match last with
  | none => true
  | some t => d.now ≥ t + secCycles 1

/-- n occurrences now of something that is reported at most once per second: those of the last second, where it is reported. -/
def Recent.add (r : Recent) (now n : Nat) : Option Nat × Recent :=
  let l := (now, n) :: r.seen.filter fun e => decide (now < e.1 + secCycles 1)
  match r.said with
  | some t =>
    if now < t + secCycles 1 then (none, { r with seen := l }) else (some (l.map (·.2)).sum, { seen := l, said := some now })
  | none => (some (l.map (·.2)).sum, { seen := l, said := some now })

/-! ### Bobbins (R36 to R39) -/

/-- An item arrives at a bobbin's tail. -/
def Bobbin.push (b : Bobbin) (i : BItem) : Bobbin := { b with unread := b.unread ++ [i] }

/-- How many stages of the bobbin are in use. -/
def Bobbin.used (b : Bobbin) : Nat := b.unread.length + b.log.length

/-- The index of the unread item of highest priority, the earliest among equals (R37). -/
def bestUnread (l : List BItem) : Option Nat :=
  let top := l.foldl (fun m i => max m i.prio) 0
  if l.isEmpty then none else some (l.findIdx (fun i => i.prio == top))

/-- What a read of word 0 presents when nothing is presented (R37). -/
def Bobbin.choose (b : Bobbin) : Option Presented :=
  if b.pos < b.log.length then some .log else (bestUnread b.unread).map .unread

/-- A complete read of word 0 of the presentation window (R37). -/
def Bobbin.present (b : Bobbin) : Bobbin :=
  match b.presented with
  | some _ => b
  | none => { b with presented := b.choose }

/-- The presented item, none for the idle item. -/
def Bobbin.item (b : Bobbin) : Option BItem :=
  match b.presented with
  | none => none
  | some .log => b.log[b.pos]?
  | some (.unread i) => b.unread[i]?

/-- `NEXT` (R38). -/
def Bobbin.next (b : Bobbin) : Bobbin :=
  match b.presented with
  | none => b
  | some .log => { b with pos := b.pos + 1, presented := none }
  | some (.unread i) =>
    { b with log := b.log ++ (b.unread[i]?).toList, unread := b.unread.eraseIdx i, pos := b.log.length + 1,
             presented := none }

/-- `MARK` (R38). -/
def Bobbin.setMark (b : Bobbin) : Bobbin := { b with mark := some b.pos }

/-- `REWIND` (R38). -/
def Bobbin.rewind (b : Bobbin) : Bobbin := { b with pos := b.mark.getD 0, presented := none }

/-- `RELEASE` of the read log up to the first item of that sequence number; none where no held item carries it (R38) (DESIGN CHOICE, assumption 24). -/
def Bobbin.release (b : Bobbin) (seq : Nat) : Option (Bobbin × List BItem) :=
  let k := b.log.findIdx (fun i => i.seq == seq)
  if k < b.log.length then
    let n := k + 1
    let withdrawn := b.presented == some .log && b.pos < n
    some ({ b with log := b.log.drop n, pos := b.pos - n, mark := b.mark.map (· - n),
                   presented := if withdrawn then none else b.presented }, b.log.take n)
  else none

/-! ### Performance counts (R492, R493) -/

/-- The monitored patches by their place in a dump (R491). -/
inductive MonUnit where
  | dev | line | sc (n : Nat) | pipe (n : Nat) | cipher (n : Nat) | hbm (n : Nat) | port (n : Nat) | stitch
deriving DecidableEq, Repr

/-- The record number of a monitored patch (R497). -/
def MonUnit.index : MonUnit → Nat
  | .dev => 0 | .line => 1 | .sc n => 2 + n | .pipe n => 34 + n | .cipher n => 42 + n | .hbm n => 47 + n
  | .port n => 49 + n | .stitch => 65

/-- Add n occurrences to one programmable counter of 48 bits, noting a wrap (R492, R500). -/
def MonSt.bump (m : MonSt) (u j n : Nat) : MonSt :=
  let k := 9 * u + j
  let v := m.counts.get (fun _ => 0) k + n
  { m with counts := m.counts.set (fun _ => 0) k (v % 2 ^ 48),
           wraps := if v < 2 ^ 48 ∨ m.wraps.contains (8 * u + j) then m.wraps else m.wraps ++ [8 * u + j] }

/-- n occurrences named by a selection code at a monitored patch: every counter that has the code counts them, unless the
counters are frozen (R492, R533). -/
def Dev.count (d : Dev) (u : MonUnit) (code : Nat) (n : Nat := 1) : Dev :=
  if d.mon.frozen ∨ d.mon.codes.isEmpty then d else
  let js := (List.range 8).filter (fun j => d.mon.codes.get (fun _ => 0) (8 * u.index + j) == code)
  { d with mon := js.foldl (fun m j => m.bump u.index j n) d.mon }

/-- The dump interval ends early, at the first device frame boundary from now on (R496). -/
def Dev.endInterval (d : Dev) : Dev :=
  { d with mon := { d.mon with early := some (d.mon.early.getD (d.gridUp d.now)) } }

/-! ### Events (R58, R61, R62) -/

/-- The bytes of an event item (R58). -/
def eventItem (code prio seq info patch time : Nat) (sess : Option Nat) : Item :=
  BitVec.ofNat 512 (pack [fieldAt 0 8 0x02, at' 1 0 2 prio, at' 1 2 3 (sess.getD 0), at' 1 5 1 (b2n sess.isSome),
    fieldAt 2 16 seq, fieldAt 4 9 code, fieldAt 6 16 info, fieldAt 8 32 patch, fieldAt 12 32 time])

/-- Put an event item into the bobbin and consume its `ITEM_SEQ` (DESIGN CHOICE, assumption 65). -/
def EvtSt.place (e : EvtSt) (code prio info patch time : Nat) (est : Bool) (sess : Option Nat) : EvtSt :=
  { e with bob := e.bob.push ⟨eventItem code prio e.nextSeq info patch time sess, e.nextSeq, prio, est⟩,
           nextSeq := (e.nextSeq + 1) % 2 ^ 16 }

/-- An event that finds the 255 ordinary stages full: dropped and counted, and the first drop of an episode places
`EV_EVENT_OVERFLOW` in the kept stage (R62). -/
def EvtSt.drop (e : EvtSt) (self time : Nat) (est : Bool) : EvtSt :=
  let seq := e.nextSeq
  let e := { e with nextSeq := (seq + 1) % 2 ^ 16, lost := (e.lost + 1) % 2 ^ 32 }
  if e.overflow.isSome then e
  else { e.place Ev.eventOverflow.code 3 seq self time est none with overflow := some e.nextSeq }

/-- Raise an event: nothing while its source is disabled; else an item of its priority, or a drop (R58, R61, R62). -/
def Dev.raise (d : Dev) (ev : Ev) (patch info : Nat) (sess : Option Nat := none) : Dev :=
  if d.conf .evtEnable ev.code = 0 then d else
  let e := d.ctl.evt
  let time := compact d.time16
  if e.bob.used - (if e.overflow.isSome then 1 else 0) < 255 then
    let e' := e.place ev.code (d.conf .evtPriority ev.code) (info % 2 ^ 16) patch time d.time.established sess
    { d with ctl := { d.ctl with evt := e' } }.count .dev 1
  else ({ d with ctl := { d.ctl with evt := e.drop d.self time d.time.established } }.count .dev 1).count .dev 2

/-- Raise an event about one of this device's units. -/
def Dev.raiseAt (d : Dev) (ev : Ev) (p : Patch) (info : Nat) : Dev := d.raise ev (d.pid p) info

end Sys2Proof.Machine
end

