-- ==== Sys2Proof/Machine/Flags.lean ====
section
/-! DEFINITION. The interrupt and attention flags: source conditions, MSI-X messages and the attention output (R42, R43), and the
frame in which every command runs. -/

namespace Sys2Proof.Machine

/-- The condition of interrupt source v (R42) (DESIGN CHOICE, assumption 23). -/
def Dev.srcCond (d : Dev) (v : Nat) : Bool :=
  if v = 0 then d.ctl.irq.stageChanged
  else if v ≤ 8 then !(d.slot (v - 1)).rsp.unread.isEmpty
  else if v = 9 then !d.ctl.evt.bob.unread.isEmpty
  else if v = 10 then d.ctl.evt.bob.unread.any (fun i => i.prio == 3)
  else if v = 11 then !d.ctl.stamp.bob.unread.isEmpty
  else false

/-- `SRC_PENDING` (R30). -/
def Dev.srcPending (d : Dev) : Nat := (List.range 16).foldl (fun a v => a + b2n (d.srcCond v) * 2 ^ v) 0

/-- A word of the MSI-X table; unwritten, every vector is masked (assumption 7). -/
def IrqSt.tableWord (q : IrqSt) (i : Nat) : Nat := (q.table.get (fun k => if k % 4 = 3 then 1#32 else 0#32) i).toNat

/-- A vector is masked in the MSI-X table (PRESUMED, assumption 7). -/
def IrqSt.masked (q : IrqSt) (v : Nat) : Bool := bit (q.tableWord (4 * v + 3)) 0

/-- Change the interrupt flags. -/
def Dev.modIrq (d : Dev) (f : IrqSt → IrqSt) : Dev := { d with ctl := { d.ctl with irq := f d.ctl.irq } }

/-- Send the message of a vector; it is no longer pending. -/
def Dev.sendMsix (d : Dev) (v : Nat) : Dev :=
  let q := d.ctl.irq
  (d.emit (.msix v (q.tableWord (4 * v + 1) * 2 ^ 32 + q.tableWord (4 * v)) (q.tableWord (4 * v + 2)))).modIrq fun q =>
    { q with pba := q.pba &&& ~~~(BitVec.ofNat 16 (2 ^ v)) }

/-- Vector v: an armed vector whose condition holds sends one message and is disarmed; a masked one is kept pending and sent
when it is unmasked (R43, assumption 7). -/
def Dev.irqVector (d : Dev) (v : Nat) : Dev :=
  let q := d.ctl.irq
  let fire := bit q.armed.toNat v && d.srcCond v
  if fire then
    let d := d.modIrq fun q => { q with armed := q.armed &&& ~~~(BitVec.ofNat 16 (2 ^ v)) }
    if q.masked v then d.modIrq fun q => { q with pba := q.pba ||| BitVec.ofNat 16 (2 ^ v) } else d.sendMsix v
  else if bit q.pba.toNat v && !q.masked v then d.sendMsix v
  else d

/-- The attention output: asserted while any source selected in `ATTN_MASK` has its condition (R30, R43). -/
def Dev.attention (d : Dev) : Option (Nat × Bool) :=
  let w := d.ctl.irq.attn.toNat
  if bit w 4 then
    let asserted := (List.range 16).any (fun v => bit w (16 + v) && d.srcCond v)
    some (bits w 0 4, asserted == bit w 5)
  else none

/-- Drive the attention output; a change leaves the block. -/
def Dev.driveAttention (d : Dev) : Dev :=
  let p := d.attention
  if p = d.ctl.irq.pin then d else
  let d := d.modIrq fun q => { q with pin := p }
  match p with
  | some (g, l) => d.emit (.attn g l)
  | none => d

/-- After a command: interrupts fire and the attention output follows (R42, R43). -/
def Dev.refresh (d : Dev) : Dev := ((List.range 12).foldl Dev.irqVector d).driveAttention

/-- `STAGE` takes a new value (R30, R42). -/
def Dev.setStage (d : Dev) (n : Nat) : Dev :=
  if d.boot.stage = n then d else
  ({ d with boot := { d.boot with stage := n } }).modIrq fun q => { q with stageChanged := true }

/-- The block is stopped: `POR_N` is low, or `STAGE` is 3 (R520, R522) (DESIGN CHOICE, assumption 52). -/
def Dev.halted (d : Dev) : Bool := d.boot.held || d.boot.stage == 3

/-- What every command does around its effect: what the block sends is what this command makes it send, and interrupts follow.
While `POR_N` is low, and after a failure at boot, the block is stopped and nothing happens (R520, R522). -/
def State.run (s : State) (f : Dev → Dev) : Host.Outcome State Fault Refusal :=
  let d := { s.dev with out := [] }
  .next { s with dev := if d.halted then d else (f d).refresh }

/-- As `State.run`, for an access to the words of BAR0: the SPI target answers in every power state, at `STAGE` 3 too, and stands still
only while `POR_N` is low (R34, R522). -/
def State.runAccess (s : State) (a : Access) (f : Dev → Dev) : Host.Outcome State Fault Refusal :=
  let d := { s.dev with out := [] }
  let stopped := match a with
    | .spi _ => d.boot.held
    | .pcie _ _ _ => d.halted
  .next { s with dev := if stopped then d else (f d).refresh }

/-- As `State.run`, for an effect that also takes snapshots or pins views (R76, R77). -/
def State.runAll (s : State) (f : State → State) : Host.Outcome State Fault Refusal :=
  let s := { s with dev := { s.dev with out := [] } }
  if s.dev.halted then .next s else
  let t := f s
  .next { t with dev := t.dev.refresh }

end Sys2Proof.Machine
end

