-- ==== Sys2Proof/Machine/Links.lean ====
section
/-! DEFINITION. The links of the quilt: messages and cells, their bytes, and the queue of a link (R83 to R87). -/

namespace Sys2Proof.Machine

/-- The link of a subcarrier: a point-to-point line is one link, whose cell every subcarrier carries (R83) (DESIGN CHOICE, assumption 169). -/
def Dev.lineLink (d : Dev) (n : Nat) : Nat := if d.role = .p2p then 0 else n

/-- The state of a link. -/
def Dev.link (d : Dev) (k : Nat) : LinkSt := d.quilt.links.get (fun _ => {}) k

/-- Change the quilt's state. -/
def Dev.modQuilt (d : Dev) (f : QuiltSt → QuiltSt) : Dev := { d with quilt := f d.quilt }

/-- Change a link. -/
def Dev.modLink (d : Dev) (k : Nat) (f : LinkSt → LinkSt) : Dev :=
  d.modQuilt fun q => { q with links := q.links.modify (fun _ => {}) k f }

/-- The message types (R86). -/
inductive MsgType where
  | hello | detach | cmd | rsp | prepare | ack | veto | commitAt | abort
deriving DecidableEq, Repr

/-- The code of a message type (R86). -/
def MsgType.code : MsgType → Nat
  | .hello => 0x01 | .detach => 0x02 | .cmd => 0x10 | .rsp => 0x11 | .prepare => 0x20 | .ack => 0x21 | .veto => 0x22
  | .commitAt => 0x23 | .abort => 0x24

/-- The class of a message type, for the order of sending (R86, R87): 0 protocol, 1 routing, 2 bulk. -/
def MsgType.cls : MsgType → Nat
  | .hello => 1 | .detach => 2 | .cmd => 2 | .rsp => 2 | _ => 0

/-- The bytes of a message: its header and its body, most significant byte first (R7, R85). -/
def quiltMsg (t : MsgType) (bcast : Bool) (hops dst src op : Nat) (body : List Byte) : List Byte :=
  beBytes 1 t.code ++ beBytes 1 (b2n bcast * 128 + hops) ++ beBytes 3 (dst % 4096 * 4096 + src % 4096) ++
  beBytes 1 body.length ++ beBytes 2 op ++ body

/-- A message's data in cells of 14 bytes, the last padded with zero (R83, R85). -/
def msgCells (m : List Byte) : List (List Byte) := (chunks 14 (ceilDiv m.length 14) m).map (padTo 14)

/-- A quilt cell (R83). -/
def quiltCell (first last : Bool) (seq : Nat) (data : List Byte) : List Byte :=
  let b := BitVec.ofNat 8 (128 + b2n first * 64 + b2n last * 32 + seq % 32) :: data
  b ++ [BitVec.ofNat 8 (crc8 b)]

/-- The idle cell (R83). -/
def idleCell : List Byte := let b := List.replicate 15 (0 : Byte); b ++ [BitVec.ofNat 8 (crc8 b)]

/-- Queue a message on a link (R87). -/
def Dev.sendOn (d : Dev) (k : Nat) (t : MsgType) (bcast : Bool) (hops dst src op : Nat) (body : List Byte) : Dev :=
  d.modLink k fun l => { l with txq := l.txq ++ [⟨t.cls, false, msgCells (quiltMsg t bcast hops dst src op body)⟩] }

/-- Where the message to send next stands in a link's queue: the one started, else the first of the lowest class (R87). -/
def LinkSt.nextMsg (l : LinkSt) : Option Nat :=
  match l.txq.findIdx? (·.started) with
  | some i => some i
  | none => match l.txq.findIdx? (·.cls == 0) with
    | some i => some i
    | none => match l.txq.findIdx? (·.cls == 1) with
      | some i => some i
      | none => if l.txq.isEmpty then none else some 0

/-- Take the next cell of a link: the queue's, else the idle cell (R83, R87). -/
def LinkSt.nextCell (l : LinkSt) : List Byte × LinkSt :=
  match l.nextMsg with
  | none => (idleCell, l)
  | some i =>
    match l.txq[i]? with
    | none => (idleCell, l)
    | some m =>
      let last := m.cells.length ≤ 1
      let cell := quiltCell (!m.started) last l.txSeq (m.cells.headD [])
      let txq := if last then l.txq.eraseIdx i else l.txq.set i { m with started := true, cells := m.cells.drop 1 }
      (cell, { l with txSeq := (l.txSeq + 1) % 32, txq := txq })

/-- A channel error on a link, reported at most once per second with those of every link since the last report (R84). -/
def Dev.cellError (d : Dev) (k : Nat) : Dev :=
  let d := d.modLink k fun l => { l with asm := [] }
  let n := d.quilt.errors + 1
  if d.oncePerSecond d.quilt.lastError then
    (d.modQuilt fun q => { q with errors := 0, lastError := some d.now }).raise .quiltChannelError (Patch.id 0 ⟨.quilt, 0⟩) (sat 16 n)
  else d.modQuilt fun q => { q with errors := n }

/-- The codes of the message types. -/
def msgCodes : List Nat := [0x01, 0x02, 0x10, 0x11, 0x20, 0x21, 0x22, 0x23, 0x24]

/-- A cell received on a link: its check, its sequence number, and the message it belongs to; a whole message is a command of its own
(R83, R84, R86, assumption 9). -/
def Dev.cellIn (d : Dev) (k : Nat) (b : List Byte) : Dev :=
  let h := (b.headD 0).toNat
  let unit : MonUnit := if k = 32 then .stitch else .line
  if crc8 (b.take 15) ≠ (b.getD 15 0).toNat then
    let d := d.cellError k
    if k = 32 then d else d.count unit 5
  else
  let d := d.count unit (if k = 32 then 7 else 4)
  if !bit h 7 then d
  else
    let l := d.link k
    let gap := l.rxSeq.any fun s => (s + 1) % 32 != h % 32
    let d := if gap then d.cellError k else d
    let asm := if bit h 6 then slice b 1 14 else if (d.link k).asm.isEmpty then [] else (d.link k).asm ++ slice b 1 14
    let bad := bit h 6 && !msgCodes.contains (b.getD 1 0).toNat
    let d := d.modLink k fun l => { l with rxSeq := some (h % 32), asm := if bit h 5 then [] else asm }
    if bad then d.cellError k else d

/-- A neighbour is a child in the routing tree: it is heard, and its distance lies above ours (R80) (DESIGN CHOICE, assumption 175). -/
def Dev.isChild (d : Dev) (x : NbrSt) : Bool := !x.isCoord && !x.dup && decide (x.dist > d.quilt.distance)

/-- The children in the routing tree, by neighbour key. -/
def Dev.children (d : Dev) : List (Nat × NbrSt) :=
  d.quilt.nbrs.filterMap fun e => match e.2 with
    | some x => if d.isChild x then some (e.1, x) else none
    | none => none

/-- The links to the children in the routing tree. -/
def Dev.childLinks (d : Dev) : List Nat := (d.children.map (·.1 / 4096)).eraseDups

/-- The greatest member distance known: the quilt's hop count (R80). -/
def Dev.hops (d : Dev) : Nat := d.children.foldl (fun m e => max m e.2.depth) 0

/-- Send a message down the routing tree: to one device on its link, or broadcast to every child (R85). -/
def Dev.sendDown (d : Dev) (t : MsgType) (dst : Option Nat) (op : Nat) (body : List Byte) : Dev :=
  let links := match dst with
    | none => d.childLinks
    | some n => match d.quilt.members.get (fun _ => none) n with
      | some k => [k]
      | none => d.childLinks
  links.foldl (fun d k => d.sendOn k t dst.isNone 64 (dst.getD 0) d.num op body) d

/-- Send a message up to the parent. -/
def Dev.sendUp (d : Dev) (t : MsgType) (op : Nat) (body : List Byte) : Dev :=
  match d.quilt.parent with
  | some k => d.sendOn (k / 4096) t false 64 (d.conf .coordNum) d.num op body
  | none => d

/-- The part bodies of a `CMD` or `RSP` stream: 44 stream bytes each (R86). -/
def streamParts (slot : Nat) (stream : List Byte) : List (List Byte) :=
  let ps := chunks 44 (ceilDiv stream.length 44) stream
  (List.range ps.length).map fun i =>
    beBytes 1 slot ++ beBytes 1 ((if i + 1 = ps.length then 128 else 0) + i % 128) ++ beBytes 2 (44 * i) ++ ps.getD i []

end Sys2Proof.Machine
end

