-- ==== Sys2Proof/Machine/Answer.lean ====
section
/-! DEFINITION. Responses, operations, and the closing of a session (R40, R49, R53, R54, R57, R70). -/

namespace Sys2Proof.Machine

/-! ### Responses and operations (R53, R54, R57) -/

/-- Result parameters: how many bytes, and their value with offset 0 in the low byte (R53) (DEDUCED, assumption 16). -/
structure Res where
  len : Nat := 0
  v : Nat := 0
deriving DecidableEq, Repr

/-- Results of n bytes with these fields (DEDUCED, assumption 16). -/
def res (n : Nat) (l : List Bf) : Res := ⟨n, pack l⟩

/-- A field of an item, by byte offset, bit and width. -/
def Item.field (i : Item) (o lo w : Nat) : Nat := bits i.toNat (8 * o + lo) w

/-- The `SEQ`, `CODE` and `PRIORITY` of a command item (R50). -/
def Item.seq (i : Item) : Nat := Item.field i 2 0 16
/-- `CODE` of a command item. -/
def Item.code (i : Item) : Nat := Item.field i 4 0 16
/-- `PRIORITY` of a command item. -/
def Item.prio (i : Item) : Nat := Item.field i 1 0 2

/-- The bytes of a response item (R53). -/
def responseItem (slot : Nat) (cmd : Item) (st : Status) (r : Res) : Item :=
  BitVec.ofNat 512 (pack [fieldAt 0 8 0x01, at' 1 0 2 (Item.prio cmd), at' 1 2 3 slot, fieldAt 2 16 (Item.seq cmd),
    fieldAt 4 16 st.code, fieldAt 6 8 r.len, ⟨64, 448, r.v⟩])

/-- Produce a command's response: in its reserved stage (R40, R53), or, for a command that the coordinator forwarded from its
slot `slot % 8` under `OP_ID` `slot / 8 - 1`, in an `RSP` stream towards it, followed by what it wrote to the command's host-memory buffer
(R82, R86) (DESIGN CHOICE, assumption 182). -/
def Dev.respond (d : Dev) (slot : Nat) (cmd : Item) (st : Status) (r : Res := {}) (wrote : List Byte := []) : Dev :=
  if slot < 8 then
    (d.modSlot slot fun s =>
      { s with rsp := s.rsp.push ⟨responseItem slot cmd st r, Item.seq cmd, Item.prio cmd, d.time.established⟩ }).count .dev 3
  else
    (streamParts (slot % 8) (leBytes 64 (responseItem (slot % 8) cmd st r).toNat ++ wrote)).foldl (fun d b => d.sendUp .rsp (slot / 8 - 1) b) d

/-- Answer the command that a slot's session has taken. -/
def Dev.answer (d : Dev) (slot : Nat) (st : Status) (r : Res := {}) : Dev :=
  match (d.slot slot).taken with
  | none => d
  | some t => (d.respond slot t.item st r).modSlot slot fun s => { s with taken := none }

/-- Keep an accepted operation among the session's 32 most recent (R57). -/
def Dev.keepOp (d : Dev) (slot seq code : Nat) : Dev :=
  if slot ≥ 8 then d else d.modSlot slot fun s => { s with ops := (⟨seq, code, .accepted⟩ :: s.ops).take 32 }

/-- An accepted operation ends: its final status is kept for its session, and `EV_OP_DONE` or `EV_OP_FAILED` is raised
(R54). -/
def Dev.endOp (d : Dev) (slot serial seq : Nat) (st : Status) : Dev :=
  let d := if slot < 8 ∧ (d.slot slot).serial = serial then
      d.modSlot slot fun s => { s with ops := s.ops.map fun o =>
        if o.seq = seq ∧ o.status = .accepted then { o with status := st } else o }
    else d
  d.raise (if st = .ok then .opDone else .opFailed) d.self seq (if slot < 8 then some slot else none)

/-! ### Staging dropped, sessions closed (R49, R70) -/

/-- The staging of an owner on other devices falls with its own: they are sent `ABORT` for its `OP_ID` (R70, R91,
assumption 20). -/
def Dev.discardRemote (d : Dev) (owner : Nat) : Dev :=
  let op := d.quilt.slotOp.get (fun _ => 0) owner
  if op = 0 then d else
  (d.sendDown .abort none op (beBytes 4 0 ++ beBytes 2 Status.cancelled.code ++ beBytes 2 0)).modQuilt fun q =>
    { q with slotOp := q.slotOp.set (fun _ => 0) owner 0, sentStreams := q.sentStreams.filter (·.1 != op) }

/-- Drop the unlocked staging of an owner and raise `EV_STAGING_DISCARDED` once if there was any; answers how many patch
entries fell, a staged generation counting as one (R70). -/
def Dev.discard (d : Dev) (owner : Nat) : Nat × Dev :=
  let d := d.discardRemote owner
  let rules := d.pkt.staged.any (·.1 == owner)
  let n := (d.cfg.staged.filter (·.owner = owner)).length + b2n rules
  if n = 0 then (0, d) else
  let d := { d with cfg := { d.cfg with staged := d.cfg.staged.filter (·.owner ≠ owner) } }
  let d := if rules then { d with pkt := { d.pkt with staged := none } } else d
  (n, d.raise .stagingDiscarded d.self (sat 16 n) (some (owner % 8)))

/-- A session gives up its bobbin claims (R49). -/
def Dev.dropClaims (d : Dev) (slot : Nat) : Dev :=
  let c := d.ctl
  { d with ctl := { c with
      evt := { c.evt with owner := if c.evt.owner = some slot then none else c.evt.owner },
      stamp := { c.stamp with owner := if c.stamp.owner = some slot then none else c.stamp.owner } } }

/-- `EV_COMMIT_REFUSED` on the device at which the commit was rung (R570). -/
def Dev.commitRefused (d : Dev) (slot : Nat) (st : Status) (quilt : Bool) : Dev :=
  d.raise .commitRefused (if quilt then Patch.id 0 ⟨.quilt, 0⟩ else d.self) st.code (some slot)

/-- The commit with `MODE` 0 whose boundary the slot's session waits for (R74). -/
def Slot.waitsCommit (s : Slot) : Option Nat :=
  match s.taken with
  | some t => match t.why with
    | .commit id => some id
    | _ => none
  | none => none

/-- A commit's command completes with `SESSION_CLOSED`, which is told of; its end is told of no more (R49, R570). -/
def Dev.toldClosed (d : Dev) (slot id : Nat) : Dev :=
  let l := d.cfg.commits.map fun (c : PCommit) => if c.id = id then { c with told := true } else c
  { d with cfg := { d.cfg with commits := l } }.commitRefused slot .sessionClosed
    (d.cfg.commits.any fun c => c.id == id && c.quilt.isSome)

/-- Close a slot's session with a reason: staging discarded, claims released, unprocessed commands dropped, a taken command
answered `SESSION_CLOSED`, which a commit is refused with (R49, R570) (DESIGN CHOICE, assumption 22, DESIGN CHOICE, assumption 26). -/
def Dev.close (d : Dev) (slot : Nat) (reason : Status) : Dev :=
  let d := (d.discard slot).2
  let d := match (d.slot slot).waitsCommit with
    | some id => d.toldClosed slot id
    | none => d
  let d := (d.dropClaims slot).answer slot .sessionClosed
  let d := d.modSlot slot fun s =>
    { s with state := .closed, closeReason := reason.code, closedAt := d.now, cmds := [] }
  d.raise .sessionClosed d.self reason.code (some slot)

/-- A slot becomes free: everything of its session and its response bobbin is gone (R44) (DESIGN CHOICE, assumption 22). -/
def Dev.freeSlot (d : Dev) (slot : Nat) : Dev :=
  d.modSlot slot fun s => { releaseErr := s.releaseErr, doorbellLost := s.doorbellLost, closeReason := s.closeReason, cmdItem := s.cmdItem }

end Sys2Proof.Machine
end

