-- ==== Sys2Proof/Machine/Operands.lean ====
section
/-! DEFINITION. The operand forms of a host command: patch identifiers and groups (R64 to R66), parameter layouts (R8, R9, R50,
R51, R568), and a command as the controller has taken it. -/

namespace Sys2Proof.Machine

/-! ### Patch identifiers and groups -/

/-- A patch identifier taken apart (R64): device, whether it names a group, class and instance. -/
structure PatchRef where
  dev : Nat
  group : Bool
  cls : PClass
  inst : Nat
deriving DecidableEq, Repr

/-- Read a 32-bit patch identifier; none for a class or instance not in the table of R64. Groups of a class have instances
0 to 1,023 (R64, R65). -/
def PatchRef.ofId (v : Nat) : Option PatchRef :=
  let cv := bits v 14 6
  let inst := bits v 0 14
  let dev := bits v 20 12
  if cv = 0x1F then (if inst = 0 ∧ dev = 0xFFF then some ⟨dev, false, .quilt, 0⟩ else none)
  else if cv < 0x20 then (PClass.ofValue cv).bind fun c => if inst < c.count then some ⟨dev, false, c, inst⟩ else none
  else (PClass.ofValue (cv - 0x20)).bind fun c => if inst < 1024 then some ⟨dev, true, c, inst⟩ else none

/-- A group member: on this device, or on another by its device number; a single unit or a group (R65). -/
structure Member where
  dev : Option Nat
  group : Bool
  cls : PClass
  inst : Nat
deriving DecidableEq, Repr

/-- A member as a configuration value: its identifier, with bit 32 set for this device's own (R79). -/
def Member.enc (m : Member) : Nat :=
  (if m.dev.isNone then 2 ^ 32 else 0) + m.dev.getD 0 * 2 ^ 20 + (m.cls.value + if m.group then 0x20 else 0) * 2 ^ 14 + m.inst

/-- The member of a configuration value. -/
def Member.dec (v : Nat) : Option Member :=
  (PatchRef.ofId (v % 2 ^ 32)).map fun r => ⟨if bit v 32 then none else some r.dev, r.group, r.cls, r.inst⟩

/-- The index of a group in the configuration (R65): this device's own groups, then what a member holds of its coordinator's (DESIGN
CHOICE, assumption 61). -/
def groupIdx (own : Bool) (c : PClass) (i : Nat) : Nat := (if own then 0 else 32768) + c.value * 1024 + i

/-- The members of a committed group, of this device's own or of its coordinator's. -/
def Dev.groupMembers (d : Dev) (own : Bool) (c : PClass) (i : Nat) : List Member :=
  let g := groupIdx own c i
  (List.range (d.conf .groupCount g)).filterMap fun k => Member.dec (d.conf .groupMember (4096 * g + k))

/-- The device number of a member as commands name it. -/
def Dev.memberDev (d : Dev) (m : Member) : Nat := m.dev.getD d.num

/-- A group of which this device knows the members: its own (true), or its coordinator's (false) (R65, R82). -/
def Dev.groupHere (d : Dev) (dev : Nat) : Option Bool :=
  if dev = d.num then some true
  else if d.conf .quiltEnable = 1 ∧ dev = d.conf .coordNum then some false else none

/-- The units a member stands for, nested groups opened up to `fuel` levels: device number and instance; a group of a device that
opens it itself stands for that device (R65, R66). -/
def Dev.expandMember (d : Dev) : Nat → Member → List (Nat × Nat)
  | 0, m => if m.group then [] else [(d.memberDev m, m.inst)]
  | n + 1, m =>
    if m.group then
      match d.groupHere (d.memberDev m) with
      | some own => (d.groupMembers own m.cls m.inst).flatMap (d.expandMember n)
      | none => [(d.memberDev m, m.inst)]
    else [(d.memberDev m, m.inst)]

/-- The units that a patch reference names: device number and instance (R64, R66). -/
def Dev.expand (d : Dev) (r : PatchRef) : List (Nat × Nat) :=
  if r.cls = .quilt ∧ !r.group then [(d.num, r.inst)] else d.expandMember 5 ⟨some r.dev, r.group, r.cls, r.inst⟩

/-- The instances on this device of what a patch reference names, ascending, without repeats (R66). -/
def Dev.localInstances (d : Dev) (r : PatchRef) : List Nat :=
  let l := (d.expand r).filterMap fun e => if e.1 = d.num then some e.2 else none
  (List.range r.cls.count).filter l.contains

/-- The other devices on which a patch reference names units (R79, R82). -/
def Dev.remoteDevices (d : Dev) (r : PatchRef) : List Nat := (((d.expand r).map (·.1)).filter (· != d.num)).eraseDups

/-! ### Layouts -/

/-- The values a parameter may take: anything; reserved zero; listed encodings; a range; a signed range; a patch of given
classes with instances from a bound to a bound; any group; any patch (R8, R9, R64). -/
inductive Kind where
  | any
  | rsv
  | enum (l : List Nat)
  | range (lo hi : Nat)
  | srange (lo hi : Int)
  | patch (l : List (PClass × Nat × Nat))
  | group
  | unit
deriving DecidableEq, Repr

/-- One row of a parameter layout: byte offset, low bit, width, and the values it takes. -/
structure Param where
  off : Nat
  lo : Nat
  w : Nat
  kind : Kind
deriving DecidableEq, Repr

/-- Whether a command takes a host-memory buffer (R51, R568): never; always; at the host's choice; exactly while a parameter of its
own is not zero; or exactly while it is zero. -/
inductive ExtUse where
  | never | always | either
  | ifSet (off lo w : Nat)
  | ifClear (off lo w : Nat)
deriving DecidableEq, Repr

/-- The bytes that a command's buffer must have: any number; so many; so many for each unit of a count; so many times a power of two
of an exponent. -/
inductive ExtSize where
  | any
  | bytes (n : Nat)
  | per (off lo w n : Nat)
  | pow (off lo w n : Nat)
deriving DecidableEq, Repr

/-- A command that the controller has taken: its slot, session role, item, and the bytes of its host-memory buffer. -/
structure Call where
  slot : Nat
  role : SessRole
  item : Item
  ext : Bool
  /-- what layout offsets are counted from: 16 with a buffer where the layout moves, else 0 (R51) -/
  base : Nat
  descs : List Item16
  bytes : List Byte
deriving DecidableEq, Repr

/-- A parameter of a call, by layout offset, low bit and width. -/
def Call.p (c : Call) (o lo w : Nat) : Nat := Item.field c.item (8 + c.base + o) lo w

/-- A signed parameter. -/
def Call.ps (c : Call) (o lo w : Nat) : Int := signed w (c.p o lo w)

/-- `EXT_LEN` (R51). -/
def Call.extLen (c : Call) : Nat := if c.ext then Item.field c.item 20 0 32 else 0

/-- The command's `SEQ`. -/
def Call.seq (c : Call) : Nat := Item.seq c.item

/-- A reference from a patch parameter. -/
def Call.patch (c : Call) (o : Nat) : Option PatchRef := PatchRef.ofId (c.p o 0 32)

/-- Inline parameter bytes from layout offset o. -/
def Call.inline (c : Call) (o n : Nat) : List Byte := leBytes n (bits c.item.toNat (8 * (8 + c.base + o)) (8 * n))

/-- A command of the Lulon set: code, least role (none: a command that needs no session), parameter length, use of a buffer,
whether layout offset 0 moves to 16 with a buffer, whether it accepts groups, and its layout (R50, R51, R568). -/
structure Verb where
  code : Nat
  role : SessRole
  len : Nat
  /-- further lengths, of a layout whose last field depends on a count -/
  lens : List Nat := []
  ext : ExtUse := .never
  size : ExtSize := .any
  /-- the layout of each entry of the buffer, and its bytes; 0 for a buffer without entries -/
  entry : List Param := []
  entryLen : Nat := 0
  shift : Bool := false
  groups : Bool := false
  /-- a parameter bit whose value 1 needs another role (`SESSION.CLAIM`, R57) -/
  roleBit : Option (Nat × SessRole) := none
  /-- another role that naming the device itself needs (`SYS.RESET`, R526) -/
  devRole : Option SessRole := none
  params : List Param := []
  /-- it reads units by their patch and combines a group's members (R67) -/
  reads : Bool := false
  /-- its own parameters hold a length, an encoding or a reserved bit that its layout refuses and no row of `params` shows
  (R569 steps 5 and 6) -/
  codes : Call → Bool := fun _ => false
  /-- a number lies outside a range that depends on another parameter, or stands in the buffer (R569 step 7) -/
  ranges : Call → Bool := fun _ => false

/-- A value breaks the rule of listed encodings, reserved bits and patch classes (R569 step 6). -/
def Kind.badVal (k : Kind) (groups : Bool) (v : Nat) : Bool :=
  match k with
  | .any | .range _ _ | .srange _ _ => false
  | .rsv => v != 0
  | .enum l => !l.contains v
  | .patch l =>
    match PatchRef.ofId v with
    | none => true
    | some r => if r.group then !(groups && l.any (fun e => e.1 == r.cls))
        else !l.any (fun e => e.1 == r.cls && decide (e.2.1 ≤ r.inst) && decide (r.inst ≤ e.2.2))
  | .group => !(PatchRef.ofId v).any (·.group)
  | .unit => (PatchRef.ofId v).isNone

/-- A number of w bits lies outside its range (R569 step 7). -/
def Kind.outVal (k : Kind) (w v : Nat) : Bool :=
  match k with
  | .range lo hi => decide (v < lo ∨ hi < v)
  | .srange lo hi => decide (signed w v < lo ∨ hi < signed w v)
  | _ => false

/-- A row of a call's own parameters breaks the rule of listed encodings, reserved bits and patch classes. -/
def Param.badCode (p : Param) (groups : Bool) (c : Call) : Bool := p.kind.badVal groups (c.p p.off p.lo p.w)

/-- A number of a call's own parameters lies outside its range. -/
def Param.outOfRange (p : Param) (c : Call) : Bool := p.kind.outVal p.w (c.p p.off p.lo p.w)

/-- The value of a row in an entry of a buffer. -/
def Param.ofEntry (p : Param) (b : List Byte) : Nat := bits (leNat (slice b p.off (ceilDiv (p.lo + p.w) 8))) p.lo p.w

/-- The entries of a call's buffer. -/
def Verb.entries (v : Verb) (c : Call) : List (List Byte) :=
  if v.entryLen = 0 then [] else chunks v.entryLen (c.bytes.length / v.entryLen) c.bytes

/-- An entry breaks the rule of listed encodings, reserved bits and patch classes (R8, R569 step 6). -/
def Verb.badEntry (v : Verb) (c : Call) : Bool := (v.entries c).any fun b => v.entry.any fun p => p.kind.badVal false (p.ofEntry b)

/-- An entry holds a number outside its range (R9, R569 step 7). -/
def Verb.entryOut (v : Verb) (c : Call) : Bool := (v.entries c).any fun b => v.entry.any fun p => p.kind.outVal p.w (p.ofEntry b)

/-- The descriptor lengths sum to `EXT_LEN`, the list has `DESC_COUNT` entries of legal length, its address is aligned, and the
bytes read are the bytes described (R51) (DESIGN CHOICE, assumption 4). -/
def Call.descriptorsOk (c : Call) : Bool :=
  let n := Item.field c.item 16 0 16
  let lens := c.descs.map (fun e => bits e.toNat 64 32)
  decide (1 ≤ n ∧ n ≤ 4096) && c.descs.length == n && Item.field c.item 8 0 4 == 0 && Item.field c.item 18 0 16 == 0 &&
  lens.all (fun l => decide (1 ≤ l ∧ l ≤ 16777216)) && c.descs.all (fun e => bits e.toNat 96 32 == 0) &&
  decide (1 ≤ c.extLen ∧ c.extLen ≤ 67108864) && lens.sum == c.extLen

/-- The command takes a buffer in some of its calls only. -/
def ExtUse.optional : ExtUse → Bool
  | .never | .always => false
  | _ => true

/-- The call takes a buffer, or takes none, against its layout (R568). -/
def ExtUse.wrong (u : ExtUse) (c : Call) : Bool :=
  match u with
  | .never => c.ext
  | .always => !c.ext
  | .either => false
  | .ifSet o lo w => c.ext != (c.p o lo w != 0)
  | .ifClear o lo w => c.ext != (c.p o lo w == 0)

/-- The buffer has the bytes its layout wants. -/
def ExtSize.ok (z : ExtSize) (c : Call) : Bool :=
  match z with
  | .any => true
  | .bytes n => c.extLen == n
  | .per o lo w n => c.extLen == n * c.p o lo w
  | .pow o lo w n => c.extLen == n * 2 ^ c.p o lo w

/-- The command's parameter length for its use of a buffer: a layout whose fields stay at offset 16 and above counts the
reserved bytes 0 to 15 while `PARAM_EXT` is 0 (R51, R568). -/
def Verb.lenFor (v : Verb) (ext : Bool) : Nat := if v.ext.optional && !v.shift && !ext then 16 + v.len else v.len

/-- Those reserved bytes are not zero (R8, R51). -/
def Verb.gapSet (v : Verb) (c : Call) : Bool :=
  v.ext.optional && !v.shift && !c.ext && Item.field c.item 8 0 128 != 0

/-- The parameter length, the use of a buffer, its descriptors or its length are wrong (R51, R568, R569 step 5). -/
def Verb.badForm (v : Verb) (c : Call) (paramLen : Nat) : Bool :=
  (paramLen != v.lenFor c.ext && !v.lens.contains paramLen) || v.ext.wrong c || (c.ext && !(c.descriptorsOk && v.size.ok c))

/-- The status of the checks of R569 steps 5 to 7 for a taken command, none where all pass. -/
def Verb.checkParams (v : Verb) (c : Call) (paramLen : Nat) : Option Status :=
  if v.badForm c paramLen then some .badParameter
  else if v.gapSet c || v.params.any (fun p => p.badCode v.groups c) || v.badEntry c || v.codes c then some .badParameter
  else if v.params.any (fun p => p.outOfRange c) || v.entryOut c || v.ranges c then some .outOfRange
  else none

end Sys2Proof.Machine
end

