-- ==== Sys2Proof/Machine/QuiltMsg.lean ====
section
/-! DEFINITION. The forwarding of a command that names units of other devices (R82, R86). -/

namespace Sys2Proof.Machine

/-- The `OP_ID` that follows another: modulo 2^16, skipping 0 (R71). -/
def opNext (n : Nat) : Nat := if (n + 1) % 2 ^ 16 = 0 then 1 else (n + 1) % 2 ^ 16

/-- The first `OP_ID` after n, of at most k, that passes a test. -/
def opFind (free : Nat → Bool) : Nat → Nat → Nat
  | 0, n => opNext n
  | k + 1, n => if free (opNext n) then opNext n else opFind free k (opNext n)

/-- The `OP_ID` that a new operation takes: the first that no quilt commit has used and no session's staging holds (R71, assumption
20). -/
def Dev.newOp (d : Dev) : Nat :=
  let held := d.quilt.slotOp.map (·.2) ++ d.quilt.usedOps
  opFind (fun n => !held.contains n) held.length d.quilt.lastOp

/-- The count of used `OP_ID`s goes on over those that follow it. -/
def opsFold : Nat → Nat → List Nat → Nat × List Nat
  | 0, n, l => (n, l)
  | k + 1, n, l => if l.contains (opNext n) then opsFold k (opNext n) (l.filter (· != opNext n)) else (n, l)

/-- A quilt commit uses its `OP_ID` (R71). -/
def Dev.useOp (d : Dev) (op : Nat) : Dev :=
  let l := op :: d.quilt.usedOps
  let r := opsFold l.length d.quilt.lastOp l
  d.modQuilt fun q => { q with lastOp := r.1, usedOps := r.2 }

/-- The `OP_ID` under which a slot's remote staging travels: the one it has, else a new one (R71, assumption 20). -/
def Dev.slotOp (d : Dev) (slot : Nat) : Nat × Dev :=
  let have' := d.quilt.slotOp.get (fun _ => 0) slot
  if have' ≠ 0 then (have', d) else
  let n := d.newOp
  (n, d.modQuilt fun q => { q with slotOp := q.slotOp.set (fun _ => 0) slot n })

/-- The stream of a forwarded command: its item, then its host-memory parameters (R86). -/
def Call.stream (c : Call) : List Byte := leBytes 64 c.item.toNat ++ c.bytes

/-- The commands that stage and may name units of other devices. -/
def stagingCodes : List Nat :=
  [0x0301, 0x0410, 0x1001, 0x1002, 0x1004, 0x1201, 0x1304, 0x1305, 0x1401, 0x1402, 0x1501, 0x1503, 0x1504, 0x1601, 0x1602, 0x1802,
   0x1803, 0x2010, 0x2011, 0x2101, 0x3002, 0x3003, 0x3301, 0x3406, 0x3408, 0x4001]

/-- Forward a command to other devices: one `CMD` stream to one device, or for a group of the coordinator one broadcast per link; its
response waits for their `RSP` for at most 2 × hops × 100 µs + 2 ms (R82). A command that stages travels under the `OP_ID` of its
session's staging (assumption 20). -/
def Dev.forward (d : Dev) (c : Call) (devs : List Nat) (w : FwdWait) (bcast : Bool := false) : Waiting × Dev :=
  let w := { w with descs := c.descs }
  let stages := stagingCodes.contains (Item.code c.item)
  let r := if stages then d.slotOp c.slot else (0, d)
  let dst := if bcast then none else match devs with
    | [n] => some n
    | _ => none
  let d := (streamParts c.slot c.stream).foldl (fun d b => d.sendDown .cmd dst r.1 b) r.2
  (.forward { w with devs := devs, deadline := d.now + usCycles (200 * d.hops) + msCycles 2, op := r.1,
                     stream := if stages then some c.stream else none }, d)

end Sys2Proof.Machine
end

