-- ==== Sys2Proof/Machine/Units.lean ====
section
/-! DEFINITION. Power units: their order, figures and leave, which of them run, the steady estimate and the power state (R19, R20,
R477 to R479, R482). -/

namespace Sys2Proof.Machine

/-- A unit's place in the wake order of R482. -/
def PowerUnit.index : PowerUnit → Nat
  | .pll => 0 | .core => 1 | .wb n => 2 + n | .sc n => 6 + n | .lem => 38 | .hbm n => 39 + n | .pipe n => 41 + n
  | .cipher n => 49 + n | .hostIn n => 54 + n | .stIn n => 70 + n | .hostOut n => 78 + n | .stOut n => 94 + n
  | .capt => 102

/-- The unit at a place in the wake order. -/
def PowerUnit.ofIndex (i : Nat) : PowerUnit :=
  if i = 0 then .pll else if i = 1 then .core else if i < 6 then .wb (i - 2) else if i < 38 then .sc (i - 6)
  else if i = 38 then .lem else if i < 41 then .hbm (i - 39) else if i < 49 then .pipe (i - 41)
  else if i < 54 then .cipher (i - 49) else if i < 70 then .hostIn (i - 54) else if i < 78 then .stIn (i - 70)
  else if i < 94 then .hostOut (i - 78) else if i < 102 then .stOut (i - 94) else .capt

/-- Every unit, in wake order. -/
def PowerUnit.all : List PowerUnit := (List.range 103).map PowerUnit.ofIndex

/-- The patch that names a unit in events (R482); the system PLL is named by `power`. -/
def PowerUnit.patch : PowerUnit → Patch
  | .pll => ⟨.power, 0⟩ | .core => ⟨.line, 0⟩ | .wb n => ⟨.wideband, n⟩ | .sc n => ⟨.subcarrier, n⟩ | .lem => ⟨.sram, 2⟩
  | .hbm n => ⟨.hbm, n⟩ | .pipe n => ⟨.pipeline, n⟩ | .cipher n => ⟨.cipher, n⟩
  | .hostIn n => ⟨.hostLane, n⟩ | .hostOut n => ⟨.hostLane, n⟩ | .stIn n => ⟨.stitchLane, n⟩ | .stOut n => ⟨.stitchLane, n⟩
  | .capt => ⟨.capture, 0⟩

/-- The state of a unit. -/
def Dev.unit (d : Dev) (u : PowerUnit) : UnitSt := d.power.units.get (fun _ => {}) u.index

/-- Change a unit's state. -/
def Dev.setUnit (d : Dev) (u : PowerUnit) (x : UnitSt) : Dev :=
  { d with power := { d.power with units := d.power.units.set (fun _ => {}) u.index x } }

/-- The unit runs (R483). -/
def Dev.runs (d : Dev) (u : PowerUnit) : Bool := (d.unit u).phase == .running

/-- A wake of the unit is waiting or in progress (R26, R481). -/
def Dev.waking (d : Dev) (u : PowerUnit) : Bool :=
  (d.unit u).phase == .queued || (d.unit u).phase == .granted || (d.unit u).phase == .starting

/-- The unit is asleep, with no wake under way. -/
def Dev.asleep (d : Dev) (u : PowerUnit) : Bool := (d.unit u).phase == .asleep

/-- The units that run, in wake order. -/
def Dev.running (d : Dev) : List PowerUnit := PowerUnit.all.filter d.runs

/-- The converter core runs in narrow mode. -/
def Dev.narrow (d : Dev) : Bool := d.runs .core && !d.power.coreFull

/-- The converter core runs in full mode (DESIGN CHOICE, assumption 40). -/
def Dev.fullMode (d : Dev) : Bool := d.runs .core && d.power.coreFull

/-- The wideband tile that serves a subcarrier: its band quarter's, or WB0 in narrow mode (R17, R18). -/
def Dev.bandTile (d : Dev) (n : Nat) : PowerUnit := if d.power.coreFull then .wb (n / 8) else .wb 0

/-- The subcarrier's band passes between its tile and the line: the core and its wideband tile run (R17, R18). -/
def Dev.bandUp (d : Dev) (n : Nat) : Bool := d.runs .core && d.runs (d.bandTile n)

/-- A unit of the TC family: every unit but the system PLL itself (R15, R19). -/
def PowerUnit.tcFamily (u : PowerUnit) : Bool := u != .pll

/-- The `VDD_TILE` ramp of a unit's wake in µs, 0 for none (R478). -/
def Dev.rampUs (d : Dev) : PowerUnit → Nat
  | .wb n => if n = 0 ∧ ¬d.power.coreFull then 2 else 8
  | .sc _ => 2
  | .pipe _ => 4
  | .cipher _ => 4
  | _ => 0

/-- The rate code of the committed port on a host lane: 0 53.125, 1 106.25, 2 212.5 Gb/s; 2 while no port holds it (R478).
`rateOf` gives the committed port's. -/
def laneFigure (rate : Nat) : Nat := if rate = 0 then 150 else if rate = 1 then 200 else 280

/-- The figure of a unit in mW (R478), with the core in full mode or not and the lane rate given. -/
def PowerUnit.figure (full : Bool) (rate : Nat) : PowerUnit → Nat
  | .pll => 440
  | .core => if full then 15000 else 900
  | .wb n => if n = 0 ∧ ¬full then 240 else 3000
  | .sc _ => 600
  | .lem => 300
  | .hbm _ => 3200
  | .pipe _ => 1100
  | .cipher _ => 1600
  | .hostIn _ => laneFigure rate
  | .hostOut _ => laneFigure rate
  | .stIn _ => 280
  | .stOut _ => 280
  | .capt => 400

/-- The leave request of a unit's wake in mW (R478). -/
def PowerUnit.leave (full : Bool) : PowerUnit → Nat
  | .core => if full then 16200 else 1050
  | u => u.figure full 2

/-- How long a unit's leave is held from its start, in AC cycles, without any initial calibration (R478) (DESIGN CHOICE, assumption 39). -/
def PowerUnit.holdFor (full : Bool) : PowerUnit → Nat
  | .pll => msCycles 2
  | .core => if full then msCycles 10 else msCycles 5
  | .wb _ => usCycles 200
  | .sc _ => usCycles 100
  | .lem => usCycles 100
  | .hbm _ => msCycles 5
  | .pipe _ => usCycles 50
  | .cipher _ => usCycles 50
  | .capt => usCycles 50
  | _ => usCycles 100

/-- The power state that follows from a role, a stitch declaration, the core's mode, the PCIe link and the set of running units (R20). -/
def powerStateOf (role : DevRole) (stitch full link : Bool) (r : PowerUnit → Bool) : PowerState :=
  let all (l : List PowerUnit) : Bool := l.all r
  let cnt (l : List PowerUnit) : Nat := (l.filter r).length
  let scs := (List.range 32).map PowerUnit.sc
  let lanes := (List.range 16).map PowerUnit.hostIn ++ (List.range 16).map PowerUnit.hostOut
  let stitches := (List.range 8).map PowerUnit.stIn ++ (List.range 8).map PowerUnit.stOut
  let wbs := (List.range 4).map PowerUnit.wb
  let packet := (List.range 8).map PowerUnit.pipe ++ (List.range 5).map PowerUnit.cipher ++ (List.range 2).map PowerUnit.hbm
  if !r .pll then .dormant
  else if role == .leaf && r .core && !full && r (.wb 0) && cnt wbs == 1 && cnt scs == 1 && cnt packet == 0 &&
      !r .lem && cnt lanes == 0 && cnt stitches == 0 then .listen
  else if r .core && full && all wbs && all scs && all packet && (r .lem == (role == .hub)) && all lanes &&
      (!stitch || all stitches) && link then .full
  else .part

/-- The power state the device reports (R20). -/
def Dev.powerState (d : Dev) : PowerState :=
  powerStateOf d.role (d.conf .stitchUse == 1) d.power.coreFull (d.ctl.pcie == .l0) d.runs

/-- The unit a lane patch names in one direction, and the units other patches name (R481): `dir` bit 0 ingress, bit 1
egress. -/
def Patch.units (p : Patch) (dir : Nat) : List PowerUnit :=
  match p.cls with
  | .line => [.core]
  | .wideband => [.wb p.inst]
  | .subcarrier => [.sc p.inst]
  | .pipeline => [.pipe p.inst]
  | .cipher => [.cipher p.inst]
  | .hbm => [.hbm p.inst]
  | .sram => if p.inst = 2 then [.lem] else []
  | .capture => [.capt]
  | .hostLane => (if bit dir 0 then [.hostIn p.inst] else []) ++ (if bit dir 1 then [.hostOut p.inst] else [])
  | .stitchLane => (if bit dir 0 then [.stIn p.inst] else []) ++ (if bit dir 1 then [.stOut p.inst] else [])
  | _ => []

/-- A line unit: converter core, wideband tile or subcarrier tile (R22). -/
def PowerUnit.isLine : PowerUnit → Bool
  | .core | .wb _ | .sc _ => true
  | _ => false

end Sys2Proof.Machine
end

