-- ==== Sys2Proof/Machine/Serve.lean ====
section
/-! DEFINITION. How the controller serves a host command: the choice of the next command (R52), the order of checks (R569),
staging into the basting area (R66 to R70, R567), group reads (R67) and the answer (R53, R54). -/

namespace Sys2Proof.Machine

/-! ### The next command (R52) -/

/-- The codes of the Lulon set; any other completes with `BAD_COMMAND` (R55). -/
def knownCodes : List Nat :=
  List.flatten [
    [0x0101, 0x0102, 0x0103, 0x0104, 0x0105, 0x0106, 0x0107, 0x0210, 0x0211, 0x0220, 0x0230, 0x0231, 0x0301, 0x0302, 0x0303, 0x0401],
    [0x0402, 0x0403, 0x0404, 0x0405, 0x0410, 0x0411, 0x0501, 0x0502, 0x0503, 0x1001, 0x1002, 0x1003, 0x1004, 0x1010, 0x1011, 0x1012],
    [0x1020, 0x1021, 0x1022, 0x1101, 0x1102, 0x1103, 0x1104, 0x1105, 0x1106, 0x1107, 0x1201, 0x1202, 0x1203, 0x1204, 0x1205, 0x1206],
    [0x1207, 0x1301, 0x1302, 0x1304, 0x1305, 0x1306, 0x1307, 0x1308, 0x1309, 0x130A, 0x130B, 0x1401, 0x1402, 0x1403, 0x1501, 0x1502],
    [0x1503, 0x1504, 0x1505, 0x1506, 0x1601, 0x1602, 0x1603, 0x1604, 0x1605, 0x1701, 0x1702, 0x1703, 0x1704, 0x1801, 0x1802, 0x1803],
    [0x1804, 0x1805, 0x1806, 0x1807, 0x1808, 0x1809, 0x1820, 0x1821, 0x2001, 0x2002, 0x2003, 0x2004, 0x2010, 0x2011, 0x2012, 0x2013],
    [0x2101, 0x2102, 0x2103, 0x2104, 0x2105, 0x2106, 0x2107, 0x2108, 0x2109, 0x210A, 0x3001, 0x3002, 0x3003, 0x3004, 0x3005, 0x3006],
    [0x3007, 0x3101, 0x3102, 0x3103, 0x3201, 0x3202, 0x3203, 0x3204, 0x3205, 0x3206, 0x3207, 0x3208, 0x3209, 0x320A, 0x3301, 0x3302],
    [0x3401, 0x3402, 0x3403, 0x3404, 0x3405, 0x3406, 0x3407, 0x3408, 0x3409, 0x340A, 0x3801, 0x3802, 0x3803, 0x3804, 0x3805, 0x3806],
    [0x3807, 0x3808, 0x3809, 0x4001, 0x4002, 0x4003, 0x4004, 0x4101, 0x4102, 0x4201, 0x4202, 0x4203, 0x4204, 0x5001, 0x5002, 0x5003],
    [0x5101, 0x5102]]

/-- A slot's next command: the unprocessed one of highest priority, the earliest among equals; none while one is taken and not
answered, or while the slot takes no commands (DESIGN CHOICE, assumption 3). -/
def Slot.nextCmd (s : Slot) : Option (Nat × CmdEntry) :=
  if s.taken.isSome ∨ s.state = .free ∨ s.state = .closed then none else
  let top := s.cmds.foldl (fun m e => max m (Item.prio e.item)) 0
  let i := s.cmds.findIdx (fun e => Item.prio e.item == top)
  s.cmds[i]?.map fun e => (i, e)

/-- The command the controller takes next: round robin among the slots whose next command has the highest priority; none while an image is
checked, or after a failure at boot (R522, R523). -/
def Dev.nextCmd (d : Dev) : Option (Nat × Nat × CmdEntry) :=
  if d.boot.stage = 1 ∨ d.boot.stage = 3 then none else
  let order := (List.range 8).map fun k => (d.ctl.lastServed + 1 + k) % 8
  let cand := order.filterMap fun n => (d.slot n).nextCmd.map fun x => (n, x.1, x.2)
  let top := cand.foldl (fun m x => max m (Item.prio x.2.2.item)) 0
  cand.find? fun x => Item.prio x.2.2.item == top

/-- Take a command out of its command bobbin. -/
def Dev.takeCmd (d : Dev) (slot i : Nat) : Dev :=
  let d := d.modSlot slot fun s => { s with cmds := s.cmds.eraseIdx i }
  { d with ctl := { d.ctl with lastServed := slot } }

/-- The item header is wrong (R569 step 1): `SESSION` other than the slot rung, reserved bits, `PARAM_LEN` beyond the limit of
R50, or a `SEQ` already held (R52). -/
def CmdEntry.badHeader (e : CmdEntry) (slot : Nat) : Bool :=
  let f := Item.field e.item
  f 0 0 8 != slot || f 1 3 5 != 0 || decide (f 6 0 16 > if f 1 2 1 = 1 then 40 else 56) || e.seqHeld

/-- Firmware runs (R522 step 7). -/
def Dev.fwRuns (d : Dev) : Bool := d.boot.stage == 2

/-- The slot does not accept a command of this code in its state (R569 step 2; R44, R523) (DESIGN CHOICE, assumption 21). -/
def Dev.slotRefuses (d : Dev) (slot code : Nat) : Bool :=
  if !d.fwRuns then code != 0x5101
  else match (d.slot slot).state with
    | .claimed => code != 0x0101
    | .challenged => code != 0x0102 && code != 0x0103
    | .opened => code == 0x0101 || code == 0x5101
    | _ => true

/-- The status of the checks of R569 steps 1 to 3, none where all pass (DESIGN CHOICE, assumption 52). -/
def Dev.checkHeader (d : Dev) (slot : Nat) (e : CmdEntry) : Option Status :=
  if e.badHeader slot then some .badParameter
  else if d.slotRefuses slot (Item.code e.item) then some .state
  else if !knownCodes.contains (Item.code e.item) then some .badCommand
  else none

/-- Answer, one after another, the next commands whose code no command of the Lulon set has: they have no step of their own
(R52, R55). At most n of them. -/
def Dev.settle : Nat → Dev → Dev
  | 0, d => d
  | n + 1, d =>
    match d.nextCmd with
    | none => d
    | some (slot, i, e) =>
      if knownCodes.contains (Item.code e.item) then d else
      let st := (d.checkHeader slot e).getD .badCommand
      Dev.settle n ((d.takeCmd slot i).respond slot e.item st)

/-! ### Serving a command -/

/-- What a command's own meaning answers. -/
inductive Ans where
  /-- complete now -/
  | now (st : Status) (r : Res := {})
  /-- complete now, having written the host-memory buffer -/
  | wrote (bytes : List Byte) (r : Res := {})
  /-- respond `ACCEPTED` and keep the operation (R54) -/
  | accept (r : Res := {})
  /-- respond `ACCEPTED`, the operation ending at once with its final status -/
  | ended (st : Status)
  /-- taken, not answered yet -/
  | wait (w : Waiting)
  /-- answered by its own meaning, or dropped without a response -/
  | gone
deriving DecidableEq, Repr

/-- The described buffers, in descriptor order, with the bytes that each takes of those written: its address and the bytes (R51). -/
def scatter : List Item16 → List Byte → List (Nat × List Byte)
  | [], _ => []
  | x :: r, b =>
    let n := bits x.toNat 64 32
    if b.isEmpty then [] else (bits x.toNat 0 64, b.take n) :: scatter r (b.drop n)

/-- Complete a taken command as its meaning answers; `descs` describes its buffers. -/
def Dev.finish (d : Dev) (slot : Nat) (item : Item) (descs : List Item16) : Ans → Dev
  | .now st r => d.respond slot item st r
  | .wrote b r => if slot < 8 then (d.emit (.hostWrite slot (scatter descs b))).respond slot item .ok r else d.respond slot item .ok r b
  | .accept r => (d.respond slot item .accepted r).keepOp slot (Item.seq item) (Item.code item)
  | .ended st =>
    ((d.respond slot item .accepted).keepOp slot (Item.seq item) (Item.code item)).endOp slot (d.slot slot).serial (Item.seq item) st
  | .wait w => d.modSlot slot fun s => { s with taken := some ⟨item, w⟩ }
  | .gone => d

/-- A pin lasts while its session is open (R77). -/
def State.pinHolds (s : State) (p : Pin) : Bool :=
  (s.dev.slot p.slot).state == .opened && (s.dev.slot p.slot).serial == p.serial

/-- The view a session's read commands see: its pin, else the last snapshot (R76, R77) (DESIGN CHOICE, assumption 28). -/
def State.view (s : State) (slot : Nat) : Dev :=
  match s.pins.find? (fun p => p.slot == slot && s.pinHolds p) with
  | some p => p.view
  | none => s.snap

/-- A command's meaning: from the taken call, the answer and the new state. -/
abbrev Body := Call → State → Ans × State

/-- The call that a command item and its buffer make. -/
def Verb.call (v : Verb) (slot : Nat) (role : SessRole) (e : CmdEntry) (hc : HostCall) : Call :=
  let ext := Item.field e.item 1 2 1 == 1
  ⟨slot, role, e.item, ext, if v.shift && ext then 16 else 0, hc.descs, hc.bytes⟩

/-- The patch references of a call's layout. -/
def Verb.patches (v : Verb) (c : Call) : List PatchRef :=
  v.params.filterMap fun p => match p.kind with
    | .patch _ => PatchRef.ofId (c.p p.off p.lo p.w)
    | _ => none

/-- This device coordinates a quilt (R79). -/
def Dev.isCoord (d : Dev) : Bool := d.conf .quiltEnable == 1 && d.conf .devNum == d.conf .coordNum

/-- The devices other than this one that a call's patches name. -/
def Verb.remotes (v : Verb) (c : Call) (d : Dev) : List Nat := ((v.patches c).flatMap d.remoteDevices).eraseDups

/-- A call that reads the members of a group (R67). -/
def Verb.groupRead (v : Verb) (c : Call) : Bool := v.reads && (v.patches c).any (·.group)

/-- The coordinator lists the device as detached (R91, R93). -/
def Dev.isDetached (d : Dev) (n : Nat) : Bool := (d.quilt.detachedList.get (fun _ => none) n).isSome

/-- The least role of a call (R48, R57). -/
def Verb.roleOf (v : Verb) (c : Call) : SessRole :=
  match v.roleBit, v.devRole with
  | some (b, r), _ => if c.p 0 b 1 = 1 then r else v.role
  | none, some r => if (c.patch 0).any (·.cls == .device) then r else v.role
  | none, none => v.role

/-- A session's staged `QUILT.REJOIN` names a device (R92). -/
def Dev.rejoins (d : Dev) (slot n : Nat) : Bool :=
  (d.cfg.staged.filter (·.owner == slot)).any fun e => e.vals.any fun v => v.fld == .rejoin && v.idx == n

/-- The status of the checks of R569 steps 4 to 8 for a taken command, none where all pass (DESIGN CHOICE, assumption 59). -/
def Verb.check (v : Verb) (c : Call) (d : Dev) : Option Status :=
  let free := (d.slot c.slot).state != .opened
  if !free && decide (c.role.code < (v.roleOf c).code) then some .denied
  else match v.checkParams c (Item.field c.item 6 0 16) with
  | some st => some st
  | none =>
    let far := v.remotes c d
    if !far.isEmpty && !d.isCoord then some .notCoordinator
    else if !v.groupRead c && far.any (fun n => d.isDetached n && !d.rejoins c.slot n) then some .detached
    else if c.ext && d.ctl.pcie != .l0 && d.ctl.pcie != .l1 then some .state
    else none

/-- Replace a session's group-read record (R67). -/
def Dev.setGroupRec (d : Dev) (slot read notRead : Nat) (mixed : Bool) (oldest newest : QTime) : Dev :=
  if slot ≥ 8 then d else d.modSlot slot fun s => { s with groupRec := ⟨read, notRead, mixed, oldest, newest⟩ }

/-- The groups of other devices that a member stands for and that those open themselves: the device of each (R65). -/
def Dev.hiddenGroups (d : Dev) : Nat → Member → List Nat
  | 0, _ => []
  | n + 1, m =>
    if m.group then
      match d.groupHere (d.memberDev m) with
      | some own => (d.groupMembers own m.cls m.inst).flatMap (d.hiddenGroups n)
      | none => [d.memberDev m]
    else []

/-- How many units of another device a call's patches name; of a group that only that device knows, their number is open, 1 to 4,096 (R65, R67,
assumption 1). -/
def Verb.share (v : Verb) (c : Call) (d : Dev) (dev : Nat) : Nat × Dev :=
  let n := ((v.patches c).map fun r => ((d.expand r).filter (·.1 == dev)).length).sum
  let h := ((v.patches c).map fun r => ((d.hiddenGroups 5 ⟨some r.dev, r.group, r.cls, r.inst⟩).filter (· == dev)).length).sum
  if h = 0 then (n, d) else
  let r := d.draw
  (n + r.1 % (4095 * h + 1), r.2)

/-- How many units of some devices a call's patches name. -/
def Verb.shares (v : Verb) (c : Call) (d : Dev) (devs : List Nat) : Nat × Dev :=
  devs.foldl (fun r n => let x := v.share c r.2 n; (r.1 + x.1, x.2)) (0, d)

/-- The call names a group that this device holds: it is forwarded as a broadcast (R82). -/
def Verb.ownGroup (v : Verb) (c : Call) (d : Dev) : Bool := (v.patches c).any fun r => r.group && r.dev == d.num

/-- What a command that is forwarded starts with: nothing gathered, and its session's staging as it was before the command (R66, R67). -/
def FwdWait.start (groupRead : Bool) (before : List Entry) : FwdWait := { groupRead := groupRead, before := before }

/-- A command that names units of other devices is run on this device's own units and forwarded to the others, whose `RSP` its
response waits for; one that fails here is not forwarded. A group's read leaves out the devices that are detached (R66, R67, R82,
assumption 20). -/
def serveOn (v : Verb) (body : Body) (c : Call) (s : State) : Ans × State :=
  let far := v.remotes c s.dev
  if far.isEmpty then body c s
  else if c.ext && decide (c.bytes.length > 16384) then (.now .outOfRange, s)
  else
    let near := (v.patches c).any fun r => !(s.dev.localInstances r).isEmpty
    let r := if near then body c s else (.now .ok, s)
    let g := (r.2.dev.slot c.slot).groupRec
    let up := if v.groupRead c then far.filter (!s.dev.isDetached ·) else far
    let lost := v.shares c r.2.dev (far.filter (!up.contains ·))
    let r := (r.1, { r.2 with dev := lost.2 })
    let w := { FwdWait.start (v.groupRead c) (s.dev.cfg.staged.filter (·.owner == c.slot)) with
      notRead := lost.1 + if near then g.notRead else 0 }
    let go := fun (w : FwdWait) =>
      let f := r.2.dev.forward c up w (v.ownGroup c s.dev)
      (.wait f.1, { r.2 with dev := f.2 })
    let own := fun (x : Res) (b : List (Nat × List Byte)) =>
      { w with len := x.len, acc := [(s.dev.num, x.v)], bufs := b, read := g.read, mixed := g.mixed, times := [g.oldest, g.newest] }
    let done := fun (x : Res) (b : List (Nat × List Byte)) =>
      let w := if near then own x b else w
      if up.isEmpty then
        let d := r.2.dev.setGroupRec c.slot w.read w.notRead w.mixed g.oldest g.newest
        (if w.read = 0 then .now .state else r.1, { r.2 with dev := d })
      else go w
    match r.1 with
    | .now .ok x => done x []
    | .wrote b x => done x [(s.dev.num, b)]
    | .now .state x =>
      if !v.groupRead c then (.now .state, r.2)
      else if up.isEmpty then (.now .state, { r.2 with dev := r.2.dev.setGroupRec c.slot 0 w.notRead false g.oldest g.newest })
      else go { w with len := x.len }
    | a => (a, r.2)

/-- Serve the command of a slot whose verb this is, if it is the controller's next command; nothing happens otherwise
(assumption 3). -/
def serve (v : Verb) (body : Body) (hc : HostCall) (s : State) : State :=
  match s.dev.nextCmd with
  | none => s
  | some (slot, i, e) =>
    if slot ≠ hc.slot ∨ Item.code e.item ≠ v.code then s else
    let d := s.dev.takeCmd slot i
    let c := v.call slot (d.slot slot).role e hc
    match (d.checkHeader slot e).orElse fun _ => v.check c d with
    | some st => { s with dev := (d.respond slot e.item st).settle 256 }
    | none =>
      let r := serveOn v body c { s with dev := d }
      { r.2 with dev := (r.2.dev.finish slot e.item hc.descs r.1).settle 256 }

/-- A meaning that reads and changes the device alone. -/
def onDev (f : Call → Dev → Ans × Dev) : Body := fun c s =>
  let r := f c s.dev
  (r.1, { s with dev := r.2 })

/-- A meaning that only reads the session's view (R76) (DESIGN CHOICE, assumption 28). -/
def onView (f : Call → Dev → Ans) : Body := fun c s => (f c (s.view c.slot), s)

/-- The meaning of a host command as a step. -/
def runVerb (v : Verb) (body : Body) (c : HostCall) (s : State) : Host.Outcome State Fault Refusal :=
  s.runAll (serve v body c)

/-! ### Staging (R66 to R70, R567) -/

/-- A staged field of w bits. -/
def fv (f : Fld) (i v : Nat) (w : Nat := 32) : FieldVal := ⟨f, i, v, ceilDiv w 8⟩

/-- What a command stages: patches, each with its fields. -/
abbrev Staging := List (Patch × List FieldVal)

/-- A patch belongs to a commit that has been accepted and not yet applied; one with a generation of rules holds both classifiers
(R69, R417). -/
def Dev.locked (d : Dev) (p : Patch) : Bool :=
  d.cfg.commits.any fun c => c.phase != .ending && (c.entries.any (fun e => e.patch == p) || (c.rules.isSome && p.cls == .classifier))

/-- Another session holds staging on the patch, or a commit locks it (R69, R417). -/
def Dev.refusesStaging (d : Dev) (owner : Nat) (p : Patch) : Bool :=
  d.locked p || d.cfg.staged.any (fun e => e.patch == p && e.owner != owner) ||
  (p.cls == .classifier && d.pkt.staged.any (·.1 != owner))

/-- A later value replaces an earlier one of the same field, in its place (R68, R112). -/
def mergeVal (old : List FieldVal) (n : FieldVal) : List FieldVal :=
  if old.any (fun o => o.fld == n.fld && o.idx == n.idx) then
    old.map fun o => if o.fld = n.fld ∧ o.idx = n.idx then n else o
  else old ++ [n]

/-- Later values replace earlier ones of the same field (R68). -/
def mergeVals (old new : List FieldVal) : List FieldVal := new.foldl mergeVal old

/-- Stage fields in the entry of one patch of an owner. -/
def stageIn (owner : Nat) : List Entry → Patch × List FieldVal → List Entry
  | [], (p, v) => [⟨owner, p, mergeVals [] v⟩]
  | e :: r, (p, v) =>
    if e.owner = owner ∧ e.patch = p then { e with vals := mergeVals e.vals v } :: r else e :: stageIn owner r (p, v)

/-- A field staged again leaves the patch that held it before; a patch left with none is held no longer (R68, R567). -/
def Entry.without (owner : Nat) (x : Patch × List FieldVal) (e : Entry) : Option Entry :=
  if e.owner ≠ owner ∨ e.patch = x.1 then some e else
  let vals := e.vals.filter fun o => !x.2.any fun n => n.fld == o.fld && n.idx == o.idx
  if vals.isEmpty && !e.vals.isEmpty then none else some { e with vals := vals }

/-- Stage fields of one patch for an owner: the later value of a field replaces the earlier one wherever it is held (R68). -/
def stageOne (owner : Nat) (l : List Entry) (x : Patch × List FieldVal) : List Entry :=
  stageIn owner (l.filterMap (Entry.without owner x)) x

/-- The bytes of staged values of some entries (R70) (DESIGN CHOICE, assumption 150). -/
def entryBytes (l : List Entry) : Nat := (l.map fun e => (e.vals.map (·.bytes)).sum).sum

/-- Every entry of the basting area: staged, or of a commit not yet applied (R70). -/
def Dev.basting (d : Dev) : List Entry :=
  d.cfg.staged ++ (d.cfg.commits.filter (·.phase != .ending)).flatMap (·.entries)

/-- Stage for an owner, all or nothing: `STAGED_CONFLICT`, `LIMIT_REACHED`, or staged (R66, R69, R70). -/
def Dev.stage (d : Dev) (owner : Nat) (l : Staging) : Status × Dev :=
  if l.any (fun x => d.refusesStaging owner x.1) then (.stagedConflict, d) else
  let staged := l.foldl (stageOne owner) d.cfg.staged
  let d' := { d with cfg := { d.cfg with staged := staged } }
  let b := d'.basting
  if b.length > 16384 ∨ entryBytes b > 262144 then (.limitReached, d) else (.ok, d')

/-- Stage and answer. -/
def Dev.stageAns (d : Dev) (c : Call) (l : Staging) : Ans × Dev :=
  let r := d.stage c.slot l
  (.now r.1, r.2)

/-- The instances a call's patch at layout offset o names on this device (DESIGN CHOICE, assumption 61). -/
def Call.insts (c : Call) (d : Dev) (o : Nat := 0) : List Nat :=
  match c.patch o with
  | some r => d.localInstances r
  | none => []

/-- The class of a call's patch at layout offset o. -/
def Call.cls (c : Call) (o : Nat := 0) : PClass :=
  match c.patch o with
  | some r => r.cls
  | none => .device

/-- A staging command that names a patch or a group at layout offset 0: each unit's own check, then its fields, all units or
none (R66). -/
def stageEach (chk : Call → Dev → Nat → Option Status) (vals : Call → Dev → Nat → List FieldVal) : Body :=
  onDev fun c d =>
    let l := c.insts d
    match l.findSome? (chk c d) with
    | some st => (.now st, d)
    | none => d.stageAns c (l.map fun i => (⟨c.cls, i⟩, vals c d i))

/-- A staging command that names no patch: its own check, then its fields held on the given patch (R567). -/
def stageOn (p : Patch) (chk : Call → Dev → Option Status) (vals : Call → Dev → List FieldVal) : Body :=
  onDev fun c d =>
    match chk c d with
    | some st => (.now st, d)
    | none => d.stageAns c [(p, vals c d)]

/-- As `stageOn`, on the patch that the call's own parameters decide (R567). -/
def stageAt (p : Call → Patch) (chk : Call → Dev → Option Status) (vals : Call → Dev → List FieldVal) : Body :=
  onDev fun c d =>
    match chk c d with
    | some st => (.now st, d)
    | none => d.stageAns c [(p c, vals c d)]

/-- The value a session has staged for a field, none where it has not. -/
def Dev.stagedVal (d : Dev) (owner : Nat) (f : Fld) (i : Nat) : Option Nat :=
  (d.cfg.staged.filter (·.owner == owner)).findSome? fun e =>
    (e.vals.find? fun v => v.fld == f && v.idx == i).map (·.val)

/-- The value a session sees for a field: staged by it, else committed (DESIGN CHOICE, assumption 194). -/
def Dev.seen (d : Dev) (owner : Nat) (f : Fld) (i : Nat := 0) : Nat := (d.stagedVal owner f i).getD (d.conf f i)

/-- Any session has staged the field with a value that passes the test, or an accepted commit carries it. -/
def Dev.anyStaged (d : Dev) (f : Fld) (i : Nat) (t : Nat → Bool) : Bool :=
  d.basting.any fun e => e.vals.any fun v => v.fld == f && v.idx == i && t v.val

/-- The configuration needs a unit that neither runs nor has a wake accepted (R26). -/
def Dev.lacks (d : Dev) (u : PowerUnit) : Bool := !(d.runs u || d.waking u)

/-- First status of a list of conditions in order. -/
def firstOf : List (Bool × Status) → Option Status
  | [] => none
  | (b, st) :: r => if b then some st else firstOf r

/-! ### Reads (R67) -/

/-- How a group read combines a field (R67): the most severe in an order, the most severe value first, sum, unsigned or signed minimum or maximum,
largest magnitude, bits set in any, or configured value. -/
inductive Agg where
  | severe (order : List Nat) | sum | minU | minS | maxU | maxS | maxAbs | or | conf
deriving DecidableEq, Repr

/-- A field of a read's result: where it stands, its value and how it combines. -/
structure RField where
  bf : Bf
  agg : Agg
deriving DecidableEq, Repr

/-- Combine two members' values of one field; the flag says that a configured value differs (DESIGN CHOICE, assumption 64). -/
def Agg.join (w : Nat) (a b : Nat) : Agg → Nat × Bool
  | .severe o => (if o.findIdx (· == b) < o.findIdx (· == a) then b else a, false)
  | .sum => ((a + b) % 2 ^ w, false)
  | .minU => (min a b, false)
  | .minS => (if signed w b < signed w a then b else a, false)
  | .maxU => (max a b, false)
  | .maxS => (if signed w a < signed w b then b else a, false)
  | .maxAbs => (if (signed w a).natAbs < (signed w b).natAbs then b else a, false)
  | .or => (a ||| b, false)
  | .conf => (a, a != b)

/-- Combine the fields of two members, the lower-numbered first (DESIGN CHOICE, assumption 63). -/
def joinFields (x y : List RField) : List RField × Bool :=
  let z := List.zipWith (fun a b => (a, Agg.join a.bf.w a.bf.v b.bf.v a.agg)) x y
  (z.map fun p => { p.1 with bf := { p.1.bf with v := p.2.1 } }, z.any (·.2.2))

/-- Combine the fields of every member read (DESIGN CHOICE, assumption 63). -/
def joinAll : List (List RField) → List RField × Bool
  | [] => ([], false)
  | x :: r => r.foldl (fun a y => let j := joinFields a.1 y; (j.1, a.2 || j.2)) (x, false)

/-- A read of a unit or a group: `n` result bytes from each member's fields, `STATE` where the unit, or every member, cannot be
read (R67). -/
def readEach (n : Nat) (f : Call → Dev → Nat → Option (List RField)) : Body := fun c s =>
  let v := s.view c.slot
  let insts := c.insts v
  let got := insts.filterMap (f c v)
  let isGroup := match c.patch 0 with | some r => r.group | none => false
  let j := joinAll got
  let dev := if isGroup then
      s.dev.setGroupRec c.slot got.length (insts.length - got.length) j.2 v.cfg.snapTime v.cfg.snapTime else s.dev
  if got.isEmpty then (.now .state, { s with dev := dev })
  else (.now .ok (res n (j.1.map (·.bf))), { s with dev := dev })

/-- A result field of each kind. -/
def rf (a : Agg) (o lo w v : Nat) : RField := ⟨at' o lo w v, a⟩

end Sys2Proof.Machine
end

