-- ==== Sys2Proof/Machine/Classify.lean ====
section
/-! DEFINITION. Parsing and classification: tags, profiles, layer and length checks, keys and lookup, the generations of rules and
their commands (R398 to R423). -/

namespace Sys2Proof.Machine

/-! ### Access -/

/-- Change the packet engine. -/
def Dev.modPkt (d : Dev) (f : PktSt → PktSt) : Dev := { d with pkt := f d.pkt }

/-- n occurrences of something that is reported at most once per second, with how many there were in the last second. -/
def Dev.perSecond (d : Dev) (key n : Nat) (say : Dev → Nat → Dev) : Dev :=
  let e := (d.pkt.epis.get (fun _ => {}) key).add d.now n
  let d := d.modPkt fun p => { p with epis := p.epis.set (fun _ => {}) key e.2 }
  match e.1 with
  | some c => say d c
  | none => d

/-- The patch of a classifier: 0 transmit, 1 receive (R64). -/
def clsPatch (rx : Bool) : Patch := ⟨.classifier, b2n rx⟩

/-! ### Reading a frame (R398 to R405) -/

/-- A byte of a frame; at and beyond its FCS 0 (R402). -/
def frameByte (f : List Byte) (o : Nat) : Nat := if o + 4 < f.length then (f.getD o 0).toNat else 0

/-- A 16-bit value of a frame. -/
def frame16 (f : List Byte) (o : Nat) : Nat := frameByte f o * 256 + frameByte f (o + 1)

/-- A value is a tag (R398). -/
def RuleGen.isTag (g : RuleGen) (v : Nat) : Bool := v == 0x8100 || v == 0x88A8 || v == g.tpid3

/-- The tag count and the offset of `E`, none for three tags (R398). -/
def RuleGen.tags (g : RuleGen) (f : List Byte) : Option (Nat × Nat) :=
  if !g.isTag (frame16 f 12) then some (0, 12)
  else if !g.isTag (frame16 f 16) then some (1, 16)
  else if !g.isTag (frame16 f 20) then some (2, 20)
  else none

/-- What a selection entry is tested against: direction, recirculation pass, tag count, `E` for selection, ingress port (R399). -/
structure SelKey where
  rx : Bool
  recirc : Bool
  tags : Nat
  etype : Nat
  port : Option Nat
deriving DecidableEq, Repr

/-- A selection entry matches (R399). -/
def SelEntry.matches (e : SelEntry) (k : SelKey) : Bool :=
  e.rx == k.rx && (e.pass == 2 || e.pass == b2n k.recirc) && (e.tags == 3 || e.tags == k.tags) && (k.etype &&& e.mask) == e.etype &&
  (k.rx || match k.port with
    | some p => bit e.ports p
    | none => false)

/-- The profile that the first matching entry names (R399). -/
def RuleGen.select (g : RuleGen) (k : SelKey) : Option Nat :=
  (List.range 64).findSome? fun i => match g.sel.get (fun _ => none) i with
    | some e => if e.matches k then some e.profile else none
    | none => none

/-- A profile of a generation. -/
def RuleGen.profile (g : RuleGen) (n : Nat) : Option Profile := g.prof.get (fun _ => none) n

/-- Offsets of a packet's layers under a profile: L3, UDP and eCPRI headers (R403). -/
def Profile.udpOff (p : Profile) (l3 : Nat) : Nat := if p.l3 = 1 then l3 + 20 else l3 + 40

/-- The eCPRI checks apply to the packet: over UDP only where the destination port is `ECPRI_PORT` (R403) (DEDUCED, assumption 135). -/
def Profile.hasEcpri (p : Profile) (g : RuleGen) (f : List Byte) (l3 : Nat) : Bool :=
  p.ecpri == 1 || (p.ecpri == 2 && g.ecpriPort != 0 && frame16 f (p.udpOff l3 + 2) == g.ecpriPort)

/-- Where the eCPRI header stands (R403). -/
def Profile.ecpriOff (p : Profile) (l3 : Nat) : Nat := if p.ecpri = 1 then l3 else p.udpOff l3 + 8

/-- Every declared layer stands at its offset (R403) (DEDUCED, assumption 135). -/
def Profile.layersOk (p : Profile) (g : RuleGen) (f : List Byte) (l3 : Nat) : Bool :=
  (p.l3 != 1 || frameByte f l3 == 0x45) &&
  (p.l3 != 2 || (frameByte f l3 / 16 == 6 && (!p.udp || frameByte f (l3 + 6) == 17))) &&
  (!(p.l3 == 1 && p.udp) || (frameByte f (l3 + 9) == 17 && frame16 f (l3 + 6) % 0x4000 == 0)) &&
  (!p.hasEcpri g f l3 || frameByte f (p.ecpriOff l3) / 16 == 1)

/-- A declared length n at an offset contradicts a frame of Lf bytes: the padding of a minimum frame is allowed (R404). -/
def lengthWrong (lf o n : Nat) : Bool :=
  let a : Int := (lf : Int) - 4 - o
  decide ((n : Int) > a) || (decide ((n : Int) < a) && decide (lf > 64))

/-- The length fields contradict the frame (R404). -/
def Profile.lengthsWrong (p : Profile) (g : RuleGen) (f : List Byte) (l3 e : Nat) : Bool :=
  let lf := f.length
  let tl := frame16 f (l3 + 2)
  let pl := frame16 f (l3 + 4)
  let ip := if p.l3 = 1 then tl - 20 else pl
  let uo := p.udpOff l3
  let u := frame16 f (uo + 4)
  let eo := p.ecpriOff l3
  let n := 4 + frame16 f (eo + 2)
  let more := frameByte f eo % 2 == 1
  (decide (e < 0x600) && (decide (e > 1500) || lengthWrong lf l3 e)) ||
  (p.l3 == 1 && (decide (tl < 20) || lengthWrong lf l3 tl)) ||
  (p.l3 == 2 && (pl == 0 || lengthWrong lf l3 (40 + pl))) ||
  (p.udp && (decide (u < 8) || u != ip)) ||
  (p.hasEcpri g f l3 &&
    if p.ecpri = 2 then (if more then decide (n > u - 8) else n != u - 8)
    else if more then decide ((n : Int) > (lf : Int) - 4 - eo) else lengthWrong lf eo n)

/-- The key that a profile cuts out of a frame (R401, R402). -/
def Profile.key (p : Profile) (f : List Byte) : List Byte :=
  p.exts.flatMap fun x => (List.range x.len).map fun i =>
    let b := frameByte f (x.off + i)
    BitVec.ofNat 8 (if i = 0 then (b / 16 &&& x.mask) * 16 + b % 16 else b)

/-- `KEY_LEN` of a profile (R401). -/
def Profile.keyLen (p : Profile) : Nat := (p.exts.map (·.len)).sum

/-- The first express entry that matches: its index and flow (R408). -/
def RuleGen.expressFlow (g : RuleGen) (rx : Bool) (profile : Nat) (key : List Byte) : Option (Nat × Nat) :=
  let k := padTo 8 key
  (List.range 256).findSome? fun i => match g.express.get (fun _ => none) (256 * b2n rx + i) with
    | some e => if e.profile = profile ∧ List.zipWith (· &&& ·) k e.mask8 = e.key8 then some (i, e.flow) else none
    | none => none

/-- The entry of the exact-match table for a key (R406). -/
def RuleGen.lookup (g : RuleGen) (rx : Bool) (profile : Nat) (key : List Byte) : Option ClassEntry :=
  g.table.find? fun e => e.rx == rx && e.profile == profile && e.key == padTo 48 key

/-- The outcome of a pass: an exception class (R415), or a flow, whether as express, and whether the table missed. -/
inductive Verdict where
  | exception (cls : Nat)
  | flow (idx : Nat) (express missed : Bool)
deriving DecidableEq, Repr

/-- A packet's examination, in the order of R405. -/
def RuleGen.classify (g : RuleGen) (rx recirc : Bool) (port : Option Nat) (f : List Byte) : Verdict :=
  match g.tags f with
  | none => .exception 1
  | some (n, o) =>
    let e := frame16 f o
    let l3 := o + 2
    match g.select ⟨rx, recirc, n, if e < 0x600 then 0 else e, port⟩ with
    | none => .exception 3
    | some k =>
      match g.profile k with
      | none => .exception 3
      | some p =>
        if !p.layersOk g f l3 then .exception 1
        else if p.lenCheck && p.lengthsWrong g f l3 e then .exception 2
        else
          let key := p.key f
          match if p.express then g.expressFlow rx k key else none with
          | some x => .flow x.2 true false
          | none =>
            match g.lookup rx k key with
            | some x => .flow x.flow false false
            | none => if p.miss = 0xFFFF then .exception 4 else .flow p.miss false true

/-! ### The staged generation (R417 to R419) -/

/-- The generation that a session's commands work on: the one it has staged, or a copy of the active one (R417). -/
def Dev.ownGen (d : Dev) (owner : Nat) : RuleGen :=
  match d.pkt.staged.filter (·.1 == owner) with
  | some (_, g) => g
  | none => d.pkt.active

/-- A session cannot open a staged generation: the former one is resident (R419). -/
def Dev.genShut (d : Dev) (owner : Nat) : Bool := d.pkt.former.isSome && (d.pkt.staged.filter (·.1 == owner)).isNone

/-- Another session stages a generation, or a commit holds the classifiers (R69, R417). -/
def Dev.genHeld (d : Dev) (owner : Nat) : Bool :=
  d.refusesStaging owner (clsPatch false) || d.refusesStaging owner (clsPatch true)

/-- Hold a staged generation for a session. -/
def Dev.stageGen (d : Dev) (owner : Nat) (g : RuleGen) : Dev := d.modPkt fun p => { p with staged := some (owner, g) }

/-- What keeps a session from staging a generation, once a command's own checks have passed: the former generation, then another
session's staging (R417, R419, R569 steps 10 and 11). -/
def Dev.genRefused (d : Dev) (owner : Nat) : Option Status :=
  firstOf [(d.genShut owner, .state), (d.genHeld owner, .stagedConflict)]

/-- A changed generation: a command's own checks come first (R417, R569). -/
def Dev.changeGen (d : Dev) (owner : Nat) (f : RuleGen → Except Status RuleGen) : Except Status RuleGen :=
  match f (d.ownGen owner) with
  | .error st => .error st
  | .ok g => match d.genRefused owner with
    | some st => .error st
    | none => .ok g

/-- A `PARSE` or `CLASS` staging command: the status of its own check, or the changed generation (R417). -/
def stageRules (f : Call → RuleGen → Except Status RuleGen) : Body :=
  onDev fun c d =>
    match d.changeGen c.slot (f c) with
    | .error st => (.now st, d)
    | .ok g => (.now .ok, d.stageGen c.slot g)

/-- An extractor of a call (R401). -/
def extractorAt (c : Call) (e : Nat) : Extractor :=
  let n := c.p (9 + 2 * e) 0 4
  ⟨c.p (8 + 2 * e) 0 8, if n = 0 then 16 else n, c.p (9 + 2 * e) 4 4⟩

/-- PARSE.PROFILE (R401). -/
def verbParseProfile : Verb where
  code := 0x3101
  role := .operator
  len := 24
  params := [⟨0, 7, 1, .rsv⟩, ⟨1, 0, 2, .enum [0, 1, 2]⟩, ⟨1, 3, 2, .enum [0, 1, 2]⟩, ⟨1, 6, 2, .rsv⟩, ⟨2, 0, 4, .range 0 8⟩,
    ⟨2, 4, 4, .rsv⟩, ⟨3, 1, 7, .rsv⟩, ⟨6, 0, 16, .rsv⟩] ++ (List.range 8).map fun e => ⟨8 + 2 * e, 0, 8, .range 0 159⟩

/-- The profile of a call (R401). -/
def profileOf (c : Call) : Profile :=
  ⟨c.p 1 0 2, c.p 1 2 1 == 1, c.p 1 3 2, c.p 1 5 1 == 1, (List.range (c.p 2 0 4)).map (extractorAt c), c.p 3 0 1 == 1, c.p 4 0 16⟩

/-- A profile that R401 refuses. -/
def Profile.bad (p : Profile) : Bool :=
  decide (p.keyLen > 48) || p.exts.any (fun x => decide (x.off + x.len > 160)) || (p.udp && p.l3 == 0) || (p.ecpri == 2 && !p.udp) ||
  (p.ecpri == 1 && p.l3 != 0)

/-- The meaning of `PARSE.PROFILE`. -/
def bodyParseProfile : Body := stageRules fun c g =>
  let p := profileOf c
  if p.bad then .error .badParameter
  else .ok { g with prof := g.prof.set (fun _ => none) (c.p 0 0 6) (if c.p 0 6 1 = 1 then some p else none) }

/-- PARSE_PROFILE (R401, R417). -/
def execParseProfile (c : HostCall) (s : State) : Host.Outcome State Fault Refusal := runVerb verbParseProfile bodyParseProfile c s

/-- PARSE.SELECT (R400). -/
def verbParseSelect : Verb where
  code := 0x3102
  role := .operator
  len := 12
  params := [⟨1, 0, 2, .enum [0, 1, 2]⟩, ⟨1, 4, 4, .rsv⟩, ⟨2, 6, 2, .rsv⟩, ⟨3, 0, 8, .rsv⟩, ⟨10, 0, 16, .rsv⟩]

/-- The meaning of `PARSE.SELECT`. -/
def bodyParseSelect : Body := stageRules fun c g =>
  let e : SelEntry := ⟨c.p 0 7 1 == 1, c.p 1 0 2, c.p 1 2 2, c.p 2 0 6, c.p 4 0 16, c.p 6 0 16, c.p 8 0 16⟩
  .ok { g with sel := g.sel.set (fun _ => none) (c.p 0 0 6) (if c.p 0 6 1 = 1 then some e else none) }

/-- PARSE_SELECT (R400). -/
def execParseSelect (c : HostCall) (s : State) : Host.Outcome State Fault Refusal := runVerb verbParseSelect bodyParseSelect c s

/-- PARSE.GLOBAL (R421). -/
def verbParseGlobal : Verb where
  code := 0x3103
  role := .operator
  len := 4

/-- The meaning of `PARSE.GLOBAL`. -/
def bodyParseGlobal : Body := stageRules fun c g => .ok { g with tpid3 := c.p 0 0 16, ecpriPort := c.p 2 0 16 }

/-- PARSE_GLOBAL (R421). -/
def execParseGlobal (c : HostCall) (s : State) : Host.Outcome State Fault Refusal := runVerb verbParseGlobal bodyParseGlobal c s

/-! ### The exact-match table (R406, R407, R420) -/

/-- An entry's own checks against its generation, in the order of R420; with `REPLACE`, the entry of the same key gives way. Where it comes
to stand is `settle`'s. -/
def RuleGen.addEntry (g : RuleGen) (e : ClassEntry) (replace : Bool) : Except Status RuleGen :=
  let keyOk := match g.profile e.profile with
    | none => false
    | some p => (e.key.drop p.keyLen).all (· == 0)
  let same := fun (x : ClassEntry) => x.rx == e.rx && x.profile == e.profile && x.key == e.key
  if !keyOk then .error .classProfile
  else if g.table.any same && !replace then .error .classDuplicate
  else if g.table.any (fun x => x.flow == e.flow && !same x) then .error .classIndexBusy
  else if g.table.any same then .ok { g with table := g.table.map fun x => if same x then e else x }
  else .ok { g with table := g.table ++ [e] }

/-- The cells in which an entry may stand under a hash key: the 4 of bucket h_w of each way w (R406, assumption 141). -/
def cellsOf (key : Nat) (e : ClassEntry) : List Nat :=
  (List.range 4).flatMap fun w => (List.range 4).map fun k => 16384 * w + 4 * (Config.cuckooHash key w e.rx e.profile e.key % 4096) + k

/-- Put an entry into one of its cells, moving residents along a cuckoo path of at most n moves: with all its cells taken, an entry of
a free choice gives way and goes on to another of its own (R407) (DESIGN CHOICE, assumption 141). -/
def cuckoo (key : Nat) (table : List ClassEntry) : Nat → ClassEntry → Tab (Option Nat) → Option (Tab (Option Nat))
  | 0, e, t =>
    ((cellsOf key e).find? fun c => (t.get (fun _ => none) c).isNone).map fun c => t.set (fun _ => none) c (some e.flow)
  | n + 1, e, t =>
    match (cellsOf key e).find? fun c => (t.get (fun _ => none) c).isNone with
    | some c => some (t.set (fun _ => none) c (some e.flow))
    | none =>
      let c := (cellsOf key e).getD (Config.cuckooVictim key n e.flow % 16) 0
      match table.find? fun x => t.get (fun _ => none) c == some x.flow with
      | some v => cuckoo key table n v (t.set (fun _ => none) c (some e.flow))
      | none => none

/-- The entries of a table put into its cells one after another. -/
def cuckooAll (key : Nat) (table l : List ClassEntry) (t : Option (Tab (Option Nat))) : Option (Tab (Option Nat)) :=
  l.foldl (fun t e => t.bind (cuckoo key table 1024 e)) t

/-- Every entry of a staged table given a place: how many new hash keys were tried, and the generation; none where 4 keys have found
no place for one. Below 61,440 entries that never happens (R407) (DESIGN CHOICE, assumption 141). -/
def RuleGen.settle (g : RuleGen) : Nat × Option RuleGen :=
  let cells := g.cells.filter fun c => g.table.any fun e => c.2 == some e.flow
  let new := g.table.filter fun e => !cells.any fun c => c.2 == some e.flow
  match if g.table.length > 65536 then none else cuckooAll g.hashKey g.table new (some cells) with
  | some t => (0, some { g with cells := t })
  | none =>
    match if g.table.length > 65536 then none else (List.range 4).findSome? fun i =>
        (cuckooAll (g.hashKey + i + 1) g.table g.table (some [])).map fun t => (i + 1, t) with
    | some r => (r.1, some { g with hashKey := g.hashKey + r.1, cells := r.2 })
    | none => (4, if g.table.length ≤ 61440 then some { g with hashKey := g.hashKey + 4, cells := [] } else none)

/-- Firmware has rebuilt a staged table, with so many hash keys tried (R407). -/
def Dev.rehashed (d : Dev) (tries : Nat) : Dev := if tries = 0 then d else d.raiseAt .classRehash (clsPatch false) tries

/-- The entry that the 56 bytes of R420 spell, as a number. -/
def entryOf (v : Nat) : ClassEntry := ⟨bit v 16, bits v 24 6, leBytes 48 (bits v 32 384), bits v 0 16⟩

/-- The 56 bytes break a reserved field (R420). -/
def entryReserved (v : Nat) : Bool := bits v 18 6 != 0 || bits v 30 2 != 0 || bits v 416 32 != 0

/-- CLASS.ENTRY_ADD (R420). -/
def verbClassEntryAdd : Verb where
  code := 0x3201
  role := .operator
  len := 56
  params := [⟨2, 2, 6, .rsv⟩, ⟨3, 6, 2, .rsv⟩, ⟨52, 0, 32, .rsv⟩]

/-- The meaning of `CLASS.ENTRY_ADD`. -/
def bodyClassEntryAdd : Body := onDev fun c d =>
  let v := c.p 0 0 448
  match (d.ownGen c.slot).addEntry (entryOf v) (bit v 17) with
  | .error st => (.now st, d)
  | .ok g =>
    match d.genRefused c.slot with
    | some st => (.now st, d)
    | none =>
      let d := d.rehashed g.settle.1
      match g.settle.2 with
      | some g => (.now .ok, d.stageGen c.slot g)
      | none => (.now .classFull, d)

/-- CLASS_ENTRY_ADD (R407, R420). -/
def execClassEntryAdd (c : HostCall) (s : State) : Host.Outcome State Fault Refusal := runVerb verbClassEntryAdd bodyClassEntryAdd c s

/-- CLASS.ENTRY_DEL (R421). -/
def verbClassEntryDel : Verb where
  code := 0x3202
  role := .operator
  len := 2

/-- The meaning of `CLASS.ENTRY_DEL`. -/
def bodyClassEntryDel : Body := stageRules fun c g =>
  let n := c.p 0 0 16
  if g.table.any (·.flow == n) then .ok { g with table := g.table.filter (·.flow != n), cells := g.cells.filter (·.2 != some n) }
  else .error .classIndexBusy

/-- CLASS_ENTRY_DEL (R421). -/
def execClassEntryDel (c : HostCall) (s : State) : Host.Outcome State Fault Refusal := runVerb verbClassEntryDel bodyClassEntryDel c s

/-! ### Flow actions (R411) -/

/-- The action that 16 bytes spell, as a number (R411). -/
def actOf (v : Nat) : FlowAct :=
  ⟨bits v 0 14, bits v 14 2, bits v 16 2, bit v 18, bits v 19 2, bits v 32 16, bits v 48 8, bits v 56 8, bits v 64 2, bits v 80 16⟩

/-- The bytes of an action (R411). -/
def FlowAct.bits16 (a : FlowAct) : Nat :=
  pack [fieldAt 0 14 a.queue, at' 1 6 2 a.dest, at' 2 0 2 a.crypt, at' 2 2 1 (b2n a.verified), at' 2 3 2 a.recirc, fieldAt 4 16 a.ctx,
    fieldAt 6 8 a.decapOff, fieldAt 7 8 a.decapLen, at' 8 0 2 a.stampMode, fieldAt 10 16 a.stampId]

/-- The 16 bytes hold a value that R411 does not list or a reserved bit that is set. -/
def actReserved (v : Nat) : Bool :=
  bits v 14 2 == 3 || bits v 16 2 == 3 || bits v 19 2 == 3 || bits v 21 3 != 0 || bits v 24 8 != 0 || bits v 66 6 != 0 ||
  bits v 72 8 != 0 || bits v 96 32 != 0

/-- The 16 bytes hold a number out of its range (R411). -/
def actRange (v : Nat) : Bool := decide (bits v 48 8 > 159) || decide (bits v 56 8 > 128)

/-- An action that R411 refuses whatever names it (DESIGN CHOICE, assumption 136). -/
def FlowAct.bad (a : FlowAct) : Bool :=
  (a.recirc == 1 && a.decapLen == 0) || (a.recirc == 2 && a.crypt != 2) || decide (a.decapOff + a.decapLen > 160) ||
  (a.dest == 2 && a.crypt != 0)

/-- An action that no express entry may name (R411). -/
def FlowAct.notExpress (a : FlowAct) : Bool := a.verified || a.recirc != 0

/-- An action of a generation. -/
def RuleGen.act (g : RuleGen) (flow : Nat) : FlowAct := g.acts.get (fun _ => {}) flow

/-- An express entry names the flow. -/
def RuleGen.expressNames (g : RuleGen) (flow : Nat) : Bool :=
  g.express.any fun e => match e.2 with
    | some x => x.flow == flow
    | none => false

/-- Set an action (R411). -/
def RuleGen.setAct (g : RuleGen) (flow : Nat) (a : FlowAct) : Except Status RuleGen :=
  if a.bad || (a.notExpress && g.expressNames flow) then .error .badParameter
  else .ok { g with acts := g.acts.set (fun _ => {}) flow a }

/-- CLASS.ACTION_SET (R411). -/
def verbClassActionSet : Verb where
  code := 0x3203
  role := .operator
  len := 18
  params := [⟨3, 6, 2, .enum [0, 1, 2]⟩, ⟨4, 0, 2, .enum [0, 1, 2]⟩, ⟨4, 3, 2, .enum [0, 1, 2]⟩, ⟨4, 5, 3, .rsv⟩, ⟨5, 0, 8, .rsv⟩,
    ⟨8, 0, 8, .range 0 159⟩, ⟨9, 0, 8, .range 0 128⟩, ⟨10, 2, 6, .rsv⟩, ⟨11, 0, 8, .rsv⟩, ⟨14, 0, 32, .rsv⟩]

/-- The meaning of `CLASS.ACTION_SET`. -/
def bodyClassActionSet : Body := stageRules fun c g => g.setAct (c.p 0 0 16) (actOf (c.p 2 0 128))

/-- CLASS_ACTION_SET (R411). -/
def execClassActionSet (c : HostCall) (s : State) : Host.Outcome State Fault Refusal := runVerb verbClassActionSet bodyClassActionSet c s

/-- CLASS.BULK (R421). -/
def verbClassBulk : Verb where
  code := 0x3204
  role := .operator
  len := 0
  ext := .always
  codes := fun c => c.extLen % 80 != 0 || decide (c.extLen / 80 > 65536)

/-- One record of `CLASS.BULK` added to a generation: 56 bytes as R420, then an action as R411. -/
def bulkRecord (g : RuleGen) (b : List Byte) : Except Status RuleGen :=
  let v := leNat b
  if entryReserved v || actReserved (bits v 448 128) || bits v 576 64 != 0 then .error .badParameter
  else if actRange (bits v 448 128) then .error .outOfRange
  else match g.addEntry (entryOf v) (bit v 17) with
    | .error st => .error st
    | .ok g => g.setAct (bits v 0 16) (actOf (bits v 448 128))

/-- All records of `CLASS.BULK`: the first failing status, or the generation. -/
def bulkAll (g : RuleGen) : List (List Byte) → Except Status RuleGen
  | [] => .ok g
  | b :: r => match bulkRecord g b with
    | .error st => .error st
    | .ok g => bulkAll g r

/-- The meaning of `CLASS.BULK`: it ends at once; its records' own checks come first, then what keeps the session from staging (R421, R569)
(DESIGN CHOICE, assumption 142). -/
def bodyClassBulk : Body := onDev fun c d =>
  match bulkAll (d.ownGen c.slot) (chunks 80 (c.extLen / 80) c.bytes) with
  | .error st => (.ended st, d)
  | .ok g =>
    match d.genRefused c.slot with
    | some st => (.now st, d)
    | none =>
      let d := d.rehashed g.settle.1
      match g.settle.2 with
      | some g => (.ended .ok, d.stageGen c.slot g)
      | none => (.ended .classFull, d)

/-- CLASS_BULK (R421). -/
def execClassBulk (c : HostCall) (s : State) : Host.Outcome State Fault Refusal := runVerb verbClassBulk bodyClassBulk c s

/-- CLASS.EXPRESS_SET (R408, R421) (DESIGN CHOICE, assumption 216). -/
def verbClassExpressSet : Verb where
  code := 0x3205
  role := .operator
  len := 24
  params := [⟨1, 2, 6, .rsv⟩, ⟨2, 6, 2, .rsv⟩, ⟨3, 0, 8, .rsv⟩, ⟨6, 0, 16, .rsv⟩]

/-- The meaning of `CLASS.EXPRESS_SET`. -/
def bodyClassExpressSet : Body := stageRules fun c g =>
  let k := 256 * c.p 1 1 1 + c.p 0 0 8
  let e : ExpressEntry := ⟨c.p 2 0 6, c.p 4 0 16, c.inline 8 8, c.inline 16 8⟩
  if c.p 1 0 1 = 0 then .ok { g with express := g.express.set (fun _ => none) k none }
  else if (g.act e.flow).notExpress then .error .badParameter
  else .ok { g with express := g.express.set (fun _ => none) k (some e) }

/-- CLASS_EXPRESS_SET (R408, R411). -/
def execClassExpressSet (c : HostCall) (s : State) : Host.Outcome State Fault Refusal := runVerb verbClassExpressSet bodyClassExpressSet c s

/-- CLASS.EXCEPTION (R416) (DESIGN CHOICE, assumption 216). -/
def verbClassException : Verb where
  code := 0x3206
  role := .operator
  len := 4
  params := [⟨0, 0, 3, .range 1 5⟩, ⟨0, 3, 4, .rsv⟩, ⟨1, 1, 7, .rsv⟩, ⟨2, 14, 2, .rsv⟩]

/-- The meaning of `CLASS.EXCEPTION`. -/
def bodyClassException : Body := stageRules fun c g =>
  .ok { g with exc := g.exc.set (fun _ => none) (8 * c.p 0 7 1 + c.p 0 0 3) (if c.p 1 0 1 = 1 then some (c.p 2 0 14) else none) }

/-- CLASS_EXCEPTION (R416). -/
def execClassException (c : HostCall) (s : State) : Host.Outcome State Fault Refusal := runVerb verbClassException bodyClassException c s

/-- CLASS.GEN_CLEAR (R417). -/
def verbClassGenClear : Verb where
  code := 0x3207
  role := .operator
  len := 0

/-- The meaning of `CLASS.GEN_CLEAR`: the staged generation is empty, its global values as after a reset (DESIGN CHOICE, assumption 142). -/
def bodyClassGenClear : Body := stageRules fun _ _ => .ok {}

/-- CLASS_GEN_CLEAR (R417, R421). -/
def execClassGenClear (c : HostCall) (s : State) : Host.Outcome State Fault Refusal := runVerb verbClassGenClear bodyClassGenClear c s

/-! ### A commit of a generation (R400, R411, R417 to R420, R471) -/

/-- A staged generation's own validation: every selected profile defined, every key within its profile's length (R400, R420). -/
def RuleGen.profilesOk (g : RuleGen) : Bool :=
  (g.sel.all fun e => match e.2 with
    | some x => (g.profile x.profile).isSome
    | none => true) &&
  g.table.all fun e => match g.profile e.profile with
    | some p => (e.key.drop p.keyLen).all (· == 0)
    | none => false

/-- A generation becomes active; the former one stays resident (R418, R419). -/
def Dev.swapRules (d : Dev) (g : RuleGen) : Dev :=
  let n := (d.pkt.active.gen + 1) % 2 ^ 32
  let d := d.modPkt fun p => { p with active := { g with gen := n }, former := some p.active }
  let d := d.raiseAt .classGenSwapped (clsPatch false) (n % 2 ^ 16)
  if g.table.length ≥ 61440 then d.raiseAt .classTableHigh (clsPatch false) (g.table.length / 16) else d

/-- Packets that started under the former generation and are still in the engine: those that the verified-release store holds
(R419). -/
def Dev.formerInFlight (d : Dev) : Nat :=
  match d.pkt.former with
  | none => 0
  | some g => (d.pkt.held.filter fun h => h.gen == g.gen).length

/-- GENERATION_RETIRED: the former generation has no packet in flight (R419). -/
def execGenerationRetired (s : State) : Host.Outcome State Fault Refusal :=
  s.run fun d =>
    match d.pkt.former with
    | none => d
    | some g =>
      if d.formerInFlight ≠ 0 then d
      else (d.modPkt fun p => { p with former := none }).raiseAt .classGenRetired (clsPatch false) (g.gen % 2 ^ 16)

/-! ### Reads (R421) -/

/-- CLASS.STATUS (R421). -/
def verbClassStatus : Verb where
  code := 0x3208
  role := .observer
  len := 0

/-- The results of `CLASS.STATUS` (R421): the exception counters of transmit first (DESIGN CHOICE, assumption 140). R421 lists `CTRL_DROPS` at
56, beyond the 56 result bytes that R53's item carries: the response ends before it (DESIGN CHOICE, assumption 222). -/
def classStatus (v : Dev) : Res :=
  let n := fun (rx : Bool) => (v.pkt.active.table.filter (·.rx == rx)).length
  res 56 ([fieldAt 0 32 v.pkt.active.gen, at' 4 0 1 (b2n v.pkt.staged.isSome), at' 4 1 1 (b2n v.pkt.former.isSome),
    fieldAt 6 16 (sat 16 (n false)), fieldAt 8 16 (sat 16 (n true)), fieldAt 10 32 v.formerInFlight] ++
    (List.range 10).map fun k => fieldAt (16 + 4 * k) 32 (v.pkt.excs.get (fun _ => 0) (8 * (k / 5) + 1 + k % 5)))

/-- CLASS_STATUS (R421). -/
def execClassStatus (c : HostCall) (s : State) : Host.Outcome State Fault Refusal :=
  runVerb verbClassStatus (onView fun _ v => .now .ok (classStatus v)) c s

/-- CLASS.FLOW_READ (R421). -/
def verbClassFlowRead : Verb where
  code := 0x3209
  role := .observer
  len := 2
  ext := .either
  size := .bytes 48
  shift := true

/-- The results of `CLASS.FLOW_READ` (R421). -/
def flowRead (v : Dev) (n : Nat) : Res :=
  let g := v.pkt.active
  let cnt := v.pkt.flows.get (fun _ => (0, 0)) n
  let key := g.table.find? (·.flow == n)
  let ex := g.express.findSome? fun e => match e.2 with
    | some x => if x.flow = n then some (e.1 % 256) else none
    | none => none
  res 36 ([⟨0, 128, (g.act n).bits16⟩, fieldAt 16 64 cnt.1, fieldAt 24 64 cnt.2, at' 32 0 1 (b2n key.isSome), fieldAt 34 16 (ex.getD 0xFFFF)] ++
    (match key with
     | some e => [at' 32 1 1 (b2n e.rx), fieldAt 33 8 e.profile]
     | none => []))

/-- The meaning of `CLASS.FLOW_READ`: with a buffer it is given the key. -/
def bodyClassFlowRead : Body := onView fun c v =>
  let n := c.p 0 0 16
  if !c.ext then .now .ok (flowRead v n)
  else .wrote (match v.pkt.active.table.find? (·.flow == n) with
    | some e => e.key
    | none => List.replicate 48 0) (flowRead v n)

/-- CLASS_FLOW_READ (R421). -/
def execClassFlowRead (c : HostCall) (s : State) : Host.Outcome State Fault Refusal := runVerb verbClassFlowRead bodyClassFlowRead c s

/-- CLASS.PIPE_STATUS (R421). -/
def verbClassPipeStatus : Verb where
  code := 0x320A
  role := .observer
  len := 4
  groups := true
  reads := true
  params := [⟨0, 0, 32, .patch [(.pipeline, 0, 7)]⟩]

/-- The result fields of a pipeline (R421). -/
def pipeFields (v : Dev) (n : Nat) : List RField :=
  [rf .sum 0 0 64 (v.pkt.spread.get (fun _ => 0) n), rf .sum 8 0 32 (v.pkt.overrun.getD (n / 4) 0)]

/-- The meaning of `CLASS.PIPE_STATUS`. -/
def bodyClassPipeStatus : Body := readEach 12 fun _ v n => some (pipeFields v n)

/-- CLASS_PIPE_STATUS (R421). -/
def execClassPipeStatus (c : HostCall) (s : State) : Host.Outcome State Fault Refusal :=
  runVerb verbClassPipeStatus bodyClassPipeStatus c s

end Sys2Proof.Machine
end

