-- ==== Sys2Proof/Machine/CommitCore.lean ====
section
/-! DEFINITION. The life of an accepted commit: how it fails, counts as applied, and ends (R54, R70, R74, R75, R482, R570). -/

namespace Sys2Proof.Machine

/-- The commit of a number. -/
def Dev.commit? (d : Dev) (id : Nat) : Option PCommit := d.cfg.commits.find? (·.id == id)

/-- Change a commit. -/
def Dev.modCommit (d : Dev) (id : Nat) (f : PCommit → PCommit) : Dev :=
  { d with cfg := { d.cfg with commits := d.cfg.commits.map fun c => if c.id = id then f c else c } }

/-- A commit is over and forgotten. -/
def Dev.dropCommit (d : Dev) (id : Nat) : Dev :=
  { d with cfg := { d.cfg with commits := d.cfg.commits.filter (·.id != id) } }

/-- The results of `CFG.COMMIT` (R71) (DEDUCED, assumption 18). -/
def Dev.commitRes (d : Dev) (op : Nat) : Res :=
  res 10 [fieldAt 0 32 d.cfg.cfgGen, fieldAt 4 32 (if op = 0 then 0 else d.cfg.quiltGen), fieldAt 8 16 op]

/-- A commit ends with a status: an unanswered one completes, an accepted one has its final status (R54, R74). A session that
has closed takes no answer (DESIGN CHOICE, assumption 26). -/
def Dev.endCommit (d : Dev) (c : PCommit) (st : Status) : Dev :=
  let d := d.dropCommit c.id
  let d := if st = .ok ∨ st = .cancelled ∨ c.slot ≥ 8 ∨ c.told then d else d.commitRefused c.slot st c.quilt.isSome
  if c.answered then d.endOp c.slot c.serial c.seq st
  else match (d.slot c.slot).taken with
    | some t => if t.why = .commit c.id then
        (d.answer c.slot st (if st = .ok then d.commitRes 0 else {})).settle 256 else d
    | none => d

/-- Staging goes back to its session, unlocked, unless the session has closed (R23, R72, R78); a member's staging of a quilt operation is
gone. -/
def Dev.restage (d : Dev) (c : PCommit) : Dev :=
  if c.slot ≥ 8 ∨ (d.slot c.slot).serial ≠ c.serial ∨ (d.slot c.slot).state ≠ .opened then d else
  let d := { d with cfg := { d.cfg with staged := c.entries ++ d.cfg.staged } }
  match c.rules with
  | some g => { d with pkt := { d.pkt with staged := some (c.slot, g) } }
  | none => d

/-- The quilt operation of a commit that is refused as it takes effect runs no longer. -/
def Dev.quiltRefused (d : Dev) (c : PCommit) : Dev :=
  match c.quilt with
  | none => d
  | some q => d.modQuilt fun x =>
    if c.slot < 8 then { x with running := x.running.filter (·.opId != q.1), sentStreams := x.sentStreams.filter (·.1 != q.1) }
    else { x with prep := none, member := if x.detachNext ∨ x.prep.any (·.wasDetached) then .detached else .idle,
                  held := x.held.set (fun _ => []) q.1 [] }

/-- A commit that is refused as it takes effect, or cancelled: nothing is applied and its staging goes back (R23, R26). -/
def Dev.refuseCommit (d : Dev) (c : PCommit) (st : Status) : Dev := ((d.restage c).quiltRefused c).endCommit c st

/-- The final status of a commit that has applied: the first failure in wake order, else `OK` (R482). -/
def PCommit.final (c : PCommit) : Status :=
  let lo := c.fails.foldl (fun m f => min m f.1) 1000000
  ((c.fails.find? (·.1 == lo)).map (·.2)).getD .ok

/-- End a commit that has applied and waits for no wake and no announced switch. -/
def Dev.tryEnd (d : Dev) (id : Nat) : Dev :=
  match d.commit? id with
  | some c => if c.phase = .ending ∧ c.wakes = [] ∧ c.loads = [] ∧ c.buses = [] then d.endCommit c c.final else d
  | none => d

/-- A wake of a commit has ended, with a failing status or none. -/
def Dev.wakeOver (d : Dev) (id : Nat) (u : PowerUnit) (st : Status) : Dev :=
  let d := d.modCommit id fun c => { c with
    wakes := c.wakes.filter (· != u), fails := if st = .ok then c.fails else c.fails ++ [(u.index, st)] }
  d.tryEnd id

/-- A loading announcement of a commit has ended, with a failing status or none (R150). -/
def Dev.loadOver (d : Dev) (id : Nat) (sc : Nat) (st : Status) : Dev :=
  let d := d.modCommit id fun c => { c with
    loads := c.loads.filter (· != sc), fails := if st = .ok then c.fails else c.fails ++ [(1000 + sc, st)] }
  d.tryEnd id

/-- The staged value of a field in some entries. -/
def staged? (es : List Entry) (f : Fld) (i : Nat) : Option Nat :=
  es.findSome? fun e => (e.vals.find? fun v => v.fld == f && v.idx == i).map (·.val)

/-- Every staged value of a field in some entries, with its index. -/
def stagedAll (es : List Entry) (f : Fld) : List (Nat × Nat) :=
  es.flatMap fun e => (e.vals.filter fun v => v.fld == f).map fun v => (v.idx, v.val)

/-- The kept streams with those of a new generation: of the last 16, and 256 KiB in all (R92). -/
def keepStreams (old : List KeptStream) (new : List KeptStream) : List KeptStream :=
  let all := old ++ new
  let gens := (all.map (·.gen)).eraseDups
  let last := gens.drop (gens.length - 16)
  let total := fun (g : List Nat) => ((all.filter fun k => g.contains k.gen).map (·.bytes.length)).sum
  let from' := (List.range (last.length + 1)).find? fun i => decide (total (last.drop i) ≤ 262144)
  let held := last.drop (from'.getD last.length)
  all.filter fun k => held.contains k.gen

/-- The parent's last `HELLO` reported a generation (R92). -/
def Dev.parentAt (d : Dev) (gen : Nat) : Bool :=
  (d.quilt.parent.bind fun k => d.quilt.nbrs.get (fun _ => none) k).any fun (x : NbrSt) => x.gen == gen

/-- A member without staging for a commit takes its generation at `T` (R91, R93); one that is detached is back where a replay brought it to
the parent's (R92) (DEDUCED, assumption 179). -/
def Dev.takeGen (d : Dev) : Dev :=
  match d.quilt.genAt with
  | none => d
  | some (_, gen, t, alone) =>
    if d.time16 < (t : Int) then d else
    let d := { d with cfg := { d.cfg with quiltGen := gen }, quilt := { d.quilt with genAt := none } }
    if d.quilt.member = .detached ∧ alone ∧ d.parentAt gen then
      { d with quilt := { d.quilt with member := .idle } }.raise .quiltRejoined (Patch.id 0 ⟨.quilt, 0⟩) d.num
    else d

/-- What a quilt commit that has applied leaves: at the coordinator its streams are kept, the devices that `QUILT.REJOIN` named and that were not
missing are detached no longer, and the next may run; a member is `IDLE` again, or detached where it lost its route or a replay was not the last one (R91, R92). -/
def Dev.quiltApplied (d : Dev) (c : PCommit) (op gen : Nat) : Dev :=
  if c.slot < 8 then
    let gone := (d.quilt.recheck.filter (·.2.1 == gen)).flatMap (·.2.2)
    let back := ((stagedAll c.entries .rejoin).map (·.1)).filter (!gone.contains ·)
    d.modQuilt fun q => { q with
      detachedList := back.foldl (fun t n => t.set (fun _ => none) n none) q.detachedList,
      resync := q.resync.filter (!back.contains ·),
      kept := keepStreams q.kept ((q.sentStreams.filter (·.1 == op)).map fun e => { e.2 with gen := gen }),
      sentStreams := q.sentStreams.filter (·.1 != op), running := q.running.filter (·.opId != op), ack := none }
  else
    let back := d.quilt.prep.any (·.bcast) || d.parentAt gen
    let was := d.quilt.prep.any (·.wasDetached)
    let stays := d.quilt.detachNext || (was && !back)
    let lost := d.quilt.detachNext
    let d := d.modQuilt fun q => { q with
      prep := none, detachNext := false, member := if stays then .detached else .idle, held := q.held.set (fun _ => []) op [] }
    if lost then d.raise .quiltDetached (Patch.id 0 ⟨.quilt, 0⟩) 1
    else if was && back then d.raise .quiltRejoined (Patch.id 0 ⟨.quilt, 0⟩) d.num
    else d

/-- A commit counts as applied: `CFG_GEN` increases, a quilt commit sets `QUILT_GEN`, and `EV_COMMIT_APPLIED` is raised
(R75, R91). -/
def Dev.commitApplied (d : Dev) (id : Nat) : Dev :=
  match d.commit? id with
  | none => d
  | some c =>
    let g := (d.cfg.cfgGen + 1) % 2 ^ 32
    let d := { d with cfg := { d.cfg with cfgGen := g, quiltGen := match c.quilt with
      | some q => q.2
      | none => d.cfg.quiltGen } }
    let d := d.modCommit id fun c => { c with phase := .ending }
    let sess := if c.quilt.isSome ∧ c.slot ≥ 8 then none else some c.slot
    let d := match c.quilt with
      | some q => d.quiltApplied c q.1 q.2
      | none => d
    ((d.raise .commitApplied d.self (g % 2 ^ 16) sess).count .dev 4).tryEnd id

/-- Receive boundaries and announcements outstanding at a part-way commit; none outstanding, its writes on the front-end and laser
buses over, and no reference switch holding its values back, it counts as applied (R75, R112, R355) (DESIGN CHOICE, assumption 27). -/
def Dev.commitProgress (d : Dev) (id : Nat) (rx tx : List Nat) : Dev :=
  let buses := (d.commit? id).any fun c => !c.buses.isEmpty
  if rx = [] ∧ tx = [] ∧ !buses then d.commitApplied id else d.modCommit id fun c => { c with phase := .partway rx tx }

/-- What a commit waited for is over: 0 its writes on the front-end bus, 1 on the laser bus, 2 a reference switch (R112, R117, R355) (DESIGN CHOICE, assumption 72). -/
def Dev.busOver (d : Dev) (id bus : Nat) : Dev :=
  let d := d.modCommit id fun c => { c with buses := c.buses.filter (· != bus) }
  match d.commit? id with
  | some c => match c.phase with
    | .partway rx tx => d.commitProgress id rx tx
    | _ => d
  | none => d

/-- A commit is part-way through application (R75, R76). -/
def Dev.midCommit (d : Dev) : Bool :=
  d.cfg.commits.any fun c => match c.phase with
    | .partway _ _ => true
    | _ => false

/-- The committed configuration with staged fields laid over it: what a commit would leave. -/
def Dev.overlay (d : Dev) (es : List Entry) : Dev :=
  es.foldl (fun d e => e.vals.foldl (fun d v => d.setConf v.fld v.idx v.val) d) d

end Sys2Proof.Machine
end

