-- ==== Sys2Proof/Machine/Use.lean ====
section
/-! DEFINITION. Which units the committed configuration uses (R26), and the lane rates that decide power figures (R478). -/

namespace Sys2Proof.Machine

/-- How many lanes a port speed takes at a lane rate, none where the table of R377 lists no such pair. -/
def portLanes (speed rate : Nat) : Option Nat :=
  if speed ≤ 5 ∧ rate ≤ 2 ∧ rate ≤ speed ∧ speed - rate ≤ 3 then some (2 ^ (speed - rate)) else none

/-- The host lanes of a committed port (R377). -/
def Dev.portSpan (d : Dev) (p : Nat) : List Nat :=
  if d.conf .portEn p = 0 then [] else (List.range ((portLanes (d.conf .portSpeed p) (d.conf .portRate p)).getD 0)).map (p + ·)

/-- The committed port that holds a host lane. -/
def Dev.portOf (d : Dev) (n : Nat) : Option Nat := (List.range 16).find? fun p => (d.portSpan p).contains n

/-- The rate code of the committed port on a host lane; 2 while no port holds the lane (R478). -/
def Dev.laneRate (d : Dev) (n : Nat) : Nat := match d.portOf n with
  | some p => d.conf .portRate p
  | none => 2

/-- A hub's upstream on the subcarrier is time-shared (R281, R311). -/
def Dev.rxShared (d : Dev) (n : Nat) : Bool := d.role == .hub && d.conf .shared n == 1

/-- A leaf's transmit side, on a time-shared upstream (R281). -/
def Dev.txShared (d : Dev) (_n : Nat) : Bool := d.role == .leaf && d.conf .ownDisc == 1 && !d.ohd.leaf.dedicated

/-- The leaf whose dedicated upstream takes in a subcarrier, at the hub: the one with the nearest home at or below it, at most 3 below and
with no time-shared subcarrier between (R279) (DESIGN CHOICE, assumption 112). -/
def Dev.dedLeaf (d : Dev) (n : Nat) : Option Nat :=
  ((List.range 4).filter fun i => i ≤ n ∧ (List.range (i + 1)).all fun j => !d.rxShared (n - j)).findSome? fun i =>
    (d.listed .leafEn).find? fun m => d.conf .leafEn m == 1 && d.conf .leafDed m == 1 && d.conf .leafHome m == n - i

/-- A subcarrier of a leaf's own dedicated upstream: one of its transmit group, from its home subcarrier on (R279). -/
def Dev.ownDedicated (d : Dev) (n : Nat) : Bool :=
  d.ohd.leaf.dedicated && decide (d.conf .ownHome ≤ n ∧ d.conf .txFirst ≤ n ∧ n < d.conf .txFirst + d.conf .txCount)

/-! ### Grants (R287, R297, R299) -/

/-- P_s: where burst slot s begins in its grid frame, in symbols (R287). -/
def slotStart (s : Nat) : Nat := (21875 * s + 1) / 2

/-- The table's entry for a slot of a row (R297). -/
def Dev.grantEntry (d : Dev) (n row s : Nat) : Nat := d.conf .grant (2048 * n + 8 * row + s)

/-- `GAP` in µs: the longest interval, rounded up, between consecutive starts of a cycle of so many frames taken as repeating; none without a
grant. Starts: frame of the cycle and slot, in order (R299). -/
def grantGap (cycle : Nat) (l : List (Nat × Nat)) : Option Nat :=
  let t := l.map fun e => 87500 * e.1 + slotStart e.2
  match t with
  | [] => none
  | a :: r => some (ceilDiv ((List.zipWith (fun y x => y - x) (r ++ [a + 87500 * cycle]) t).foldl max 0) 8750)

/-- The grant starts of a leaf in its hub's table (R297). -/
def Dev.leafStarts (d : Dev) (n : Nat) : List (Nat × Nat) :=
  let sc := d.conf .leafHome n
  (List.range (2 ^ d.conf .cycleLog sc * 8)).filterMap fun i =>
    let e := d.grantEntry sc (i / 8) (i % 8)
    if e % 4096 = n ∧ (i % 8 = 0 ∨ d.grantEntry sc (i / 8) (i % 8 - 1) % 4096 ≠ n ∨ bit e 15) then some (i / 8, i % 8) else none

/-- `GAP` of a leaf at its hub. -/
def Dev.leafGap (d : Dev) (n : Nat) : Option Nat := grantGap (2 ^ d.conf .cycleLog (d.conf .leafHome n)) (d.leafStarts n)

/-- `GAP` at a leaf: by the grants heard in 256 frames, a whole number of its cycles (R297, R299) (DESIGN CHOICE, assumption 109). -/
def Dev.ownGap (d : Dev) : Option Nat :=
  grantGap 256 (sortBy (fun a b => decide (8 * a.1 + a.2 ≤ 8 * b.1 + b.2)) d.ohd.leaf.starts)

/-- The lowest smoothed SNR report among the active leaves that receive a subcarrier, in 0.01 dB: those from burst headers, and that of a
dedicated upstream's loading field (R154, R296) (DESIGN CHOICE, assumption 112). -/
def Dev.hubReport (d : Dev) (n : Nat) : Option Nat :=
  let bursts := d.ohd.hub.leaves.filterMap fun e => if e.2.state = .active then e.2.reports.get (fun _ => none) n else none
  let ded := match d.dedLeaf n with
    | some m => if (d.ohd.hub.leaves.get (fun _ => {}) m).state = .active then (d.scs.get (fun _ => {}) n).rx.smooth.toList else []
    | none => []
  ((bursts ++ ded).foldl (fun m x => some (match m with | some y => min x y | none => x)) none).map (· / 2 ^ 20)

/-- A loading change of a subcarrier waits or is announced (R26, R150) (DESIGN CHOICE, assumption 174). -/
def Dev.loadBusy (d : Dev) (n : Nat) : Bool :=
  let t := (d.scs.get (fun _ => {}) n).tx
  t.state != .steady || t.pend.isSome

/-- A receive protection group exists (R264). -/
def Dev.hasRxGroup (d : Dev) : Bool := (List.range 80).any fun g => d.conf .grpEn (2 * g + 1) == 1

/-- A verified-release region lies on a stack (R432, R466). -/
def Dev.releaseOn (d : Dev) (m : Nat) : Bool :=
  (List.range 32).any fun r => d.conf .rgEn r == 1 && d.conf .rgKind r == 4 && d.conf .rgBase r / 16384 == m

/-- Committed configuration uses the unit (R26) (DESIGN CHOICE, assumption 174). -/
def Dev.inUse (d : Dev) (u : PowerUnit) : Bool :=
  match u with
  | .sc n => d.loadBusy n
  | .hostIn n => (d.portOf n).any fun p => bit (d.conf .portDir p) 0
  | .hostOut n => (d.portOf n).any fun p => bit (d.conf .portDir p) 1
  | .stIn _ => d.conf .stitchRelay == 1
  | .stOut _ => d.conf .stitchRelay == 1
  | .lem => d.role == .hub && (List.range 32).any fun n => d.conf .shared n == 1
  | .hbm m => (d.hasRxGroup && d.runs (.hbm m) && !d.runs (.hbm (1 - m))) ||
      (d.pkt.active.acts.any (·.2.verified) && d.releaseOn m)
  | _ => false

/-- The stitch lanes have failed, for the containers that cross them (R258). -/
def Dev.stitchFails (d : Dev) : Bool := d.lane.stitch.state != .up

end Sys2Proof.Machine
end

