-- ==== Sys2Proof/Machine/Cycles.lean ====
section
/-! DEFINITION. The monitored patches, their cycle counters and the freeze of all counters (R491, R493, R533). -/

namespace Sys2Proof.Machine

/-- The monitored patches, in the order of a dump's records (R491, R497) (DESIGN CHOICE, assumption 30). -/
def MonUnit.all : List MonUnit :=
  [.dev, .line] ++ (List.range 32).map .sc ++ (List.range 8).map .pipe ++ (List.range 5).map .cipher ++ (List.range 2).map .hbm ++
  (List.range 16).map .port ++ [.stitch]

/-- The patch of a monitored unit. -/
def MonUnit.patch : MonUnit → Patch
  | .dev => ⟨.device, 0⟩ | .line => ⟨.line, 0⟩ | .sc n => ⟨.subcarrier, n⟩ | .pipe n => ⟨.pipeline, n⟩ | .cipher n => ⟨.cipher, n⟩
  | .hbm n => ⟨.hbm, n⟩ | .port n => ⟨.port, n⟩ | .stitch => ⟨.stitchLane, 0⟩

/-- The monitored unit that a patch names. -/
def MonUnit.ofPatch (p : Patch) : Option MonUnit := MonUnit.all.find? fun u => u.patch == p

/-- The unit of a monitored patch runs: a port while a lane direction of its own is awake, the stitch port while any of its lanes is
(R493, assumption 30). -/
def Dev.monRuns (d : Dev) : MonUnit → Bool
  | .dev => true
  | .line => d.runs .core
  | .sc n => d.runs (.sc n)
  | .pipe n => d.runs (.pipe n)
  | .cipher n => d.runs (.cipher n)
  | .hbm n => d.runs (.hbm n)
  | .port p => (d.portSpan p).any fun n => d.runs (.hostIn n) || d.runs (.hostOut n)
  | .stitch => (List.range 8).any fun n => d.runs (.stIn n) || d.runs (.stOut n)

/-- The cycle counter of a monitored patch: TC periods while its unit runs; the device's, 100 for each AC cycle (R16, R493). -/
def Dev.cycles (d : Dev) (u : MonUnit) : Nat :=
  (d.mon.counts.get (fun _ => 0) (9 * u.index + 8) + if !d.monRuns u ∨ d.mon.frozen then 0 else if u = .dev then 100 * (d.now - d.mon.cycAt) else d.tcNow - d.mon.cycTc) % 2 ^ 64

/-- Bring every cycle counter up to date, before a unit starts or stops running. -/
def Dev.foldCycles (d : Dev) : Dev :=
  { d with mon := { d.mon with
    counts := MonUnit.all.foldl (fun c u => c.set (fun _ => 0) (9 * u.index + 8) (d.cycles u)) d.mon.counts,
    cycTc := d.tcNow, cycAt := d.now } }

/-- Freeze the counters, or let them run again (R533). -/
def Dev.freeze (d : Dev) (on : Bool) : Dev :=
  let d := d.foldCycles
  { d with mon := { d.mon with frozen := on } }

end Sys2Proof.Machine
end

