-- ==== Sys2Proof/Machine/Otp.lean ====
section
/-! DEFINITION. OTP: regions, generations and their classes, payloads in force, and what they decide (R45, R524, R527 to R529). -/

namespace Sys2Proof.Machine

/-- An OTP region (R527): offset, payload bytes, generations. -/
structure OtpRegion where
  off : Nat
  payload : Nat
  gens : Nat
deriving DecidableEq, Repr

/-- The regions 0 to 6: identity, root key, credential hashes, security policy, firmware hash, power ceiling, board table. -/
def otpRegions : List OtpRegion :=
  [⟨0x000, 24, 1⟩, ⟨0x020, 32, 4⟩, ⟨0x0C0, 96, 4⟩, ⟨0x260, 8, 4⟩, ⟨0x2A0, 128, 4⟩, ⟨0x4C0, 8, 4⟩, ⟨0x500, 584, 4⟩]

/-- A region by its code. -/
def otpRegion (r : Nat) : OtpRegion := otpRegions.getD r ⟨0, 0, 0⟩

/-- The bytes of a generation: payload, CRC and commit word (R527). -/
def OtpRegion.size (r : OtpRegion) : Nat := r.payload + 8

/-- The commit word of a valid generation (R527). -/
def otpCommitWord : Nat := 0xC33C5AA5

/-- A generation as it is written (R527, R530). -/
def otpGeneration (payload : List Byte) : List Byte := payload ++ leBytes 4 (crc32 payload) ++ leBytes 4 otpCommitWord

/-- A byte of OTP; unwritten bits read 0. -/
def OtpSt.byte (o : OtpSt) (a : Nat) : Byte := o.bytes.get (fun _ => 0) a

/-- The bytes of generation g of region r. -/
def OtpSt.genBytes (o : OtpSt) (r g : Nat) : List Byte :=
  let x := otpRegion r
  (List.range x.size).map fun k => o.byte (x.off + g * x.size + k)

/-- The payload of generation g of region r. -/
def OtpSt.payload (o : OtpSt) (r g : Nat) : List Byte := (o.genBytes r g).take (otpRegion r).payload

/-- Every bit of a generation reads 0, and clearly (R527). -/
def OtpSt.blank (o : OtpSt) (r g : Nat) : Bool :=
  let x := otpRegion r
  let from' := 8 * (x.off + g * x.size)
  (o.genBytes r g).all (· == 0) && o.unclear.all (fun k => k < from' || from' + 8 * x.size ≤ k)

/-- A generation is valid: its commit word is right, each of its bits reads clearly, and the CRC matches (R527). -/
def OtpSt.valid (o : OtpSt) (r g : Nat) : Bool :=
  let x := otpRegion r
  let b := o.genBytes r g
  let word := 8 * (x.off + g * x.size + x.payload + 4)
  leNat (slice b (x.payload + 4) 4) == otpCommitWord && leNat (slice b x.payload 4) == crc32 (b.take x.payload) &&
  o.unclear.all (fun k => k < word || word + 32 ≤ k)

/-- A valid generation that boot takes: a power ceiling out of its range is skipped as a torn one is (R528). -/
def OtpSt.usable (o : OtpSt) (r g : Nat) : Bool :=
  o.valid r g &&
  (r != 5 || (let c := leNat ((o.payload 5 g).take 4); decide (1000 ≤ c ∧ c ≤ 120000)))

/-- A generation that counts as used and is reported torn (R527, R528) (DESIGN CHOICE, assumption 49). -/
def OtpSt.isTorn (o : OtpSt) (r g : Nat) : Bool := !o.blank r g && !o.usable r g

/-- The highest usable generation of a region, as a cold boot chooses it (R527). -/
def OtpSt.choose (o : OtpSt) (r : Nat) : Option Nat :=
  ((List.range (otpRegion r).gens).filter (o.usable r)).getLast?

/-- The generation in force of a region (R529). -/
def OtpSt.force (o : OtpSt) (r : Nat) : Option Nat := (o.inForce[r]?).join

/-- The payload in force of a region. -/
def OtpSt.inForcePayload (o : OtpSt) (r : Nat) : Option (List Byte) := (o.force r).map (o.payload r)

/-- The identity generation passes its check (R522). -/
def OtpSt.identityOk (o : OtpSt) : Bool :=
  o.valid 0 0 && leNat (slice (o.payload 0 0) 8 2) == 0x2400 &&
  (let g := ((o.payload 0 0).getD 10 0).toNat; g == 1 || g == 2)

/-- Byte 0 of the policy in force (R528). -/
def OtpSt.policy (o : OtpSt) : Nat :=
  match o.inForcePayload 3 with
  | some p => (p.getD 0 0).toNat
  | none => 0

/-- `SECURE` in force (R528). -/
def OtpSt.secure (o : OtpSt) : Bool := bit o.policy 0

/-- `FW_CHECK` is in force: set by the policy, and always while `SECURE` is 1 (R524). -/
def OtpSt.fwCheck (o : OtpSt) : Bool := bit o.policy 1 || o.secure

/-- `NO_DEFAULT_CRED` is in force (R528). -/
def OtpSt.noDefaultCred (o : OtpSt) : Bool := bit o.policy 2 || o.secure

/-- `FW_MIN_VERSION` in force. -/
def OtpSt.fwMin (o : OtpSt) : Nat :=
  match o.inForcePayload 3 with
  | some p => leNat (slice p 4 4)
  | none => 0

/-- The OTP ceiling in mW (R479). -/
def OtpSt.ceiling (o : OtpSt) : Nat :=
  match o.inForcePayload 5 with
  | some p => leNat (p.take 4)
  | none => 120000

/-- `GRADE` in force: 1 X, 2 C (R30, R528); 0 before OTP is read or after a failing check. -/
def OtpSt.grade (o : OtpSt) : Nat :=
  match o.inForcePayload 0 with
  | some p => (p.getD 10 0).toNat
  | none => 0

/-- `IDENTITY` of the device, 8 bytes (R528). -/
def OtpSt.identity (o : OtpSt) : List Byte :=
  match o.inForcePayload 0 with
  | some p => p.take 8
  | none => List.replicate 8 0

/-- `IDENTITY` as it stands in bursts and records on the line: a multi-byte field, most significant byte first (R7, DESIGN CHOICE,
assumption 199). -/
def Dev.identLine (d : Dev) : List Byte := d.otp.identity.reverse

/-- The session credential K of a role: set by `SESSION.CRED_SET`, else from OTP, else 32 zero bytes unless the policy forbids
default credentials (R45, R528). -/
def Dev.credential (d : Dev) (r : SessRole) : Option (List Byte) :=
  if d.conf .credSet r.code = 1 then some (beBytes 32 (d.conf .credKey r.code)) else
  let fromOtp := (d.otp.inForcePayload 2).map fun p => slice p (32 * (r.code - 1)) 32
  match fromOtp with
  | some k => if k.any (· != 0) then some k
      else if d.otp.noDefaultCred then none else some (List.replicate 32 0)
  | none => if d.otp.noDefaultCred then none else some (List.replicate 32 0)

/-- `BUDGET_MW` in force (R479): as committed, else 20,000 mW or the ceiling, whichever is lower. -/
def Dev.budget (d : Dev) : Nat := let v := d.conf .budget; if v = 0 then min 20000 d.otp.ceiling else v

/-- `STEADY_MW` in force (R479): as committed, else the ceiling. -/
def Dev.steady (d : Dev) : Nat := let v := d.conf .steady; if v = 0 then d.otp.ceiling else v

/-- The lower limit of Tj of the grade, in 0.1 °C (R1). -/
def Dev.tMin (d : Dev) : Int := if d.otp.grade = 1 then -400 else 0

/-- The upper limit of Tj of the grade, in 0.1 °C (R1). -/
def Dev.tMax (d : Dev) : Int := if d.otp.grade = 1 then 1100 else 1050

end Sys2Proof.Machine
end

