-- ==== Sys2Proof/Machine/Power.lean ====
section
/-! DEFINITION. Leave, the steady estimate, the `POWER` verbs, ramps and thermal states (R477 to R489). -/

namespace Sys2Proof.Machine

/-- Change the power state. -/
def Dev.modPower (d : Dev) (f : PowerSt → PowerSt) : Dev := { d with power := f d.power }

/-! ### Figures -/

/-- The figure of a unit as it stands (R478) (DESIGN CHOICE, assumption 40). -/
def Dev.figure (d : Dev) (full : Bool) (u : PowerUnit) : Nat :=
  match u with
  | .hostIn n => u.figure full (d.laneRate n)
  | .hostOut n => u.figure full (d.laneRate n)
  | u => u.figure full 2

/-- The steady estimate of a set of units, with the DORMANT figure (R478). -/
def Dev.estimateOf (d : Dev) (full : Bool) (l : List PowerUnit) : Nat := 420 + (l.map (d.figure full)).sum

/-- The steady estimate of the running units (R478). -/
def Dev.estimate (d : Dev) : Nat := d.estimateOf d.power.coreFull d.running

/-- The leave held (R479). -/
def Dev.leaveHeld (d : Dev) : Nat := (d.power.held.map (·.mw)).sum

/-! ### Requests (R484) -/

/-- A request for leave: refused at once when it exceeds the budget, else queued; the flag says whether it was queued. -/
def Dev.request (d : Dev) (op : LeaveOp) (mw : Nat) : Bool × Dev :=
  if mw > d.budget then
    (false, (d.modPower fun p => { p with refusals := (p.refusals + 1) % 2 ^ 32 }).raise .leaveRefused
      (d.pid ⟨.power, 0⟩) (sat 16 (mw / 10)))
  else (true, d.modPower fun p => { p with queue := p.queue ++ [⟨op, mw, d.now⟩] })

/-- An operation ends and gives its leave back. -/
def Dev.giveBack (d : Dev) (op : LeaveOp) : Dev :=
  d.modPower fun p => { p with held := p.held.filter (·.op != op) }

/-- A queued request is withdrawn. -/
def Dev.withdraw (d : Dev) (op : LeaveOp) : Dev :=
  d.modPower fun p => { p with queue := p.queue.filter (·.op != op) }

/-- An operation has leave. -/
def Dev.holds (d : Dev) (op : LeaveOp) : Bool := d.power.held.any (·.op == op)

/-- A request is a wake. -/
def LeaveReq.isWake (r : LeaveReq) : Bool := match r.op with
  | .wake _ => true
  | _ => false

/-- The request that may be granted next: the head; in `HOT` held wakes are passed over (R484, R487). -/
def Dev.headReq (d : Dev) : Option LeaveReq :=
  if d.power.thermal = .hot then d.power.queue.find? (fun r => !r.isWake) else d.power.queue.head?

/-- The request that a grant takes now: the head, when it fits within the budget and no power-fail warning stands (R484,
R533). -/
def Dev.grantable (d : Dev) : Option LeaveReq :=
  if d.boot.pfail.isSome then none else
  d.headReq.bind fun r => if d.leaveHeld + r.mw ≤ d.budget then some r else none

/-- Grant a request: it moves from the queue to the leave held (R484). -/
def Dev.grant (d : Dev) (r : LeaveReq) : Dev :=
  (d.modPower fun p => { p with
    queue := p.queue.erase r, held := p.held ++ [{ r with since := d.now }], grants := (p.grants + 1) % 2 ^ 32 }).count .dev 5

/-! ### Wakes (R482, R483, R485) -/

/-- A wake fails: the unit stays asleep, its leave is given back, the event is raised and its commit is told (R482) (DESIGN CHOICE, assumption 41). -/
def Dev.failWake (d : Dev) (u : PowerUnit) (st : Status) : Dev :=
  let id := (d.unit u).commit
  let d := ((d.setUnit u {}).withdraw (.wake u)).giveBack (.wake u)
  (d.raiseAt .wakeFailed u.patch st.code).wakeOver id u st

/-- A wake completes: the unit runs (R482, R483). -/
def Dev.wakeDone (d : Dev) (u : PowerUnit) : Dev :=
  let id := (d.unit u).commit
  let d := ((if u = .pll then d.foldCycles.foldTc else d.foldCycles).setUnit u { phase := .running, commit := 0, since := d.now }).giveBack (.wake u)
  (d.raiseAt .wakeDone u.patch (if u = .pll then 1 else 0)).wakeOver id u .ok

/-- The converter temperature in 0.01 °C: the mean of sensors 0 and 1 (R102, R504). -/
def Dev.convTemp (d : Dev) : Int := (d.power.sensors.getD 0 0 + d.power.sensors.getD 1 0) / 2

/-- The core's wake requests the leave of its initial run: its temperature is the reference (R122, R123). -/
def Dev.refTemp (d : Dev) (u : PowerUnit) : Dev := if u = .core then { d with conv := { d.conv with calRef := d.convTemp } } else d

/-- A wake of a commit enters the arbiter; refused or shut down, it fails at once (R482, R484, R487). -/
def Dev.enterWake (d : Dev) (id : Nat) (u : PowerUnit) : Dev :=
  let d := d.modCommit id fun c => { c with wakes := c.wakes ++ [u] }
  let d := (d.setUnit u { phase := .queued, commit := id, since := d.now }).refTemp u
  if d.power.thermal = .shutdown then d.failWake u .powerThermal
  else
    let r := d.request (.wake u) (u.leave d.power.coreFull)
    if r.1 then r.2 else r.2.failWake u .noLeave

/-- The slope of a unit's ramp in µA/µs, 0 for no ramp (R485) (DESIGN CHOICE, assumption 37). -/
def Dev.slope (d : Dev) (u : PowerUnit) : Nat :=
  let t := d.rampUs u
  if t = 0 then 0 else d.figure d.power.coreFull u * 1000000 / (700 * t)

/-- The ramps that have not ended. -/
def Dev.liveRamps (d : Dev) : List Ramp := d.power.ramps.filter (·.until' > d.now)

/-- The first instant at which a ramp of a slope may start: not before those that wait already, and when its slope, with those of the
ramps in progress, is within `STEP_LIMIT` (R485). -/
def Dev.rampFit (d : Dev) (slope : Nat) : Nat :=
  let live := d.liveRamps
  let fits := fun (t : Nat) =>
    decide (((live.filter (·.until' > t)).map (·.slope)).sum + slope ≤ d.conf .stepLimit * 100000)
  let base := live.foldl (fun t r => max t r.start) d.now
  let ends := sortBy (fun a b => decide (a ≤ b)) ((live.map (·.until')).filter (· > base))
  if fits base then base else (ends.find? fits).getD (ends.getLast?.getD base)

/-- The ramp of a unit starts as soon as it may; nothing for a unit without one (DESIGN CHOICE, assumption 37). -/
def Dev.ramp (d : Dev) (u : PowerUnit) : Dev :=
  let sl := d.slope u
  if sl = 0 then d else
  let t := d.rampFit sl
  d.modPower fun p => { p with ramps := d.liveRamps ++ [⟨sl, t, t + usCycles (d.rampUs u)⟩] }

/-- A granted wake starts: the PLL at once; another unit once the PLL runs, and once its ramp fits (R483, R485). -/
def Dev.startWake (d : Dev) (u : PowerUnit) : Dev :=
  d.setUnit u { (d.unit u) with phase := .starting, since := d.now }

/-- After a grant or after the PLL runs: granted wakes without a ramp start (R483). -/
def Dev.startReady (d : Dev) : Dev :=
  (PowerUnit.all.filter fun u => (d.unit u).phase == .granted && (u == .pll || (d.runs .pll && d.slope u == 0))).foldl
    Dev.startWake d

/-- The granted wake whose ramp is due next, in grant order (R485). -/
def Dev.nextRamp (d : Dev) : Option PowerUnit :=
  if !d.runs .pll then none else
  d.power.held.findSome? fun r => match r.op with
    | .wake u => if (d.unit u).phase = .granted ∧ d.slope u ≠ 0 then some u else none
    | _ => none

/-- RAMP_START: the next granted wake's ramp starts when its slope, with those of the ramps in progress, is within
`STEP_LIMIT` (R485) (DESIGN CHOICE, assumption 38). -/
def Dev.rampStart (d : Dev) : Dev :=
  match d.nextRamp with
  | none => d
  | some u =>
    let d := d.at (d.rampFit (d.slope u))
    (d.ramp u).startWake u

/-- RAMP_START (R485). -/
def execRampStart (s : State) : Host.Outcome State Fault Refusal := s.run Dev.rampStart

/-! ### POWER.SET (R481) -/

/-- The present target code of a unit: 0 asleep, 1 awake; the core 2 narrow, 3 full. -/
def Dev.presentTarget (d : Dev) (u : PowerUnit) : Nat :=
  if d.asleep u then 0 else if u = .core then (if d.power.coreFull then 3 else 2) else 1

/-- `TARGET` and `DIR` are ones that a class takes (R481). -/
def powerSetFits (cls : PClass) (target dir : Nat) : Bool :=
  let lane := cls == .hostLane || cls == .stitchLane
  (if cls == .line then target != 1 else decide (target ≤ 1)) && (if lane then dir != 0 else dir == 0)

/-- POWER.SET (R481). -/
def verbPowerSet : Verb where
  code := 0x0301
  role := .operator
  len := 8
  groups := true
  params := [⟨0, 0, 32, .patch [(.line, 0, 0), (.wideband, 0, 3), (.subcarrier, 0, 31), (.pipeline, 0, 7), (.cipher, 0, 4),
      (.hbm, 0, 1), (.sram, 2, 2), (.hostLane, 0, 15), (.stitchLane, 0, 7), (.capture, 0, 0)]⟩,
    ⟨4, 4, 4, .rsv⟩, ⟨5, 0, 24, .rsv⟩]
  codes := fun c => !powerSetFits c.cls (c.p 4 0 2) (c.p 4 2 2)

/-- The converter mode, committed or staged by any session, is narrow (R18, R481). -/
def Dev.narrowTarget (d : Dev) : Bool :=
  d.anyStaged .wakeTarget PowerUnit.core.index (· == 2) || (!d.asleep .core && !d.power.coreFull)

/-- What refuses a target for one unit, in the order of R481; a target equal to the unit's state is refused by nothing. -/
def Dev.refusesTarget (d : Dev) (u : PowerUnit) (t : Nat) : Option Status :=
  if d.presentTarget u = t then none else
  firstOf [
    (u.isLine && d.role == .unset, .state),
    (u == .core && ((t == 3 && d.role == .leaf) || (t == 2 && (d.role == .hub || d.role == .p2p))), .state),
    (u == .lem && d.role != .hub, .state),
    (t == 1 && (u == .wb 1 || u == .wb 2 || u == .wb 3) && d.narrowTarget, .state),
    (t == 0 && (d.inUse u || d.waking u), .state),
    (t != 0 && d.anyStaged .wakeTarget u.index (· == 0), .stagedConflict),
    (t != 0 && d.power.thermal == .shutdown, .powerThermal)]

/-- One member's check (R481). -/
def powerSetCheck (c : Call) (d : Dev) (i : Nat) : Option Status :=
  let p : Patch := ⟨c.cls, i⟩
  if p.cls = .sram ∧ i ≠ 2 then some .badParameter
  else (p.units (c.p 4 2 2)).findSome? fun u => d.refusesTarget u (c.p 4 0 2)

/-- One member's fields: the targets that differ from the units' states (R481). -/
def powerSetVals (c : Call) (d : Dev) (i : Nat) : List FieldVal :=
  ((Patch.units ⟨c.cls, i⟩ (c.p 4 2 2)).filter fun u => d.presentTarget u != c.p 4 0 2).map
    fun u => fv .wakeTarget u.index (c.p 4 0 2) 8

/-- The meaning of `POWER.SET`: targets that equal the unit's present state stage nothing (R481). -/
def bodyPowerSet : Body := onDev fun c d =>
  let l := c.insts d
  match l.findSome? (powerSetCheck c d) with
  | some st => (.now st, d)
  | none => d.stageAns c ((l.map fun i => ((⟨c.cls, i⟩ : Patch), powerSetVals c d i)).filter (!·.2.isEmpty))

/-- POWER_SET (R481). -/
def execPowerSet (c : HostCall) (s : State) : Host.Outcome State Fault Refusal := runVerb verbPowerSet bodyPowerSet c s

/-! ### POWER.BUDGET (R480) -/

/-- POWER.BUDGET (R480). -/
def verbPowerBudget : Verb where
  code := 0x0302
  role := .privileged
  len := 12
  params := [⟨0, 0, 32, .range 1000 120000⟩, ⟨4, 0, 32, .range 420 120000⟩, ⟨8, 0, 8, .range 6 40⟩, ⟨9, 0, 8, .range 1 20⟩,
    ⟨10, 0, 16, .rsv⟩]

/-- POWER_BUDGET (R480). -/
def execPowerBudget (c : HostCall) (s : State) : Host.Outcome State Fault Refusal :=
  runVerb verbPowerBudget (stageOn ⟨.power, 0⟩
    (fun c d => if c.p 0 0 32 > d.otp.ceiling ∨ c.p 4 0 32 > d.otp.ceiling then some .outOfRange else none)
    (fun c _ => [fv .budget 0 (c.p 0 0 32), fv .steady 0 (c.p 4 0 32), fv .stepLimit 0 (c.p 8 0 8) 8,
      fv .tjMargin 0 (c.p 9 0 8) 8])) c s

/-! ### What a commit's power fields do (R482) -/

/-- The units a commit puts to sleep: targets 0, and the core before a change of its mode (R482). -/
def Dev.sleepsOf (d : Dev) (es : List Entry) : List PowerUnit :=
  ((stagedAll es .wakeTarget).filter fun x =>
    let u := PowerUnit.ofIndex x.1
    !d.asleep u && (x.2 == 0 || (u == .core && d.presentTarget u != x.2))).map fun x => PowerUnit.ofIndex x.1

/-- The units a commit wakes, in the order of R482, with the system PLL first if it is off and another wakes. -/
def Dev.wakesOf (d : Dev) (es : List Entry) : List PowerUnit :=
  let st := stagedAll es .wakeTarget
  let l := PowerUnit.all.filter fun u => st.any fun x => x.1 == u.index && x.2 != 0 && d.presentTarget u != x.2
  if l.isEmpty ∨ !d.asleep .pll then l else .pll :: l

/-- The role after a commit. -/
def Dev.roleAfter (d : Dev) (es : List Entry) : DevRole :=
  match staged? es .role 0 with
  | some r => DevRole.ofCode r
  | none => d.role

/-- The core's mode after a commit (R482); while it is asleep, the one that the role allows (R21). -/
def Dev.fullAfter (d : Dev) (es : List Entry) : Bool :=
  match staged? es .wakeTarget PowerUnit.core.index with
  | some 2 => false
  | some 3 => true
  | _ => if d.asleep .core then d.roleAfter es != .leaf else d.power.coreFull

/-- The units that would run after a commit's sleeps and wakes; the PLL stops with the last TC-family unit (R483). -/
def Dev.runningAfter (d : Dev) (es : List Entry) : List PowerUnit :=
  let sl := d.sleepsOf es
  let wk := d.wakesOf es
  let l := PowerUnit.all.filter fun u => wk.contains u || (d.runs u && !sl.contains u)
  if l.all (· == .pll) then [] else l

/-- After a commit the core would run in narrow mode with WB1, WB2 or WB3 awake, which stay asleep there (R18). -/
def Dev.narrowClash (d : Dev) (es : List Entry) : Bool :=
  let sl := d.sleepsOf es
  let wk := d.wakesOf es
  let on := fun (u : PowerUnit) => wk.contains u || (!d.asleep u && !sl.contains u)
  !d.fullAfter es && on .core && (on (.wb 1) || on (.wb 2) || on (.wb 3))

/-- After a commit its wakes, or wakes still under way, would not fit the role or the mode: a line unit with no role (R22), a core in a
mode that the role does not have, a leaf equaliser memory on a device that is no hub (R21), or `Dev.narrowClash` (R18). -/
def Dev.modeClash (d : Dev) (es : List Entry) : Bool :=
  let coming := fun (u : PowerUnit) => (d.wakesOf es).contains u || d.waking u
  let role := d.roleAfter es
  (role == .unset && PowerUnit.all.any fun u => u.isLine && coming u) ||
  (role != .unset && coming .core && d.fullAfter es == (role == .leaf)) ||
  (role != .hub && coming .lem) || d.narrowClash es

/-- Validation of a commit's power fields: wakes that the role or the mode excludes (DEDUCED, assumption 196), then `POWER_LIMIT`, then
`NO_LEAVE`, against the budget the same commit may carry (R18, R21, R22, R480, R482). -/
def validatePower (d : Dev) (new : Dev) (es : List Entry) : Option Status :=
  let touched := es.any fun e => e.vals.any fun v => v.fld == .wakeTarget || v.fld == .steady
  let full := d.fullAfter es
  if (touched || (staged? es .role 0).isSome) && d.modeClash es then some .state
  else if touched && decide (new.estimateOf full (d.runningAfter es) > new.steady) then some .powerLimit
  else if (d.wakesOf es).any fun u => decide (u.leave full > new.budget) then some .noLeave
  else none

/-! ### POWER.STATUS (R488) -/

/-- POWER.STATUS (R488). -/
def verbPowerStatus : Verb where
  code := 0x0303
  role := .observer
  len := 0

/-- The code of a thermal state (R488). -/
def Thermal.code : Thermal → Nat
  | .normal => 0 | .warn => 1 | .hot => 2 | .shutdown => 3

/-- The results of `POWER.STATUS` (R488). -/
def powerStatus (v : Dev) : Res :=
  res 44 [at' 0 0 2 v.powerState.code, at' 0 2 3 v.power.thermal.code, fieldAt 1 8 (sat 8 v.power.queue.length),
    fieldAtS 2 16 v.power.tj, fieldAt 4 32 v.estimate, fieldAt 8 32 v.leaveHeld,
    fieldAt 12 32 ((v.power.queue.head?.map (·.mw)).getD 0),
    fieldAt 16 32 (sat 32 ((v.power.queue.head?.map fun r => (v.now - r.since) / 25).getD 0)),
    fieldAt 20 32 v.budget, fieldAt 24 32 v.steady, fieldAt 28 32 v.otp.ceiling, fieldAt 32 16 v.power.vtile,
    fieldAt 36 32 v.power.grants, fieldAt 40 32 v.power.refusals]

/-- POWER_STATUS (R488). -/
def execPowerStatus (c : HostCall) (s : State) : Host.Outcome State Fault Refusal :=
  runVerb verbPowerStatus (onView fun _ v => .now .ok (powerStatus v)) c s

/-! ### Thermal states (R487) -/

/-- The next thermal state at a Tj in 0.1 °C, none to stay (R487). `SHUTDOWN` is entered by its own step. -/
def Dev.thermalNext (d : Dev) (tj : Int) : Option Thermal :=
  let m : Int := 10 * d.conf .tjMargin
  match d.power.thermal with
  | .normal => if tj ≥ d.tMax - m ∨ tj ≤ d.tMin + m then some .warn else none
  | .warn =>
    if tj ≥ d.tMax then some .hot
    else if tj < d.tMax - m - 20 ∧ tj > d.tMin + m + 20 then some .normal else none
  | .hot => if tj < d.tMax - 20 then some .warn else none
  | .shutdown => if tj < d.tMax - 50 then some .warn else none

/-- The event of a thermal transition (R487, R489). -/
def Dev.thermalEvent (d : Dev) (src dst : Thermal) (tj : Int) : Dev :=
  let raise := fun ev => d.raiseAt ev ⟨.power, 0⟩ (unsigned 16 tj)
  match src, dst with
  | .normal, .warn => raise .tjWarn
  | .warn, .hot => raise .tjHot
  | .warn, .normal => raise .tjNormal
  | _, _ => d

/-- The transitions that one reading makes, in turn, at most n of them (R487). -/
def Dev.thermalSteps : Nat → Int → Dev → Dev
  | 0, _, d => d
  | n + 1, tj, d =>
    match d.thermalNext tj with
    | none => d
    | some t => Dev.thermalSteps n tj ((d.modPower fun p => { p with thermal := t }).thermalEvent d.power.thermal t tj)

/-- A reading of the eight sensors, in 0.01 °C: Tj is the highest; the thermal table is evaluated; the millisecond at or above
Tmax + 10 °C in `HOT` is timed (R487, R504) (DESIGN CHOICE, assumption 32). -/
def Dev.thermalReading (d : Dev) (temps : List Int) : Dev :=
  match temps with
  | [] => d
  | t0 :: r =>
    let tj := (r.foldl max t0) / 10
    let wasHot := d.power.thermal == .hot
    let d := Dev.thermalSteps 3 tj (d.modPower fun p => { p with tj := tj, sensors := temps })
    d.modPower fun p => { p with overSince :=
      if p.thermal = .hot ∧ tj ≥ d.tMax + 100 then (if wasHot then some (p.overSince.getD d.now) else some d.now) else none }

/-- VTILE_SETPOINT_CHANGE: a setpoint of 670 to 730 mV in steps of 5 mV; a change raises the event (R486). -/
def execVtileSetpointChange (mv : Nat) (s : State) : Host.Outcome State Fault Refusal :=
  s.run fun d =>
    if 670 ≤ mv ∧ mv ≤ 730 ∧ mv % 5 = 0 ∧ mv ≠ d.power.vtile ∧ d.fwRuns then
      (d.modPower fun p => { p with vtile := mv }).raiseAt .vtileRequest ⟨.power, 0⟩ mv
    else d

end Sys2Proof.Machine
end

