-- ==== Sys2Proof/Machine/Jtag.lean ====
section
/-! DEFINITION. The boundary-scan TAP: its controller, its instructions and its registers (R3, and IEEE 1149.1, which R521's chapter names). -/

namespace Sys2Proof.Machine

/-- Where an edge of `JTAG_TCK` takes the controller, by `JTAG_TMS` (IEEE 1149.1). -/
def TapCtl.next : TapCtl → Bool → TapCtl
  | .reset, tms => if tms then .reset else .idle
  | .idle, tms => if tms then .selectDr else .idle
  | .selectDr, tms => if tms then .selectIr else .captureDr
  | .captureDr, tms => if tms then .exit1Dr else .shiftDr
  | .shiftDr, tms => if tms then .exit1Dr else .shiftDr
  | .exit1Dr, tms => if tms then .updateDr else .pauseDr
  | .pauseDr, tms => if tms then .exit2Dr else .pauseDr
  | .exit2Dr, tms => if tms then .updateDr else .shiftDr
  | .updateDr, tms => if tms then .selectDr else .idle
  | .selectIr, tms => if tms then .reset else .captureIr
  | .captureIr, tms => if tms then .exit1Ir else .shiftIr
  | .shiftIr, tms => if tms then .exit1Ir else .shiftIr
  | .exit1Ir, tms => if tms then .updateIr else .pauseIr
  | .pauseIr, tms => if tms then .exit2Ir else .pauseIr
  | .exit2Ir, tms => if tms then .updateIr else .shiftIr
  | .updateIr, tms => if tms then .selectDr else .idle

/-- The instruction that a code selects: all ones `BYPASS`; of the other codes the spec gives none (PRESUMED, assumption 208). -/
def tapInstr (code : List Bool) : TapInstr :=
  if code.all id then .bypass else
  match Config.tapCode code % 4 with
  | 0 => .extest
  | 1 => .samplePreload
  | 2 => .idcode
  | _ => .bypass

/-- The n bits of a number, the least significant first. -/
def bitsOf (n v : Nat) : List Bool := (List.range n).map (bit v)

/-- What the selected data register captures, given the sample of the pins: IDCODE is 0x1240_0B4D. -/
def TapInstr.capture (i : TapInstr) (pins : List Bool) : List Bool :=
  match i with
  | .idcode => bitsOf 32 0x12400B4D
  | .bypass => [false]
  | .extest | .samplePreload => pins

/-- Shift one bit in: what leaves on `JTAG_TDO`, and the register after it. -/
def tapShift (l : List Bool) (tdi : Bool) : Bool × List Bool := (l.headD tdi, (l ++ [tdi]).drop 1)

/-- A TCK edge does what the controller's state names, then moves the controller; entering an update latches. `pins`: the sample of
the boundary cells at a capture; `code`: the upper bits that a capture of the instruction register gives (PRESUMED, assumption 208). -/
def TapSt.edge (t : TapSt) (tms tdi : Bool) (pins code : List Bool) : Option Bool × TapSt :=
  let r : Option Bool × TapSt := match t.ctl with
    | .captureDr => (none, { t with shift := t.instr.capture pins })
    | .captureIr => (none, { t with shift := [true, false] ++ code })
    | .shiftDr | .shiftIr => let s := tapShift t.shift tdi; (some s.1, { t with shift := s.2 })
    | _ => (none, t)
  let n := t.ctl.next tms
  let x := { r.2 with ctl := n }
  (r.1, match n with
    | .reset => { x with instr := .idcode }
    | .updateIr => { x with instr := tapInstr x.shift }
    | .updateDr => if x.instr = .extest ∨ x.instr = .samplePreload then { x with latch := x.shift } else x
    | _ => x)

/-- Edges of `JTAG_TCK`, each with `JTAG_TMS` and `JTAG_TDI`: in secure mode the TAP stays in Test-Logic-Reset; else it works, and the bits
that leave on `JTAG_TDO` are sent. The pins' sample is open (R468, R522, assumption 208). -/
def Dev.tapEdges (d : Dev) (secure : Bool) (edges : List (Bool × Bool)) : Dev :=
  if secure then { d with boot := { d.boot with tap := {} } } else
  let r := edges.foldl (fun (r : List Bool × Dev) e =>
    let w := r.2.draw
    let x := r.2.boot.tap.edge e.1 e.2 (bitsOf Config.tapCells w.1) (bitsOf (Config.tapBits - 2) (w.1 / 2 ^ Config.tapCells))
    (r.1 ++ x.1.toList, { w.2 with boot := { w.2.boot with tap := x.2 } })) ([], d)
  if r.1.isEmpty then r.2 else r.2.emit (.tdo r.1)

end Sys2Proof.Machine
end

