-- ==== Sys2Proof/Machine/Thimble.lean ====
section
/-! DEFINITION. The thimble: key-encryption keys, alarms and erasure (R459, R468, R469). -/

namespace Sys2Proof.Machine

/-- Change the crypto state. -/
def Dev.modCrypt (d : Dev) (f : CryptAll → CryptAll) : Dev := { d with crypt := f d.crypt }

/-- A root-key generation is in force (R459). -/
def OtpSt.hasRoot (o : OtpSt) : Bool := (o.inForcePayload 1).isSome

/-- The key-encryption key of an index, while keys exist (R459). -/
def Dev.kek (d : Dev) (i : Nat) : Option (List Byte) :=
  if !d.crypt.keks then none else
  (d.otp.inForcePayload 1).map fun root => hmacSha256 root (ascii "IMF-KEK" ++ [BitVec.ofNat 8 i] ++ d.otp.identity)

/-- Derive the key-encryption keys (R459). -/
def Dev.deriveKeks (d : Dev) : Dev := d.modCrypt fun c => { c with keks := d.otp.hasRoot }

/-- A source of alarm is enabled (R468): 7 always; 1 and 6 always in secure mode, 6 only then; the others by `ALARM_SET` (DESIGN CHOICE, assumption 151). -/
def Dev.alarmEnabled (d : Dev) (source : Nat) : Bool :=
  source == 7 || (d.otp.secure && (source == 1 || source == 6)) || (source != 6 && bit (d.conf .alarmEn) source)

/-- Staged key loads of some entries are gone (R469) (DESIGN CHOICE, assumption 150). -/
def dropKeys (l : List Entry) : List Entry :=
  (l.map fun e => { e with vals := e.vals.filter fun v => v.fld != .keyLoad }).filter fun e => !e.vals.isEmpty || e.patch.cls != .cipher

/-- Erase every key: slots, staged loads, key-encryption keys, credentials and the K that a challenged session took, in whose place
stands the credential of OTP, and the packets whose tag is being checked (R469) (DESIGN CHOICE, assumption 156). -/
def Dev.eraseKeys (d : Dev) : Dev :=
  let d := d.modCrypt fun c => { c with
    ctxs := c.ctxs.mapVals (fun _ => {}) fun x => { x with slots := [], holds := [] }, keks := false }
  let d : Dev := { d with
    cfg := { d.cfg with staged := dropKeys d.cfg.staged, commits := d.cfg.commits.map fun c => { c with entries := dropKeys c.entries } }
    pkt := { d.pkt with held := [] } }
  let d := [1, 2, 3].foldl (fun d r => (d.setConf .credSet r 0).setConf .credKey r 0) d
  { d with ctl := { d.ctl with slots := d.ctl.slots.mapVals (fun _ => {}) fun (s : Slot) =>
      if s.key.isEmpty then s else { s with key := (d.credential s.reqRole).getD [] } } }

/-- An alarm of a source: in `ARMED` everything is erased; in `ALARM` the source is recorded (R469) (DESIGN CHOICE, assumption 151). -/
def Dev.thimble (d : Dev) (source : Nat) : Dev :=
  let was := d.crypt.alarm
  let d := d.modCrypt fun c => { c with alarm := true, seen := if c.seen.contains source then c.seen else c.seen ++ [source] }
  if was then d else d.eraseKeys.raiseAt .thimbleAlarm ⟨.cipher, 0⟩ source

/-- THIMBLE_ALARM: the condition of a source begins, with an alarm where the source is enabled, or ends (R468, R469). Source 6 comes with the
TCK edges of its boundary scan: in secure mode one with `JTAG_TMS` high is an access; else they run the TAP (R3). -/
def execThimbleAlarm (source : Nat) (on : Bool) (edges : List (Bool × Bool)) (s : State) : Host.Outcome State Fault Refusal :=
  s.run fun d =>
    if source = 0 ∨ source > 6 then d else
    let d := if source = 6 then d.tapEdges d.otp.secure edges else d
    if source = 6 ∧ !(edges.any (·.1)) then d else
    let lasting := decide (source ≤ 4)
    let d := d.modCrypt fun c => { c with
      live := if on && lasting then (if c.live.contains source then c.live else c.live ++ [source]) else c.live.filter (· != source) }
    if on && d.alarmEnabled source then d.thimble source else d

/-- A failed proof: enough of them in succession are an alarm (R468). -/
def Dev.authAlarm (d : Dev) (fails : Nat) : Dev :=
  if fails ≥ d.conf .authThresh ∧ d.alarmEnabled 5 then d.thimble 5 else d

end Sys2Proof.Machine
end

