-- ==== Sys2Proof/Machine/Crypt.lean ====
section
/-! DEFINITION. Crypto contexts, key loads and cipher passes (R454 to R476), and `SESSION.CRED_SET` (R57). -/

namespace Sys2Proof.Machine

/-! ### Access -/

/-- A crypto context. -/
def Dev.ctx (d : Dev) (n : Nat) : CtxSt := d.crypt.ctxs.get (fun _ => {}) n

/-- Change a crypto context. -/
def Dev.modCtx (d : Dev) (n : Nat) (f : CtxSt → CtxSt) : Dev :=
  d.modCrypt fun c => { c with ctxs := c.ctxs.modify (fun _ => {}) n f }

/-- A key slot of a context. -/
def CtxSt.slot (c : CtxSt) (an : Nat) : KeySlot := c.slots.get (fun _ => {}) an

/-- Change a key slot. -/
def CtxSt.setSlot (c : CtxSt) (an : Nat) (f : KeySlot → KeySlot) : CtxSt :=
  { c with slots := c.slots.modify (fun _ => {}) an f }

/-- The `ACTIVE` slot of an encrypt context. -/
def CtxSt.activeSlot (c : CtxSt) : Option Nat := (List.range 4).find? fun an => (c.slot an).state == .active

/-- The direction of a context's events where no packet gives one: an encrypt context is a transmit one (R475). -/
def Dev.ctxRx (d : Dev) (n : Nat) : Bool := d.conf .cRole n == 1

/-- An occurrence at a cipher group of which the spec does not say which: one of those awake (R492, assumption 1) (DESIGN CHOICE, assumption 155). -/
def Dev.cipherCount (d : Dev) (code : Nat) : Dev :=
  let l := (List.range 5).filter fun k => d.runs (.cipher k)
  let r := d.draw
  r.2.count (.cipher (l.getD (r.1 % l.length) 0)) code

/-! ### Contexts (R471) -/

/-- CRYPT.CONTEXT_SET (R471). -/
def verbCryptContextSet : Verb where
  code := 0x3801
  role := .operator
  len := 24
  params := [⟨2, 1, 2, .enum [0, 1, 2]⟩, ⟨2, 5, 3, .rsv⟩, ⟨3, 0, 6, .range 0 48⟩, ⟨3, 6, 2, .rsv⟩, ⟨12, 0, 6, .range 0 40⟩,
    ⟨12, 6, 2, .rsv⟩, ⟨13, 7, 1, .rsv⟩, ⟨16, 0, 16, .range 0 60000⟩, ⟨20, 0, 32, .rsv⟩]
  ranges := fun c => c.p 2 1 2 == 0 && decide (c.p 18 0 16 < 0x600)

/-- What refuses a context (R471). -/
def cryptContextCheck (c : Call) (d : Dev) : Option Status :=
  let n := c.p 0 0 16
  let f := c.p 2 1 2
  let et := c.p 18 0 16
  let used := (List.range 4).any fun an => ((d.ctx n).slot an).state != .empty
  firstOf [
    (f == 0 && (c.p 2 3 1 != 0 || c.p 4 0 64 != 0) || f != 0 && (c.p 3 0 6 != 0 || et != 0), .badParameter),
    (used && (c.p 2 0 1 != d.conf .cRole n || f != d.conf .cFormat n), .state)]

/-- The meaning of `CRYPT.CONTEXT_SET`. -/
def bodyCryptContextSet : Body := stageOn ⟨.cipher, 0⟩ cryptContextCheck fun c _ =>
  let n := c.p 0 0 16
  [fv .cRole n (c.p 2 0 1) 1, fv .cFormat n (c.p 2 1 2) 2, fv .cSc n (c.p 2 3 1) 1, fv .cValid n (c.p 2 4 1) 1,
    fv .cClear n (c.p 3 0 6) 6, fv .cSci n (c.p 4 0 64) 64, fv .cWarn n (c.p 12 0 6) 6, fv .cWindow n (c.p 13 0 6) 6,
    fv .cReplay n (c.p 13 6 1) 1, fv .cQ n (c.p 14 0 16) 16, fv .cHold n (c.p 16 0 16) 16, fv .cEtype n (c.p 18 0 16) 16]

/-- CRYPT_CONTEXT_SET (R471). -/
def execCryptContextSet (c : HostCall) (s : State) : Host.Outcome State Fault Refusal :=
  runVerb verbCryptContextSet bodyCryptContextSet c s

/-! ### Key loads (R459, R460, R472) -/

/-- A record of `CRYPT.KEY_LOAD`: its fields, and its wrapped key's bytes. -/
structure KeyRec where
  ctx : Nat
  an : Nat
  activate : Bool
  key256 : Bool
  kek : Nat
  ssci : Nat
  startPn : Nat
  ceiling : Nat
  wrapped : List Byte
deriving DecidableEq, Repr

/-- Read a record of 96 bytes; none where a reserved byte, or one beyond an AES-128 key, is not zero. -/
def KeyRec.read (b : List Byte) : Option KeyRec :=
  let v := leNat b
  let r : KeyRec := ⟨bits v 0 16, bits v 16 2, bit v 18, bit v 19, bits v 20 4, bits v 32 32, bits v 64 64, bits v 128 64,
    slice b 24 (if bit v 19 then 56 else 40)⟩
  if bits v 24 8 != 0 || bits v 640 128 != 0 || (!r.key256 && bits v 512 128 != 0) then none else some r

/-- The key and salt that a wrapped key unwraps to; none where the check or the padding is wrong (R460) (DESIGN CHOICE, assumption 153). -/
def unwrapKey (kek : List Byte) (format : Nat) (key256 : Bool) (wrapped : List Byte) : Option (List Byte × List Byte) :=
  let n := if key256 then 32 else 16
  (kwUnwrap kek wrapped).bind fun p =>
    let salt := slice p n 12
    if p.length ≠ n + 16 ∨ !(slice p (n + 12) 4).all (· == 0) ∨ (format = 0 ∧ !(salt.drop 4).all (· == 0)) then none
    else some (p.take n, salt)

/-- A key load as it is staged: a flag each for `ACTIVATE` and a 256-bit key, `SSCI`, `START_PN`, `PN_CEILING`, key and salt. -/
def keyVal (r : KeyRec) (key salt : List Byte) : Nat :=
  pack [⟨0, 1, b2n r.activate⟩, ⟨1, 1, b2n r.key256⟩, ⟨32, 32, r.ssci⟩, ⟨64, 64, r.startPn⟩, ⟨128, 64, r.ceiling⟩,
    ⟨192, 256, leNat key⟩, ⟨448, 96, leNat salt⟩]

/-- A record's packet numbers lie outside their ranges, as the format that its session sees for the context has them (R462, R472). -/
def Dev.keyOut (d : Dev) (owner : Nat) (r : KeyRec) : Bool :=
  decide (r.startPn = 0 ∨ r.ceiling < r.startPn ∨ (d.seen owner .cFormat r.ctx = 1 ∧ r.ceiling ≥ 2 ^ 32))

/-- The checks of one record and its staged field, for the session that loads it (R461, R462, R472) (DESIGN CHOICE, assumption 149). -/
def Dev.keyRecord (d : Dev) (owner : Nat) (r : KeyRec) : Except Status FieldVal :=
  let role := d.seen owner .cRole r.ctx
  let f := d.seen owner .cFormat r.ctx
  if (f ≠ 0 ∧ !r.key256) ∨ (role = 1 ∧ r.activate) ∨ (f ≠ 2 ∧ r.ssci ≠ 0) then .error .badParameter
  else if d.keyOut owner r then .error .outOfRange
  else if ((d.ctx r.ctx).slot r.an).state = .active then .error .cryptSlotBusy
  else match d.kek r.kek with
    | none => .error .state
    | some k => match unwrapKey k f r.key256 r.wrapped with
      | none => .error .cryptUnwrap
      | some (key, salt) => .ok ⟨.keyLoad, 4 * r.ctx + r.an, keyVal r key salt, 0⟩

/-- The checks of every record in turn. -/
def Dev.keyRecords (d : Dev) (owner : Nat) : List KeyRec → Except Status (List FieldVal)
  | [] => .ok []
  | r :: l => match d.keyRecord owner r with
    | .error st => .error st
    | .ok v => match d.keyRecords owner l with
      | .error st => .error st
      | .ok vs => .ok (v :: vs)

/-- Whether the records of a buffer may stand together (R472). -/
def keyRecsOk (l : List (Option KeyRec)) : Bool :=
  let rs := l.filterMap id
  let ids := rs.map fun r => 4 * r.ctx + r.an
  let acts := (rs.filter (·.activate)).map (·.ctx)
  rs.length == l.length && ids.length == ids.eraseDups.length && acts.length == acts.eraseDups.length

/-- Unwrap and stage the records of a buffer: all or nothing (R472), in the order of R569: reserved bytes, ranges, the alarm, the records
together, then one by one. Keys lie in the crypto-context store, not in the basting area
(R460). -/
def Dev.loadKeys (d : Dev) (owner : Nat) (b : List Byte) : Status × Dev :=
  let l := (chunks 96 (b.length / 96) b).map KeyRec.read
  if l.any (·.isNone) then (.badParameter, d)
  else if (l.filterMap id).any (d.keyOut owner) then (.outOfRange, d)
  else if d.crypt.alarm then (.cryptAlarm, d)
  else if !d.otp.hasRoot then (.state, d)
  else if !keyRecsOk l then (.badParameter, d)
  else match d.keyRecords owner (l.filterMap id) with
    | .error st => (st, d)
    | .ok vals => d.stage owner [(⟨.cipher, 0⟩, vals)]

/-- CRYPT.KEY_LOAD (R472). -/
def verbCryptKeyLoad : Verb where
  code := 0x3802
  role := .privileged
  len := 0
  ext := .always

/-- The meaning of `CRYPT.KEY_LOAD`: up to 64 records at once; more of them with leave (R472, R484). -/
def bodyCryptKeyLoad : Body := onDev fun c d =>
  let n := c.extLen / 96
  if c.extLen % 96 ≠ 0 ∨ n > 65536 then (.now .badParameter, d)
  else if n ≤ 64 then let r := d.loadKeys c.slot c.bytes; (.now r.1, r.2)
  else
    let id := d.crypt.nextBulk
    let r := d.request (.rekey id) 800
    if r.1 then
      (.accept, r.2.modCrypt fun x => { x with
        nextBulk := id + 1, bulks := x.bulks ++ [⟨id, c.bytes, c.slot, (d.slot c.slot).serial, c.seq, none⟩] })
    else (.ended .noLeave, r.2)

/-- CRYPT_KEY_LOAD (R472). -/
def execCryptKeyLoad (c : HostCall) (s : State) : Host.Outcome State Fault Refusal := runVerb verbCryptKeyLoad bodyCryptKeyLoad c s

/-- Leave for a bulk key load is granted (DESIGN CHOICE, assumption 154). -/
def Dev.bulkStart (d : Dev) (id : Nat) : Dev :=
  d.modCrypt fun c => { c with bulks := c.bulks.map fun b => if b.id = id then { b with started := some d.now } else b }

/-- KEY_LOAD_BULK_END: the first bulk load with leave has unwrapped its records, 2 per µs, and stages them all or none (R472). -/
def execKeyLoadBulkEnd (s : State) : Host.Outcome State Fault Refusal :=
  s.run fun d =>
    match d.crypt.bulks.find? (·.started.isSome) with
    | none => d
    | some b =>
      let d := d.at (b.started.getD 0 + ceilDiv (25 * (b.bytes.length / 96)) 2)
      let d := (d.giveBack (.rekey b.id)).modCrypt fun c => { c with bulks := c.bulks.filter (·.id != b.id) }
      let live := b.slot ≥ 8 || ((d.slot b.slot).serial == b.serial && (d.slot b.slot).state == .opened)
      let r := if live then d.loadKeys b.slot b.bytes else (.sessionClosed, d)
      r.2.endOp b.slot b.serial b.seq r.1

/-- CRYPT.KEY_ERASE (R473) (DESIGN CHOICE, assumption 216). -/
def verbCryptKeyErase : Verb where
  code := 0x3803
  role := .privileged
  len := 3
  params := [⟨2, 4, 4, .rsv⟩]

/-- The meaning of `CRYPT.KEY_ERASE`. -/
def bodyCryptKeyErase : Body := stageOn ⟨.cipher, 0⟩ (fun _ _ => none) fun c d =>
  [fv .keyErase (c.p 0 0 16) (c.p 2 0 4 ||| (d.stagedVal c.slot .keyErase (c.p 0 0 16)).getD 0) 4]

/-- CRYPT_KEY_ERASE (R461, R473). -/
def execCryptKeyErase (c : HostCall) (s : State) : Host.Outcome State Fault Refusal := runVerb verbCryptKeyErase bodyCryptKeyErase c s

/-- CRYPT.UNQUARANTINE (R473). -/
def verbCryptUnquarantine : Verb where
  code := 0x3804
  role := .operator
  len := 2

/-- The meaning of `CRYPT.UNQUARANTINE`. -/
def bodyCryptUnquarantine : Body := stageOn ⟨.cipher, 0⟩
  (fun c d => if (d.ctx (c.p 0 0 16)).quarantined then none else some .state) fun c _ => [fv .unquar (c.p 0 0 16) 1 1]

/-- CRYPT_UNQUARANTINE (R466, R473). -/
def execCryptUnquarantine (c : HostCall) (s : State) : Host.Outcome State Fault Refusal :=
  runVerb verbCryptUnquarantine bodyCryptUnquarantine c s

/-! ### The thimble's commands (R468, R469, R473) -/

/-- CRYPT.ALARM_SET (R473) (DESIGN CHOICE, assumption 216). -/
def verbCryptAlarmSet : Verb where
  code := 0x3805
  role := .privileged
  len := 2
  params := [⟨0, 0, 1, .rsv⟩, ⟨0, 7, 1, .rsv⟩, ⟨1, 0, 8, .range 1 255⟩]

/-- The meaning of `CRYPT.ALARM_SET`. -/
def bodyCryptAlarmSet : Body := stageOn ⟨.cipher, 0⟩ (fun _ _ => none) fun c _ =>
  [fv .alarmEn 0 (c.p 0 0 8) 8, fv .authThresh 0 (c.p 1 0 8) 8]

/-- CRYPT_ALARM_SET (R473). -/
def execCryptAlarmSet (c : HostCall) (s : State) : Host.Outcome State Fault Refusal := runVerb verbCryptAlarmSet bodyCryptAlarmSet c s

/-- CRYPT.ALARM_CLEAR (R473) (DESIGN CHOICE, assumption 152). -/
def verbCryptAlarmClear : Verb where
  code := 0x3806
  role := .privileged
  len := 0

/-- CRYPT_ALARM_CLEAR (R469): with a source still active, `STATE`. -/
def execCryptAlarmClear (c : HostCall) (s : State) : Host.Outcome State Fault Refusal :=
  runVerb verbCryptAlarmClear (onDev fun _ d =>
    if !d.crypt.alarm then (.now .ok, d)
    else if d.crypt.live.any d.alarmEnabled then (.now .state, d)
    else (.now .ok, ((d.modCrypt fun c => { c with alarm := false, seen := [] }).deriveKeks).raiseAt .thimbleCleared ⟨.cipher, 0⟩ 0)) c s

/-- CRYPT.ZEROISE (R473). -/
def verbCryptZeroise : Verb where
  code := 0x3807
  role := .privileged
  len := 0

/-- CRYPT_ZEROISE (R468): alarm source 7. -/
def execCryptZeroise (c : HostCall) (s : State) : Host.Outcome State Fault Refusal :=
  runVerb verbCryptZeroise (onDev fun _ d => (.now .ok, d.thimble 7)) c s

/-- CRYPT.STATUS (R473). -/
def verbCryptStatus : Verb where
  code := 0x3808
  role := .observer
  len := 0

/-- The results of `CRYPT.STATUS` (R473). -/
def cryptStatus (v : Dev) : Res :=
  let groups := (List.range 5).foldl (fun a n => a + b2n (v.runs (.cipher n)) * 2 ^ n) 0
  res 20 ([at' 0 0 1 (b2n v.crypt.alarm), at' 1 0 5 groups, fieldAt 2 16 (sat 16 (v.crypt.ctxs.filter (·.2.quarantined)).length),
    fieldAt 4 64 v.crypt.overrun, fieldAt 12 64 v.crypt.vrDrops] ++
    (List.range 7).map fun n => at' 0 (n + 1) 1 (b2n (v.crypt.seen.contains (n + 1))))

/-- CRYPT_STATUS (R473). -/
def execCryptStatus (c : HostCall) (s : State) : Host.Outcome State Fault Refusal :=
  runVerb verbCryptStatus (onView fun _ v => .now .ok (cryptStatus v)) c s

/-- The code of a slot state (R474). -/
def KeyState.code : KeyState → Nat
  | .empty => 0 | .loaded => 1 | .active => 2 | .retired => 3

/-- `NEXT_PN` of a context: the next one of the `ACTIVE` slot, or the highest accepted one of the newest slot (R474). -/
def Dev.nextPn (d : Dev) (n : Nat) : Nat :=
  let c := d.ctx n
  if d.conf .cRole n = 0 then (c.activeSlot.map fun an => (c.slot an).pn).getD 0
  else ((List.range 4).foldl (fun (m : Nat × Nat) an =>
    let s := c.slot an
    if s.state ≠ .empty ∧ s.order ≥ m.1 then (s.order, s.pn) else m) (0, 0)).2

/-- CRYPT.CONTEXT_READ (R474). -/
def verbCryptContextRead : Verb where
  code := 0x3809
  role := .observer
  len := 2

/-- The results of `CRYPT.CONTEXT_READ` (R474). -/
def contextRead (v : Dev) (n : Nat) : Res :=
  let c := v.ctx n
  res 44 ((List.range 4).map (fun an => at' 0 (2 * an) 2 (c.slot an).state.code) ++ [at' 1 0 1 (b2n c.quarantined), at' 1 1 1 (b2n c.lost),
    fieldAt 8 64 (v.nextPn n), fieldAt 16 32 c.tagFail, fieldAt 20 32 c.noKey, fieldAt 24 32 c.format, fieldAt 28 32 c.len,
    fieldAt 32 32 c.ceiling, fieldAt 36 32 c.replay, fieldAt 40 32 c.quar])

/-- CRYPT_CONTEXT_READ (R474). -/
def execCryptContextRead (c : HostCall) (s : State) : Host.Outcome State Fault Refusal :=
  runVerb verbCryptContextRead (onView fun c v => .now .ok (contextRead v (c.p 0 0 16))) c s

/-- SESSION.CRED_SET (R57) (DESIGN CHOICE, assumption 216). -/
def verbSessionCredSet : Verb where
  code := 0x0106
  role := .privileged
  len := 42
  params := [⟨0, 0, 8, .enum [1, 2, 3]⟩, ⟨1, 4, 4, .rsv⟩]

/-- The meaning of `SESSION.CRED_SET`: K unwraps under the key-encryption key named (R57, R459) (DESIGN CHOICE, assumption 153). -/
def bodySessionCredSet : Body := onDev fun c d =>
  match (d.kek (c.p 1 0 4)).bind fun k => kwUnwrap k (c.inline 2 40) with
  | none => (.now .badParameter, d)
  | some k => d.stageAns c [(⟨.device, 0⟩, [fv .credSet (c.p 0 0 8) 1 8, fv .credKey (c.p 0 0 8) (beNat k) 256])]

/-- SESSION_CRED_SET (R57). -/
def execSessionCredSet (c : HostCall) (s : State) : Host.Outcome State Fault Refusal := runVerb verbSessionCredSet bodySessionCredSet c s

/-! ### What a commit does (R461, R466, R467, R470, R471) -/

/-- A committed key load: the slot holds the new key; an activated one makes the former `ACTIVE` slot `LOADED`; quarantine and loss
end (R461, R466, R470). -/
def Dev.commitKey (d : Dev) (i v : Nat) : Dev :=
  let an := i % 4
  let act := bit v 0
  let enc := d.conf .cRole (i / 4) == 0
  (d.cipherCount 6).modCtx (i / 4) fun c =>
    let c := if act then { c with slots := (List.range 4).foldl (fun t k =>
        t.modify (fun _ => {}) k fun s => if s.state = .active then { s with state := .loaded } else s) c.slots } else c
    let start := bits v 64 64
    let s : KeySlot := {
      state := if act then .active else .loaded, key := leBytes (if bit v 1 then 32 else 16) (bits v 192 256),
      salt := leBytes 12 (bits v 448 96), ssci := bits v 32 32, pn := if enc then start else start - 1,
      ceiling := bits v 128 64, order := c.loads + 1 }
    { (c.setSlot an fun _ => s) with loads := c.loads + 1, quarantined := false, lost := false }

/-- Erased slots become `EMPTY` (R461). -/
def Dev.commitErase (d : Dev) (n mask : Nat) : Dev :=
  d.modCtx n fun c => (List.range 4).foldl (fun c an => if bit mask an then c.setSlot an fun _ => {} else c) c

/-- A commit's contexts, erasures, key loads and alarm settings. A context that is removed, or set anew, starts afresh (DESIGN CHOICE, assumption 149). -/
def Dev.cryptCommit (d : Dev) (old : Dev) (es : List Entry) : Dev :=
  let d := (stagedAll es .cValid).foldl (fun d e =>
    if e.2 ≠ old.conf .cValid e.1 then d.modCtx e.1 fun c => if e.2 = 0 then {} else { slots := c.slots, loads := c.loads } else d) d
  let d := (stagedAll es .keyErase).foldl (fun d e => d.commitErase e.1 e.2) d
  let d := (stagedAll es .keyLoad).foldl (fun d e => d.commitKey e.1 e.2) d
  let d := (stagedAll es .unquar).foldl (fun d e => d.modCtx e.1 fun c => { c with quarantined := false }) d
  if (staged? es .alarmEn 0).isSome then
    (d.crypt.live.filter fun n => d.alarmEnabled n && !old.alarmEnabled n).foldl Dev.thimble d
  else d

/-- Validation at a commit: every action's context fits it, and no encryption carries an inserted time (R471). -/
def RuleGen.cryptOk (g : RuleGen) (new : Dev) : Option Status :=
  firstOf [
    (g.acts.any (fun e => e.2.crypt != 0 && (new.conf .cValid e.2.ctx == 0 || new.conf .cRole e.2.ctx + 1 != e.2.crypt)), .cryptMismatch),
    (g.acts.any (fun e => e.2.crypt == 1 && decide (e.2.stampMode ≥ 2)), .badParameter)]

/-- OLD_HOLD_EXPIRY: `OLD_HOLD_MS` after the first good packet of a newer slot, the older `LOADED` slots retire (R467). -/
def execOldHoldExpiry (ctx : Nat) (s : State) : Host.Outcome State Fault Refusal :=
  s.run fun d =>
    match (d.ctx ctx).holds with
    | [] => d
    | (t, order) :: r =>
      (d.at t).modCtx ctx fun c =>
        { ((List.range 4).foldl (fun c an => c.setSlot an fun s =>
            if s.state = .loaded ∧ s.order < order then { s with state := .retired } else s) c) with holds := r }

/-! ### Cipher passes (R454 to R467) -/

/-- A counted discard of a context. -/
def Dev.cryptDrop (d : Dev) (n : Nat) (f : CtxSt → CtxSt) : Option Pkt × Dev := (none, d.modCtx n f)

/-- Discard in a cipher pass for want of a core (R454). -/
def Dev.cryptOverrun (d : Dev) (rx : Bool) : Dev :=
  ((d.modCrypt fun c => { c with overrun := (c.overrun + 1) % 2 ^ 64 }).cipherCount 5).perSecond (2 * 2 ^ 20) 1
    fun d _ => d.raiseAt .cryptOverrun ⟨.cipher, 0⟩ (b2n rx)

/-- The cores that are free for a cipher pass in its packet cycle: 8 of each group awake, less those that still cipher (R454). -/
def Dev.freeCores (d : Dev) (e : PktEnv) : List Nat :=
  (List.range 40).filter fun k => d.runs (.cipher (k / 8)) && decide (d.crypt.cores.get (fun _ => 0) k ≤ d.pktCycle (e.late.headD 0))

/-- A cipher pass cannot be placed: no group awake, or no core free in the packet's cycle (R454). -/
def Dev.noCore (d : Dev) (e : PktEnv) : Bool := (d.freeCores e).isEmpty

/-- A core ciphers a packet of n bytes, 16 in each packet cycle: which of those free is open (R454, assumption 1). -/
def Dev.ciphered (d : Dev) (code n : Nat) (e : PktEnv) : Dev :=
  let l := d.freeCores e
  let r := d.draw
  let k := l.getD (r.1 % l.length) 0
  let d := r.2.modCrypt fun c => { c with cores := c.cores.set (fun _ => 0) k (d.pktCycle (e.late.headD 0) + ceilDiv n 16) }
  (d.count (.cipher (k / 8)) code).count (.cipher (k / 8)) 3 n

/-- The FCS of a frame's bytes ahead of it, low byte first (R456) (PRESUMED, assumption 146). -/
def fcs (body : List Byte) : List Byte := leBytes 4 (crc32 body)

/-- A frame without its FCS (DESIGN CHOICE, assumption 147). -/
def bodyOf (f : List Byte) : List Byte := f.take (f.length - 4)

/-- A frame as it leaves: one that is stomped or failed its tag has the complement of its FCS (R233, R463, R465). -/
def Pkt.outFrame (p : Pkt) : List Byte :=
  if p.stomp || p.failed then let b := bodyOf p.frame; b ++ (fcs b).map (~~~ ·) else p.frame

/-- The 96-bit IV of a format (R456). -/
def gcmIv (format : Nat) (s : KeySlot) (sci : Nat) (pn : Nat) : List Byte :=
  if format = 0 then s.salt.take 4 ++ beBytes 8 pn
  else if format = 1 then beBytes 8 sci ++ beBytes 4 pn
  else xorBytes (beBytes 4 s.ssci ++ beBytes 8 pn) s.salt

/-- The header that an encryption inserts (R457, R458). -/
def Dev.cryptHeader (d : Dev) (n an pn len : Nat) : List Byte :=
  if d.conf .cFormat n = 0 then beBytes 2 (d.conf .cEtype n) ++ beBytes 1 (16 + an) ++ beBytes 1 0 ++ beBytes 2 n ++ beBytes 8 pn
  else
    let sc := d.conf .cSc n
    beBytes 2 0x88E5 ++ beBytes 1 (sc * 32 + 12 + an) ++ beBytes 1 (if len < 48 then len else 0) ++ beBytes 4 pn ++
      (if sc = 1 then beBytes 8 (d.conf .cSci n) else [])

/-- A length discard is reported at most once per second per context (R463). -/
def Dev.lenDiscard (d : Dev) (rx : Bool) (n : Nat) : Dev :=
  (d.modCtx n fun c => { c with len := (c.len + 1) % 2 ^ 32 }).perSecond (3 * 2 ^ 20 + n) 1
    fun d _ => d.raiseAt .cryptLenDiscard (clsPatch rx) n

/-- The warning of a slot whose packet numbers run out (R462). -/
def Dev.pnWarn (d : Dev) (rx : Bool) (n an pn : Nat) : Dev :=
  let s := (d.ctx n).slot an
  if s.warned ∨ s.ceiling - pn ≥ 2 ^ d.conf .cWarn n then d
  else (d.modCtx n fun c => c.setSlot an fun s => { s with warned := true }).raiseAt .cryptPnWarn (clsPatch rx) n

/-- A packet's encryption by a context (R456 to R464): the packet, none where it is discarded. -/
def Dev.encrypt (d : Dev) (rx fromPort : Bool) (n : Nat) (p : Pkt) (e : PktEnv) : Option Pkt × Dev :=
  let c := d.ctx n
  match c.activeSlot with
  | none => d.cryptDrop n fun c => { c with noKey := (c.noKey + 1) % 2 ^ 32 }
  | some an =>
    let s := c.slot an
    let off := if d.conf .cFormat n = 0 then 12 + d.conf .cClear n else 12
    let clear := (bodyOf p.frame).take off
    let data := (bodyOf p.frame).drop off
    let head := d.cryptHeader n an s.pn data.length
    let total := p.frame.length + head.length + 16
    let long := decide (data.length > 16383 ∨ total > 16383)
    if d.crypt.alarm || c.lost then d.cryptDrop n fun c => { c with noKey := (c.noKey + 1) % 2 ^ 32 }
    else if long && !fromPort then (none, d.lenDiscard rx n)
    else if s.pn = 0 ∨ s.pn > s.ceiling then
      (none, (d.modCtx n fun c => { (c.setSlot an fun s => { s with state := .retired }) with
        ceiling := (c.ceiling + 1) % 2 ^ 32 }).raiseAt .cryptKeyRetired (clsPatch rx) n)
    else if d.noCore e then (none, d.cryptOverrun rx)
    else
      let x := gcmEncrypt s.key (gcmIv (d.conf .cFormat n) s (d.conf .cSci n) s.pn) (clear ++ head) data
      let out := clear ++ head ++ x.1 ++ x.2
      let d := (d.modCtx n fun c => c.setSlot an fun s => { s with pn := s.pn + 1 }).pnWarn rx n an s.pn
      let d := d.ciphered 1 data.length e
      if long then
        let b := out.take 16379
        (some { p with frame := b ++ fcs b, stomp := true }, d.lenDiscard rx n)
      else (some { p with frame := out ++ fcs out }, d)

/-- What a received header says: its length, slot, packet number as sent, `SCI`, and whether it passes the format check (R457,
R458). -/
structure CryptHead where
  len : Nat
  an : Nat
  pn : Nat
  sci : Nat
  ok : Bool
deriving DecidableEq, Repr

/-- Read the header of a packet that a context decrypts; `data` is what follows the clear bytes, without the FCS (DESIGN CHOICE, assumption 147). -/
def Dev.readHead (d : Dev) (n : Nat) (data : List Byte) : CryptHead :=
  let h := beNat
  if d.conf .cFormat n = 0 then
    ⟨14, (data.getD 2 0).toNat % 4, h (slice data 6 8), 0,
      h (slice data 0 2) == d.conf .cEtype n && (data.getD 2 0).toNat / 4 == 4 && data.getD 3 0 == 0 && decide (data.length ≥ 30)⟩
  else
    let tci := (data.getD 2 0).toNat
    let sl := (data.getD 3 0).toNat
    let sc := bit tci 5
    let len := if sc then 16 else 8
    ⟨len, tci % 4, h (slice data 4 4), if sc then h (slice data 8 8) else d.conf .cSci n,
      h (slice data 0 2) == 0x88E5 && !bit tci 7 && bit tci 3 && bit tci 2 && (sl == 0 || sl + len + 16 == data.length) &&
        decide (data.length ≥ len + 16)⟩

/-- The lowest packet number that a slot still accepts (R458, R464). -/
def KeySlot.lowest (s : KeySlot) (window : Nat) : Nat := s.pn + 1 - window

/-- The packet number of a received header: of XPN the upper half is recovered from the lowest number still accepted (R458). -/
def KeySlot.fullPn (s : KeySlot) (format window pn : Nat) : Nat :=
  if format ≠ 2 then pn else
  let low := s.lowest window
  let hi := low / 2 ^ 32
  (if bit low 31 && !bit pn 31 then hi + 1 else hi) * 2 ^ 32 + pn

/-- The replay test fails (R464). -/
def KeySlot.replayed (s : KeySlot) (window pn : Nat) : Bool := decide (pn + window ≤ s.pn) || s.seen.contains pn

/-- What a decryption gives: the packet with its plaintext, slot and packet number, and whether the tag passed. -/
structure Decrypted where
  pkt : Pkt
  an : Nat
  pn : Nat
  good : Bool
deriving DecidableEq, Repr

/-- A packet's decryption by a context up to the verdict of its tag (R456 to R465); none where it is discarded. -/
def Dev.decrypt (d : Dev) (rx : Bool) (n : Nat) (p : Pkt) (e : PktEnv) : Option Decrypted × Dev :=
  let c := d.ctx n
  let f := d.conf .cFormat n
  let off := if f = 0 then 12 + d.conf .cClear n else 12
  let clear := (bodyOf p.frame).take off
  let data := (bodyOf p.frame).drop off
  let h := d.readHead n data
  let s := c.slot h.an
  let pn := s.fullPn f (d.conf .cWindow n) h.pn
  let drop := fun (g : CtxSt → CtxSt) => ((none : Option Decrypted), d.modCtx n g)
  if d.crypt.alarm || c.lost then drop fun c => { c with noKey := (c.noKey + 1) % 2 ^ 32 }
  else if c.quarantined then drop fun c => { c with quar := (c.quar + 1) % 2 ^ 32 }
  else if !h.ok then drop fun c => { c with format := (c.format + 1) % 2 ^ 32 }
  else if s.state ≠ .loaded then drop fun c => { c with noKey := (c.noKey + 1) % 2 ^ 32 }
  else if p.frame.length > 16383 then (none, d.lenDiscard rx n)
  else if pn = 0 ∨ pn > s.ceiling then drop fun c => { c with ceiling := (c.ceiling + 1) % 2 ^ 32 }
  else if d.conf .cReplay n = 1 ∧ s.replayed (d.conf .cWindow n) pn then drop fun c => { c with replay := (c.replay + 1) % 2 ^ 32 }
  else if d.noCore e then (none, d.cryptOverrun rx)
  else
    let body := data.drop h.len
    let ct := body.take (body.length - 16)
    let x := gcmDecrypt s.key (gcmIv f s h.sci pn) (clear ++ data.take h.len) ct (body.drop (body.length - 16))
    let out := clear ++ x.1
    (some ⟨{ p with frame := out ++ fcs out }, h.an, pn, x.2⟩, d.ciphered 2 ct.length e)

/-- The failures of a second of device time that is over are reported (R465) (DEDUCED, assumption 227). -/
def Dev.tagSecond (d : Dev) (n : Nat) : Dev :=
  let c := d.ctx n
  if c.failSec = 0 ∨ c.failNo = d.secondNo then d
  else (d.modCtx n fun c => { c with failSec := 0 }).raiseAt .cryptTagFail (clsPatch c.failRx) (sat 16 c.failSec)

/-- The seconds of every context with failures. -/
def Dev.tagSeconds (d : Dev) : Dev := ((d.crypt.ctxs.filter fun e => decide (e.2.failSec ≠ 0)).map (·.1)).foldl Dev.tagSecond d

/-- A tag fails: counted, to be reported as its second of device time ends, and in a second with `Q_THRESH` of them the context is quarantined
(R465, R466). -/
def Dev.tagFailed (d : Dev) (rx : Bool) (n : Nat) : Dev :=
  let d := d.tagSecond n
  let c := d.ctx n
  let k := (if c.failNo = d.secondNo then c.failSec else 0) + 1
  let q := d.conf .cQ n
  let d := d.modCtx n fun c => { c with tagFail := (c.tagFail + 1) % 2 ^ 32, failSec := k, failNo := d.secondNo, failRx := rx }
  let d := d.cipherCount 4
  if q ≠ 0 ∧ k ≥ q ∧ !c.quarantined then
    (d.modCtx n fun c => { c with quarantined := true }).raiseAt .cryptQuarantine (clsPatch rx) n
  else d

/-- A tag passes: the slot's replay state advances, and the first good packet of a newer slot starts the hold of the older ones
(R461, R464, R467) (DESIGN CHOICE, assumption 148). -/
def Dev.tagPassed (d : Dev) (rx : Bool) (n an pn : Nat) : Dev :=
  let c := d.ctx n
  let s := c.slot an
  let w := d.conf .cWindow n
  let top := max s.pn pn
  let newer := !s.good && (List.range 4).any fun k => (c.slot k).state == .loaded && decide ((c.slot k).order < s.order)
  let hold := d.conf .cHold n
  let d := d.modCtx n fun c =>
    { (c.setSlot an fun s => { s with pn := top, good := true, seen := (pn :: s.seen).filter fun x => decide (x + w > top) }) with
      holds := if newer && hold != 0 then c.holds ++ [(d.now + msCycles hold, s.order)] else c.holds }
  if newer then d.raiseAt .cryptNewAn (clsPatch rx) n else d

/-- The verdict of a tag (R465). -/
def Dev.tagVerdict (d : Dev) (rx : Bool) (n an pn : Nat) (good : Bool) : Dev :=
  if good then d.tagPassed rx n an pn else d.tagFailed rx n

/-- A context of the crypto-context store is lost (R470). -/
def Dev.contextLost (d : Dev) (n : Nat) : Dev :=
  (d.modCtx n fun c => { c with slots := [], holds := [], lost := true }).raiseAt .cryptContextLost (clsPatch (d.ctxRx n)) n

end Sys2Proof.Machine
end

