-- ==== Sys2Proof/Machine/Conv.lean ====
section
/-! DEFINITION. Converters: gain, swing, levels and alarms, the front-end and laser control buses, and calibration (R97 to
R131). -/

namespace Sys2Proof.Machine

/-- Change the converters' state. -/
def Dev.modConv (d : Dev) (f : ConvSt → ConvSt) : Dev := { d with conv := f d.conv }

/-- Raise an event about a converter; those of calibration, and of the laser bus, stand at `conv[0]` (R130) (DESIGN CHOICE, assumption 203). -/
def Dev.raiseConv (d : Dev) (ev : Ev) (i info : Nat) : Dev := d.raiseAt ev ⟨.converter, i⟩ info

/-! ### Gain, swing and levels -/

/-- `GAIN_Q` or `SWING_10MV` of a converter after a wake (R103). -/
def convDefault (i : Nat) : Nat := if i < 4 then 60 else 0

/-- The setting in force. -/
def ConvSt.settingOf (v : ConvSt) (i : Nat) : Nat := v.setting.get convDefault i

/-- A gain or swing applies only to an instance of its kind, while the core runs or wakes (R26, R105, R106). -/
def gainCheck (adc : Bool) (_ : Call) (d : Dev) (i : Nat) : Option Status :=
  if (decide (4 ≤ i)) ≠ adc then some .badParameter
  else if d.lacks .core then some .state else none

/-- CONV.GAIN (R105). -/
def verbConvGain : Verb where
  code := 0x1001
  role := .operator
  len := 6
  groups := true
  params := [⟨0, 0, 32, .patch [(.converter, 4, 7)]⟩, ⟨4, 0, 8, .range 0 96⟩, ⟨5, 0, 8, .rsv⟩]

/-- The meaning of `CONV.GAIN`. -/
def bodyConvGain : Body := stageEach (gainCheck true) fun c _ i => [fv .gain i (c.p 4 0 8) 8]

/-- CONV_GAIN (R105). -/
def execConvGain (c : HostCall) (s : State) : Host.Outcome State Fault Refusal := runVerb verbConvGain bodyConvGain c s

/-- CONV.SWING (R106). -/
def verbConvSwing : Verb where
  code := 0x1002
  role := .operator
  len := 6
  groups := true
  params := [⟨0, 0, 32, .patch [(.converter, 0, 3)]⟩, ⟨4, 0, 8, .range 30 90⟩, ⟨5, 0, 8, .rsv⟩]

/-- The meaning of `CONV.SWING`. -/
def bodyConvSwing : Body := stageEach (gainCheck false) fun c _ i => [fv .gain i (c.p 4 0 8) 8]

/-- CONV_SWING (R106). -/
def execConvSwing (c : HostCall) (s : State) : Host.Outcome State Fault Refusal := runVerb verbConvSwing bodyConvSwing c s

/-- CONV.LEVEL_READ (R107). -/
def verbConvLevelRead : Verb where
  code := 0x1003
  role := .observer
  len := 4
  groups := true
  reads := true
  params := [⟨0, 0, 32, .patch [(.converter, 0, 7)]⟩]

/-- The level measurement of a converter. -/
def ConvSt.lvlOf (v : ConvSt) (i : Nat) : ConvLvl := v.lvl.get (fun _ => {}) i

/-- The result fields of a converter's level (R107). -/
def levelFields (v : ConvSt) (i : Nat) : List RField :=
  let x := v.lvlOf i
  [rf .minS 0 0 16 (unsigned 16 x.level), rf .maxU 2 0 10 x.peak, rf .sum 4 0 32 (sat 32 x.clipLast), rf .sum 8 0 48 x.clipTotal,
    rf .conf 14 0 8 (v.settingOf i), rf (.severe [1, 0]) 15 0 1 (b2n x.clipAlarm), rf (.severe [1, 0]) 15 1 1 (b2n x.lowAlarm)]

/-- The meaning of `CONV.LEVEL_READ`. -/
def bodyConvLevelRead : Body := readEach 16 fun _ v i => if v.runs .core then some (levelFields v.conv i) else none

/-- CONV_LEVEL_READ (R107). -/
def execConvLevelRead (c : HostCall) (s : State) : Host.Outcome State Fault Refusal :=
  runVerb verbConvLevelRead bodyConvLevelRead c s

/-- CONV.MON_SET (R108). -/
def verbConvMonSet : Verb where
  code := 0x1004
  role := .operator
  len := 8
  groups := true
  params := [⟨0, 0, 32, .patch [(.converter, 0, 7)]⟩, ⟨4, 0, 4, .range 3 9⟩, ⟨4, 4, 4, .rsv⟩, ⟨5, 0, 8, .rsv⟩,
    ⟨6, 0, 16, .srange (-6000) (-300)⟩]

/-- The meaning of `CONV.MON_SET`. -/
def bodyConvMonSet : Body := stageEach (fun _ _ _ => none) fun c _ i =>
  [fv .clipExp i (c.p 4 0 4) 4, fv .lowLevel i (c.p 6 0 16) 16]

/-- CONV_MON_SET (R108). -/
def execConvMonSet (c : HostCall) (s : State) : Host.Outcome State Fault Refusal := runVerb verbConvMonSet bodyConvMonSet c s

/-- A sample code at full scale: it counts as clipped (R99). -/
def clipped (x : Int) : Bool := x == -512 || x == 511

/-- The band combine saturates a value to a sample code (R99). -/
def toSample (v : Int) : Int := if v < -512 then -512 else if 511 < v then 511 else v

/-- What an ADC's samples of an interval add up to (R99, R107). -/
def LevelMeas.sum (m : LevelMeas) : LevelSum :=
  ⟨(m.codes.map fun c => c.1.natAbs ^ 2 * c.2).sum, (m.codes.filter (·.2 != 0)).foldl (fun p c => max p c.1.natAbs) 0,
   ((m.codes.filter fun c => clipped c.1).map (·.2)).sum⟩

/-- Codes that a DAC has sent, beside those before them (R99, R107). -/
def LevelSum.add (s : LevelSum) (l : List Int) : LevelSum :=
  ⟨s.sq + (l.map fun c => c.natAbs ^ 2).sum, l.foldl (fun p c => max p c.natAbs) s.peak, s.clips + (l.filter clipped).length⟩

/-- The RMS level of n samples in 0.01 dB against a full-scale sine, whose amplitude is 512; of nothing but zeros it is open, below every
`LOW_LEVEL` (R107, assumption 1) (DESIGN CHOICE, assumption 202). -/
def Dev.levelOf (d : Dev) (s : LevelSum) (n : Nat) : Int × Dev :=
  if s.sq = 0 then
    let r := d.draw
    (-6001 - (r.1 % 26767 : Nat), r.2)
  else (decibel (2 * s.sq) (n * 512 ^ 2), d)

/-- Samples of one 1 ms interval in the core's mode (R97). -/
def Dev.intervalSamples (d : Dev) : Nat := if d.power.coreFull then 320000000 else 40000000

/-- An alarm over one interval: set at once, cleared after 10 intervals without its condition; answers the new alarm and count
(R108). -/
def alarmStep (alarm : Bool) (clear : Nat) (cond : Bool) : Bool × Nat :=
  if cond then (true, 0) else if alarm then (if clear + 1 ≥ 10 then (false, 0) else (true, clear + 1)) else (false, 0)

/-- One converter's interval, the n-th since the core woke: its measurement, counts and alarms (R107, R108) (DESIGN CHOICE, assumption 32,
DESIGN CHOICE, assumption 202). -/
def Dev.levelOne (d : Dev) (n i : Nat) (m : LevelSum) : Dev :=
  let l := d.levelOf m d.intervalSamples
  let level := l.1
  let d := l.2
  let x := d.conv.lvlOf i
  let clip := alarmStep x.clipAlarm x.clipClear (decide (m.clips * 10 ^ d.conf .clipExp i > d.intervalSamples))
  let low := alarmStep x.lowAlarm x.lowClear (decide (level < signed 16 (d.conf .lowLevel i)))
  let clipEv := clip.1 && !x.clipAlarm && d.oncePerSecond x.clipAt
  let lowEv := low.1 && !x.lowAlarm && d.oncePerSecond x.lowAt
  let x := if d.conv.intervals / 1000 < (n - 1) / 1000 then { x with clipSec := 0, clipLast := x.clipSec } else x
  let full := n % 1000 = 0
  let sec := x.clipSec + m.clips
  let y : ConvLvl :=
    { level := level, peak := m.peak, clipSec := if full then 0 else sec, clipLast := if full then sec else x.clipLast,
      clipTotal := sat 48 (x.clipTotal + m.clips), clipAlarm := clip.1, clipClear := clip.2, lowAlarm := low.1, lowClear := low.2,
      clipAt := if clipEv then some d.now else x.clipAt, lowAt := if lowEv then some d.now else x.lowAt }
  let d := (d.modConv fun v => { v with lvl := v.lvl.set (fun _ => {}) i y }).count .line (if i ≥ 4 then 1 else 2) m.clips
  let d := if clipEv then d.raiseConv .convClip i (sat 16 m.clips) else d
  let d := if lowEv then d.raiseConv .convLow i (unsigned 16 (level / 10)) else d
  let d := if x.clipAlarm && !clip.1 then d.raiseConv .convLevelOk i 1 else d
  if x.lowAlarm && !low.1 then d.raiseConv .convLevelOk i 2 else d

/-- What the eight converters' samples of the running interval add up to: the DACs' as the block has sent them, the ADCs' as they came. -/
def Dev.levelSums (d : Dev) (ms : List LevelMeas) : List LevelSum := (List.range 4).map (fun i => d.conv.sent.getD i {}) ++ ms.map (·.sum)

/-- The end of a 1 ms level interval: each lasts 100 device frames, one after another since the core woke (R107). -/
def Dev.levelInterval (d : Dev) (ms : List LevelMeas) : Dev :=
  if !d.runs .core then d else
  let n := max (d.conv.intervals + 1) (ceilDiv (d.frameUp d.now - d.conv.lvlFrom) 100)
  let d := d.at (d.frameStart (d.conv.lvlFrom + 100 * n))
  let d := ((List.range 8).zip (d.levelSums ms)).foldl (fun d e => d.levelOne n e.1 e.2) d
  d.modConv fun v => { v with intervals := n, sent := [] }

/-! ### The front-end control bus (R109 to R113) -/

/-- CONV.FE_SET (R113) (DESIGN CHOICE, assumption 216). -/
def verbConvFeSet : Verb where
  code := 0x1010
  role := .operator
  len := 1
  params := [⟨0, 2, 6, .rsv⟩]

/-- CONV_FE_SET (R110, R113). -/
def execConvFeSet (c : HostCall) (s : State) : Host.Outcome State Fault Refusal :=
  runVerb verbConvFeSet (stageOn ⟨.line, 0⟩ (fun _ _ => none) fun c _ => [fv .feDiv 0 (c.p 0 0 2) 2]) c s

/-- A frame of the front-end bus (R109). -/
def feFrame (rd target addr data : Nat) : Nat := rd * 2 ^ 31 + target * 2 ^ 28 + addr * 2 ^ 16 + data

/-- AC cycles of one clock of the front-end bus (R110). -/
def Dev.feClock (d : Dev) : Nat := 2 * 2 ^ d.conf .feDiv

/-- The front-end limit entries of the board table in force: target, address, minimum, maximum (R111, R528). -/
def Dev.feLimits (d : Dev) : List (Nat × Nat × Nat × Nat) :=
  match d.otp.inForcePayload 6 with
  | none => []
  | some p =>
    (List.range (p.getD 1 0).toNat).filterMap fun k =>
      let e := leNat (slice p (488 + 6 * k) 2)
      if bit e 3 then some (bits e 0 3, bits e 4 12, leNat (slice p (490 + 6 * k) 2), leNat (slice p (492 + 6 * k) 2)) else none

/-- CONV.FE_WRITE (R113) (DESIGN CHOICE, assumptions 70 and 216). -/
def verbConvFeWrite : Verb where
  code := 0x1011
  role := .operator
  len := 36
  lens := [8, 12, 16, 20, 24, 28, 32]
  params := [⟨0, 0, 8, .range 1 8⟩, ⟨1, 0, 24, .rsv⟩]
  codes := fun c => Item.field c.item 6 0 16 != 4 + 4 * c.p 0 0 8 || (List.range (c.p 0 0 8)).any fun k => c.p (4 + 4 * k) 3 1 == 1

/-- The entries of a `CONV.FE_WRITE`: register and value (DESIGN CHOICE, assumption 70). -/
def feEntries (c : Call) : List (Nat × Nat) :=
  (List.range (c.p 0 0 8)).map fun k => (c.p (4 + 4 * k) 0 3 * 4096 + c.p (4 + 4 * k) 4 12, c.p (6 + 4 * k) 0 16)

/-- The fields a session has staged of one kind (DESIGN CHOICE, assumption 194). -/
def Dev.ownStaged (d : Dev) (owner : Nat) (f : Fld) : List (Nat × Nat) := stagedAll (d.cfg.staged.filter (·.owner == owner)) f

/-- What refuses a `CONV.FE_WRITE`: a length other than its entries', a reserved bit, a value outside the board's limits, more
than 64 staged writes (R111 to R113) (DESIGN CHOICE, assumption 216). -/
def feWriteCheck (c : Call) (d : Dev) : Option Status :=
  let es := feEntries c
  let old := (d.ownStaged c.slot .feWrite).map (·.1)
  let all := (old ++ es.map (·.1)).eraseDups
  firstOf [
    (es.any (fun e => d.feLimits.any fun l => l.1 * 4096 + l.2.1 == e.1 && decide (e.2 < l.2.2.1 ∨ l.2.2.2 < e.2)), .outOfRange),
    (decide (all.length > 64), .limitReached)]

/-- CONV_FE_WRITE (R112, R113). -/
def execConvFeWrite (c : HostCall) (s : State) : Host.Outcome State Fault Refusal :=
  runVerb verbConvFeWrite (stageOn ⟨.line, 0⟩ feWriteCheck fun c _ => (feEntries c).map fun e => fv .feWrite e.1 e.2) c s

/-- A commit's front-end writes go onto the bus at its boundary (R112) (DESIGN CHOICE, assumption 72). -/
def Dev.feIssue (d : Dev) (id : Nat) (ws : List (Nat × Nat)) : Dev :=
  if ws.isEmpty then d else
  let d := ws.foldl (fun d w => d.emit (.feFrame (feFrame 0 (w.1 / 4096) (w.1 % 4096) w.2))) d
  let from' := d.conv.fe.foldl (fun t e => max t e.1) d.now
  let d := d.modConv fun v => { v with fe := v.fe ++ [(from' + ws.length * 34 * d.feClock, id)] }
  d.modCommit id fun c => { c with buses := c.buses ++ [0] }

/-- CONV.FE_READ (R113) (DESIGN CHOICE, assumption 216). -/
def verbConvFeRead : Verb where
  code := 0x1012
  role := .observer
  len := 4
  params := [⟨0, 3, 5, .rsv⟩, ⟨1, 0, 8, .rsv⟩, ⟨2, 12, 4, .rsv⟩]

/-- Read a front-end register: what a part drives is outside the block; one that is absent leaves the line high (R109, assumption 1)
(DESIGN CHOICE, assumption 71). -/
def Dev.feRead (d : Dev) (target addr : Nat) : Nat × Dev :=
  let r := d.draw
  (if Config.fePart target then r.1 % 65536 else 0xFFFF, r.2.emit (.feFrame (feFrame 1 target addr 0)))

/-- A read waits behind commit writes on the bus (R113). -/
def convFeRead (c : Call) (d : Dev) : Ans × Dev :=
  let t := c.p 0 0 3
  let a := c.p 2 0 12
  if !d.conv.fe.isEmpty then (.wait (.feRead t a), d)
  else let r := d.feRead t a; (.now .ok (res 2 [fieldAt 0 16 r.1]), r.2)

/-- CONV_FE_READ (R113). -/
def execConvFeRead (c : HostCall) (s : State) : Host.Outcome State Fault Refusal := runVerb verbConvFeRead (onDev convFeRead) c s

/-- FE_WRITES_DONE: the last write frame of the first commit on the bus has ended; the commit is told, and waiting reads proceed once
no writes are left (R112, R113). -/
def execFeWritesDone (s : State) : Host.Outcome State Fault Refusal :=
  s.run fun d =>
    match d.conv.fe with
    | [] => d
    | (t, id) :: left =>
      let d := ((d.at t).modConv fun v => { v with fe := left }).busOver id 0
      if !left.isEmpty then d else
      ((List.range 8).foldl (fun d n => match (d.slot n).taken with
        | some k => match k.why with
          | .feRead t a => let r := d.feRead t a; r.2.answer n .ok (res 2 [fieldAt 0 16 r.1])
          | _ => d
        | none => d) d).settle 256

/-! ### The laser control bus (R114 to R117) -/

/-- CONV.LAS_SET (R116): two blocks of 12 bytes. -/
def verbConvLasSet : Verb where
  code := 0x1020
  role := .operator
  len := 24
  params := [0, 12].flatMap fun o => [⟨o, 0, 7, .range 0x08 0x77⟩, ⟨o + 1, 2, 6, .rsv⟩, ⟨o + 4, 0, 16, .range 1 65535⟩,
    ⟨o + 6, 0, 16, .range 1 10000⟩, ⟨o + 8, 1, 7, .rsv⟩, ⟨o + 9, 0, 24, .rsv⟩]

/-- CONV_LAS_SET (R116). -/
def execConvLasSet (c : HostCall) (s : State) : Host.Outcome State Fault Refusal :=
  runVerb verbConvLasSet (stageOn ⟨.line, 0⟩
    (fun c _ => if c.p 8 0 1 ≠ c.p 20 0 1 then some .badParameter else none)
    fun c _ => [0, 1].flatMap fun b =>
      let o := 12 * b
      [fv .lasAddr b (c.p o 0 7) 7, fv .lasEnable b (c.p o 7 1) 1, fv .lasWide b (c.p (o + 1) 0 1) 1,
        fv .lasInvert b (c.p (o + 1) 1 1) 1, fv .lasPtr b (c.p (o + 2) 0 16) 16, fv .lasLsb b (c.p (o + 4) 0 16) 16,
        fv .lasLimit b (c.p (o + 6) 0 16) 16, fv .lasFast b (c.p (o + 8) 0 1) 1]) c s

/-- CONV.LAS_WRITE (R117). -/
def verbConvLasWrite : Verb where
  code := 0x1021
  role := .operator
  len := 16
  params := [⟨0, 0, 7, .range 0x08 0x77⟩, ⟨0, 7, 1, .rsv⟩, ⟨1, 1, 7, .rsv⟩, ⟨4, 0, 4, .range 1 8⟩, ⟨4, 4, 4, .rsv⟩,
    ⟨5, 0, 24, .rsv⟩]

/-- What refuses a laser write (R117). -/
def lasWriteCheck (c : Call) (d : Dev) : Option Status :=
  firstOf [
    (c.p 1 0 1 == 0 && c.p 3 0 8 != 0, .badParameter),
    (c.p (8 + c.p 4 0 4) 0 (8 * (8 - c.p 4 0 4)) != 0, .badParameter),
    (decide ((d.ownStaged c.slot .lasWrite).length ≥ 8), .limitReached)]

/-- CONV_LAS_WRITE (R117): writes are kept apart by their staging order. -/
def execConvLasWrite (c : HostCall) (s : State) : Host.Outcome State Fault Refusal :=
  runVerb verbConvLasWrite (stageOn ⟨.line, 0⟩ lasWriteCheck fun c d =>
    [fv .lasWrite (d.ownStaged c.slot .lasWrite).length (c.p 0 0 128) 128]) c s

/-- A laser is described (R116) (DESIGN CHOICE, assumption 85). -/
def Dev.lasDescribed (d : Dev) (b : Nat) : Bool := d.conf .lasAddr b != 0

/-- The pointer bytes of a transaction (R117). -/
def LasTx.ptrBytes (t : LasTx) : List Byte := if t.wide then beBytes 2 t.ptr else beBytes 1 t.ptr

/-- The next queued transaction goes onto an idle bus. -/
def Dev.lasStart (d : Dev) : Dev :=
  match d.conv.lasCur, d.conv.lasQueue with
  | none, t :: r =>
    (d.modConv fun v => { v with lasCur := some t, lasSince := d.now, lasQueue := r }).emit
      (.las t.addr t.ptrBytes t.data t.count (d.conf .lasFast 0 == 1))
  | _, _ => d

/-- Queue a host transaction. -/
def Dev.lasPut (d : Dev) (t : LasTx) : Dev := (d.modConv fun v => { v with lasQueue := v.lasQueue ++ [t] }).lasStart

/-- The value a write of these bytes gives laser b's accumulated correction in kHz (R185). -/
def Dev.lasValue (d : Dev) (b : Nat) (data : List Byte) : Int :=
  let v := signed (8 * data.length) (beNat data) * d.conf .lasLsb b
  if d.conf .lasInvert b = 1 then -v else v

/-- A host write to a described laser's own register sets its accumulated correction (R117, R185). -/
def Dev.lasNote (d : Dev) (t : LasTx) : Dev :=
  [0, 1].foldl (fun d b =>
    if d.lasDescribed b && d.conf .lasAddr b == t.addr && d.conf .lasPtr b == t.ptr then
      d.modConv fun v => { v with lasAcc := v.lasAcc.set b (d.lasValue b t.data) }
    else d) d

/-- A commit's laser writes are queued in staging order (R117). -/
def Dev.lasIssue (d : Dev) (id : Nat) (ws : List Nat) : Dev :=
  if ws.isEmpty then d else
  let d := d.modCommit id fun c => { c with buses := c.buses ++ [1] }
  ws.foldl (fun d w =>
    let t : LasTx := ⟨.write id, bits w 0 7, bit w 8, bits w 16 16, leBytes (bits w 32 4) (bits w 64 64), 0⟩
    (d.lasNote t).lasPut t) d

/-- A transaction is an automatic correction of a laser. -/
def LasKind.corrects (k : LasKind) (b : Nat) : Bool :=
  match k with
  | .correct l _ => l == b
  | _ => false

/-- An automatic correction of a laser: it replaces one that has not been sent, and goes ahead of every queued host transaction
(R117). The value written is A over `LSB_KHZ`, rounded, clamped to `LIMIT_MHZ` and to 16 bits (R116). -/
def Dev.lasCorrect (d : Dev) (b : Nat) (a step : Int) : Dev :=
  let lim : Int := 1000 * d.conf .lasLimit b
  let a := if a > lim then lim else if a < -lim then -lim else a
  let v := roundDiv (if d.conf .lasInvert b = 1 then -a else a) (d.conf .lasLsb b)
  let t : LasTx := ⟨.correct b step, d.conf .lasAddr b, d.conf .lasWide b == 1, d.conf .lasPtr b, beBytes 2 (satS 16 v), 0⟩
  (d.modConv fun x =>
    let q := x.lasQueue.filter fun t => !t.kind.corrects b
    { x with lasQueue := (q.takeWhile fun t => t.kind.corrects 0 || t.kind.corrects 1) ++ [t] ++
                         (q.dropWhile fun t => t.kind.corrects 0 || t.kind.corrects 1) }).lasStart

/-- A correction of a laser waits for the bus or is on it. -/
def ConvSt.correcting (v : ConvSt) (b : Nat) : Bool := (v.lasCur.toList ++ v.lasQueue).any fun t => t.kind.corrects b

/-- CONV.LAS_READ (R117). -/
def verbConvLasRead : Verb where
  code := 0x1022
  role := .observer
  len := 8
  params := [⟨0, 0, 7, .range 0x08 0x77⟩, ⟨0, 7, 1, .rsv⟩, ⟨1, 1, 7, .rsv⟩, ⟨4, 0, 4, .range 1 8⟩, ⟨4, 4, 4, .rsv⟩,
    ⟨5, 0, 24, .rsv⟩]

/-- A read joins the bus's queue and waits for its transaction (R117). -/
def convLasRead (c : Call) (d : Dev) : Ans × Dev :=
  if c.p 1 0 1 = 0 ∧ c.p 3 0 8 ≠ 0 then (.now .badParameter, d) else
  (.wait .lasRead, d.lasPut ⟨.read c.slot (d.slot c.slot).serial, c.p 0 0 7, c.p 1 0 1 == 1, c.p 2 0 16, [], c.p 4 0 4⟩)

/-- CONV_LAS_READ (R117). -/
def execConvLasRead (c : HostCall) (s : State) : Host.Outcome State Fault Refusal :=
  runVerb verbConvLasRead (onDev convLasRead) c s

/-- An automatic correction has been written: its dwell window starts again, and the event gives the step (R185, R197). -/
def Dev.lasCorrected (d : Dev) (b : Nat) (step : Int) : Dev :=
  let d := d.modConv fun v => { v with lasWritten := v.lasWritten.set b d.now }
  { d with line := { d.line with dwell := d.line.dwell.set b d.now, offs := d.line.offs.set b [] } }.raiseAt .freqCorrected ⟨.line, 0⟩
    (b + 2 * unsigned 15 (step / 10000))

/-- The transaction on the bus has ended: its read is answered, or its commit told once none of its writes is left; the next one
starts (R115, R117) (DESIGN CHOICE, assumption 71). -/
def Dev.lasEnd (d : Dev) (r : LasEnd) (err : Option Nat) : Dev :=
  match d.conv.lasCur with
  | none => d
  | some t =>
    let d := d.modConv fun v => { v with lasCur := none }
    let d := match err with
      | some e => d.raiseConv .lasbusError 0 (t.addr + 256 * e)
      | none => d
    let d := match t.kind with
      | .write id =>
        if d.conv.lasQueue.any (fun q => q.kind == LasKind.write id) then d else d.busOver id 1
      | .read n serial =>
        if (d.slot n).serial = serial ∧ (d.slot n).taken.any (fun (k : Taken) => k.why == Waiting.lasRead) then
          let ans := match r, err with
            | .done b, none => (Status.ok, res 16 [at' 0 0 4 t.count, fieldAt 8 64 (leNat (b.take t.count))])
            | _, _ => (.busNack, {})
          (d.answer n ans.1 ans.2).settle 256
        else d
      | .correct b step => if err.isNone then d.lasCorrected b step else d
    d.lasStart

/-- LASBUS_TRANSACTION_END: done, without an acknowledge, or never begun on a line held low; a bus error sends 9 clocks and a
stop (R115). -/
def execLasbusTransactionEnd (r : LasEnd) (s : State) : Host.Outcome State Fault Refusal :=
  s.run fun d =>
    if d.conv.lasCur.isNone then d else
    match r with
    | .done _ => d.lasEnd r none
    | .nack => d.lasEnd r (some 1)
    | .heldLow => (d.emit .lasRecover).lasEnd r (some 3)

/-- LASBUS_STRETCH_TIMEOUT: clock stretching beyond 10 ms (R115). -/
def execLasbusStretchTimeout (s : State) : Host.Outcome State Fault Refusal :=
  s.run fun d =>
    if d.conv.lasCur.isNone then d else
    ((d.at (d.conv.lasSince + msCycles 10)).emit .lasRecover).lasEnd .nack (some 2)

/-! ### Calibration (R118 to R129) -/

/-- The leave a run requests, in mW (R484). -/
def calLeave (full : Bool) : Nat := if full then 1200 else 150

/-- How long a run takes from the grant of its leave: 3 ms for each slice and 10 ms (R118). -/
def calTime (full : Bool) : Nat := msCycles (3 * (if full then 130 else 18) + 10)

/-- The sets of a mode by ascending temperature. -/
def ConvSt.setsOf (v : ConvSt) (full : Bool) : List CalSet :=
  sortBy (fun a b => decide (a.temp ≤ b.temp)) (v.sets.filter (·.full == full))

/-- The difference of two temperatures. -/
def tempGap (a b : Int) : Nat := (a - b).natAbs

/-- The set of a list nearest to a temperature; on a tie the older. -/
def nearestSet (l : List CalSet) (t : Int) : Option CalSet :=
  l.foldl (fun m s => match m with
    | none => some s
    | some b => if tempGap s.temp t < tempGap b.temp t ∨ (tempGap s.temp t = tempGap b.temp t ∧ s.order < b.order) then some s
                else m) none

/-- Keep a new set (R120). -/
def ConvSt.keepSet (v : ConvSt) (n : CalSet) : ConvSt :=
  let mode := v.sets.filter (·.full == n.full)
  let close := mode.filter fun s => tempGap s.temp n.temp ≤ 200
  let out := if !close.isEmpty then nearestSet close n.temp else if mode.length < 8 then none else nearestSet mode n.temp
  { v with sets := v.sets.filter (fun s => some s != out) ++ [n], nextOrder := v.nextOrder + 1 }

/-- Two lists item by item; what one lacks is 0. -/
def zipZero (f : Int → Int → Int) (a b : List Int) : List Int := List.zipWithAll (fun x y => f (x.getD 0) (y.getD 0)) a b

/-- Two slices quantity by quantity. -/
def SliceMeas.zip (f : Int → Int → Int) (a b : SliceMeas) : SliceMeas :=
  ⟨f a.offset b.offset, f a.gain b.gain, f a.skew b.skew, f a.bw b.bw⟩

/-- Two converters item by item. -/
def CalConv.zip (f : Int → Int → Int) (a b : CalConv) : CalConv :=
  ⟨List.zipWithAll (fun x y => SliceMeas.zip f (x.getD {}) (y.getD {})) a.slices b.slices, zipZero f a.lin b.lin⟩

/-- Two sets of values, converter by converter. -/
def calZip (f : Int → Int → Int) (a b : List CalConv) : List CalConv :=
  List.zipWithAll (fun x y => CalConv.zip f (x.getD {}) (y.getD {})) a b

/-- The coefficients that interpolation gives at a temperature: per slice, per quantity, per table entry (R121). -/
def interpolate (l : List CalSet) (t : Int) : Option CalCoef :=
  match l.head?, l.getLast? with
  | some a, some z =>
    if t ≤ a.temp then some ⟨1, a.vals⟩
    else if t ≥ z.temp then some ⟨1, z.vals⟩
    else ((l.zip (l.drop 1)).find? fun p => decide (p.1.temp ≤ t ∧ t < p.2.temp)).map fun p =>
      let w := t - p.1.temp
      let den := p.2.temp - p.1.temp
      ⟨den.toNat, calZip (fun x y => den * x + w * (y - x)) p.1.vals p.2.vals⟩
  | _, _ => none

/-- Interpolate anew; the converters change over at the next device frame boundary (R121). Without sets the coefficients
stay. -/
def Dev.recalc (d : Dev) : Dev :=
  if !d.runs .core then d else
  match interpolate (d.conv.setsOf d.power.coreFull) d.convTemp with
  | none => d
  | some c => d.modConv fun v => { v with coefNext := some c, coefTemp := d.convTemp }

/-- After a temperature reading: a change of 0.25 °C or more interpolates anew (R121). -/
def Dev.recalcTemp (d : Dev) : Dev := if tempGap d.convTemp d.conv.coefTemp ≥ 25 then d.recalc else d

/-- At a device frame boundary the new coefficients come into force (R121). -/
def Dev.coefSwitch (d : Dev) : Dev :=
  match d.conv.coefNext with
  | some c => d.modConv fun v => { v with coef := some c, coefNext := none }
  | none => d

/-- The tolerances in force, by quantity (R119, R126). -/
def Dev.calTol (d : Dev) : List Nat :=
  [d.conf .calTolOffset, d.conf .calTolGain, d.conf .calTolSkew, d.conf .calTolBw, d.conf .calTolLin]

/-- A run starts: by the grant of its leave, or within the core's wake (R119, R123). -/
def Dev.calStart (d : Dev) : Dev :=
  d.modConv fun v => { v with run := v.run.map fun r => { r with started := some d.now, startTemp := d.convTemp, tol := d.calTol } }

/-- Request leave for a run; its temperature is the new reference (R122). -/
def Dev.calRequest (d : Dev) (kind : CalKind) (slot seq : Nat) : Bool × Dev :=
  let full := d.power.coreFull
  let d := d.modConv fun v => { v with calRef := d.convTemp }
  let r := d.request .calibration (calLeave full)
  if r.1 then
    (true, r.2.modConv fun v => { v with
      run := some ⟨kind, none, full, 0, slot, (d.slot slot).serial, seq, 1, []⟩ })
  else r

/-- CAL.RUN (R127). -/
def verbCalRun : Verb where
  code := 0x1101
  role := .operator
  len := 0

/-- Start a commanded run (R127). -/
def calRun (c : Call) (d : Dev) : Ans × Dev :=
  if !d.runs .core ∨ d.conv.run.isSome then (.now .state, d) else
  let r := d.calRequest .commanded c.slot c.seq
  if r.1 then (.accept, r.2) else (.now .noLeave, r.2)

/-- CAL_RUN (R127). -/
def execCalRun (c : HostCall) (s : State) : Host.Outcome State Fault Refusal := runVerb verbCalRun (onDev calRun) c s

/-- The trigger's temperature condition (R122). -/
def Dev.calMoved (d : Dev) : Bool :=
  d.conf .calTrigger != 0 && decide (tempGap d.convTemp d.conv.calRef > 25 * d.conf .calTrigger)

/-- CAL_TRIGGER: an automatic run requests leave; refused, it is not retried before a further movement (R122). -/
def execCalTrigger (s : State) : Host.Outcome State Fault Refusal :=
  s.run fun d =>
    if !d.runs .core ∨ d.conv.run.isSome ∨ d.conv.suspended ∨ !d.calMoved then d else
    let d := d.at (d.conv.calEnd + secCycles (d.conf .calHoldoff))
    let r := d.calRequest .auto 0 0
    if r.1 then r.2 else r.2.raiseConv .calNoLeave 0 0

/-- A run is over: its leave is given back, its end noted, and what follows a rejection or an acceptance (R122). -/
def Dev.calOver (d : Dev) (r : CalRun) (st : Status) (rejected : Bool) : Dev :=
  let d := d.modConv fun v => { v with run := none, calEnd := d.now }
  let d := if r.kind = .initial then d else (d.giveBack .calibration).withdraw .calibration
  match r.kind with
  | .commanded =>
    (if st = .ok then d.modConv fun v => { v with rejected := 0, suspended := false } else d).endOp r.slot r.serial r.seq st
  | .auto =>
    if st = .ok then d.modConv fun v => { v with rejected := 0 }
    else if rejected then
      let n := d.conv.rejected + 1
      let d := d.modConv fun v => { v with rejected := n, suspended := decide (n ≥ 3) }
      if n = 3 then d.raiseConv .calSuspended 0 0 else d
    else d
  | .initial => d

/-- The core's wake ends, after its initial calibration where it had one (R123, R482): run, or run uncorrected with `CAL_DISAGREE`. The
level intervals begin. -/
def Dev.coreReady (d : Dev) (st : Status) : Dev :=
  let d := d.modConv fun v => { v with calEnd := d.now, lvlFrom := d.frameUp d.now }
  if st = .ok then d.wakeDone .core
  else
    let id := (d.unit .core).commit
    let d := (d.foldCycles.setUnit .core { phase := .running, commit := 0, since := d.now }).giveBack (.wake .core)
    (d.raiseAt .wakeFailed PowerUnit.core.patch st.code).wakeOver id .core st

/-- The core's state after a wake in a mode: default gain and swing, cleared counts, no suspension, and the retirement map that an import
of sets of the mode has re-established since the core slept (R103, R107, R122, R125). -/
def ConvSt.woken (v : ConvSt) (full : Bool) : ConvSt :=
  { v with setting := [], lvl := [], intervals := 0, rejected := 0, suspended := false, coef := none, coefNext := none, sent := [],
           dacTail := [], fault := [],
           retired := (((v.sets.filter fun s => s.full == full && decide (v.sleptOrder ≤ s.order)).getLast?).map (·.retired)).getD [] }

/-- Retirements last until the core sleeps (R125). -/
def ConvSt.slept (v : ConvSt) : ConvSt := { v with retired := [], sleptOrder := v.nextOrder, sent := [], dacTail := [] }

/-- The core's own wake time is over: with a set of the mode it runs, the nearest set's temperature the reference; else its initial
calibration starts (R123). -/
def Dev.coreWaked (d : Dev) : Dev :=
  let d := d.modConv (ConvSt.woken · d.power.coreFull)
  match nearestSet (d.conv.setsOf d.power.coreFull) d.convTemp with
  | none => (d.modConv fun v => { v with run := some ⟨.initial, some d.now, d.power.coreFull, 0, 0, 0, 0, 1, []⟩ }).calStart
  | some s => ((d.modConv fun v => { v with calRef := s.temp }).coreReady .ok).recalc

/-- A run is rejected (R119, R123, R125) (DESIGN CHOICE, assumption 76). -/
def Dev.calReject (d : Dev) (r : CalRun) (st : Status) : Dev :=
  if r.kind = .initial then
    if r.attempt < 3 then
      (d.modConv fun v => { v with calEnd := d.now, run := some { r with attempt := r.attempt + 1 } }).calStart
    else (d.calOver r st true).coreReady .calDisagree
  else d.calOver r st true

/-- Slices out of correctable range are retired one after another; the flag says that a converter had no spare left (R125). -/
def Dev.retire : List (Nat × Nat) → Dev → Bool × Dev
  | [], d => (false, d)
  | (c, sl) :: r, d =>
    if d.conv.retired.contains (c, sl) then Dev.retire r d
    else if d.conv.retired.any (·.1 == c) then
      (true, (d.modConv fun v => { v with fault := if v.fault.contains c then v.fault else v.fault ++ [c] }).raiseConv .convSliceFault 0
        (c + 128 * sl))
    else Dev.retire r ((d.modConv fun v => { v with retired := v.retired ++ [(c, sl)] }).raiseConv .convSliceRetired 0 (c + 128 * sl))

/-- The slices that a run measures (R118). -/
def calSlices (full : Bool) : Nat := if full then 130 else 18

/-- What a pass measured of a slice. -/
def passSlice (l : List CalConv) (c s : Nat) : SliceMeas := (l.getD c {}).slices.getD s {}

/-- A slice that a pass finds out of correctable range: 24 LSB, 1.5 dB, 20 ps, 15 GHz (R125). -/
def SliceMeas.bad (x : SliceMeas) : Bool :=
  decide (x.offset.natAbs > 2400 ∨ x.gain.natAbs > 1500 ∨ x.skew.natAbs > 2000 ∨ x.bw.natAbs > 1500)

/-- The slices (converter, slice) out of correctable range in both passes, in the order in which they are measured (R118, R125) (DEDUCED,
assumption 76). -/
def CalMeas.bad (m : CalMeas) (n : Nat) : List (Nat × Nat) :=
  (List.range n).flatMap fun s => ((List.range 8).filter fun c => (passSlice m.passA c s).bad && (passSlice m.passB c s).bad).map (·, s)

/-- The first item in which the passes disagree beyond its tolerance: converter, quantity, and slice or table entry over 8; slices first,
in the order in which they are measured, those that are out of range left out (R119, R125) (DESIGN CHOICE, assumption 76). -/
def CalMeas.disagrees (m : CalMeas) (n : Nat) (tol : List Nat) : Option (Nat × Nat × Nat) :=
  let out := m.bad n
  let far := fun (q : Nat) (a b : Int) => decide ((a - b).natAbs > tol.getD q 0)
  let slices := (List.range n).findSome? fun s => (List.range 8).findSome? fun c =>
    let a := passSlice m.passA c s
    let b := passSlice m.passB c s
    if out.contains (c, s) then none else
    ([(0, a.offset, b.offset), (1, a.gain, b.gain), (2, a.skew, b.skew), (3, a.bw, b.bw)].find? fun x => far x.1 x.2.1 x.2.2).map
      fun x => (c, x.1, s)
  slices.orElse fun _ => (List.range 4).findSome? fun c =>
    ((zipZero (fun a b => a - b) (m.passA.getD c {}).lin (m.passB.getD c {}).lin).findIdx? fun x => far 4 x 0).map fun e => (c, 4, e / 8)

/-- The retirement map and the values of a set, one after another: what its record's body holds (R125, R129). -/
def calInts (retired : List (Nat × Nat)) (l : List CalConv) : List Int :=
  let fill := fun (n : Nat) (x : List Int) => (x ++ List.replicate (n - x.length) 0).take n
  ((List.range 8).map fun c => match retired.find? (·.1 == c) with | some e => (e.2 : Int) + 1 | none => 0) ++
  (List.range 8).flatMap fun c =>
    let x := l.getD c {}
    fill 520 (x.slices.flatMap fun s => [s.offset, s.gain, s.skew, s.bw]) ++ (if c < 4 then fill 1024 x.lin else [])

/-- The slices of a list of quantities, four to a slice. -/
def slicesOf : Nat → List Int → List SliceMeas
  | n + 1, a :: b :: c :: e :: r => ⟨a, b, c, e⟩ :: slicesOf n r
  | _, _ => []

/-- The retirement map and the values that a list holds. -/
def calOfInts (l : List Int) : List (Nat × Nat) × List CalConv :=
  (((List.range 8).zip l).filterMap fun e => if 1 ≤ e.2 ∧ e.2 ≤ 130 then some (e.1, (e.2 - 1).toNat) else none,
   (List.range 8).map fun c =>
    let r := l.drop (8 + if c < 4 then 1544 * c else 4 * 1544 + 520 * (c - 4))
    ⟨slicesOf 130 (r.take 520), if c < 4 then (r.drop 520).take 1024 else []⟩)

/-- The comparison ends a run: retirements, then the tolerances and the temperature, then a new set of the means of the two passes
(R119, R120, R125). -/
def Dev.calCompare (d : Dev) (r : CalRun) (m : CalMeas) : Dev :=
  let n := calSlices r.full
  let (bad, d) := Dev.retire (m.bad n) d
  if bad then d.calReject r .hardwareFault else
  match m.disagrees n r.tol with
  | some x => (d.raiseConv .calDisagree 0 (x.1 + 16 * x.2.1 + 128 * x.2.2)).calReject r .calDisagree
  | none =>
    if tempGap d.convTemp r.startTemp > 100 then (d.raiseConv .calDisagree 0 (7 * 16)).calReject r .calDisagree else
    let vals := calZip (· + ·) m.passA m.passB
    let set : CalSet := ⟨r.full, (r.startTemp + d.convTemp) / 2, (toQTime d.time16).sec, d.conv.nextOrder, d.conv.retired, vals,
      Config.calBody (calInts d.conv.retired vals) % 2 ^ (8 * 16352)⟩
    let worst := m.quality.foldl (fun w q => max w q.1) (-32768)
    let d := (d.modConv fun v => { v.keepSet set with quality := v.quality.set (fun _ => []) (b2n r.full) m.quality }).raiseConv .calDone 0
      (unsigned 16 worst)
    let d := d.calOver r .ok false
    (if r.kind = .initial then d.coreReady .ok else d).recalc

/-- The run in progress ends with what it measured (R118, R119) (DESIGN CHOICE, assumption 76). -/
def Dev.calRunEnd (d : Dev) (m : CalMeas) : Dev :=
  match d.conv.run with
  | some r => match r.started with
    | some t => (d.at (t + calTime r.full)).calCompare r m
    | none => d
  | none => d

/-- A run, in progress or waiting, ends early with `CAL_CUT` or `ABORTED`; no set changes. What follows for a core whose initial
run it was is the wake's (R123, R124). -/
def Dev.calCutShort (d : Dev) (st : Status) : Dev :=
  match d.conv.run with
  | none => d
  | some r => (if st = .calCut then d.raiseConv .calCut 0 0 else d).calOver r st false

/-- The initial calibration of a core's wake runs (R123). -/
def Dev.calInitial (d : Dev) : Bool := d.conv.run.any fun r => r.kind == .initial

/-- A reset or a power failure ends a run with `ABORTED`, and with an initial run the core's wake (R123, R124). -/
def Dev.calAbort (d : Dev) : Dev :=
  let d' := d.calCutShort .aborted
  if d.calInitial then d'.failWake .core .aborted else d'

/-! ### The slices' rotation (R98, R118) -/

/-- The measured slice that a run holds out of service: each in turn for 1.5 ms in either pass, the lowest first (R98, R118, R124) (DESIGN CHOICE,
assumption 209). -/
def Dev.underTest (d : Dev) : Option Nat :=
  match d.conv.run with
  | none => none
  | some r => match r.started with
    | none => none
    | some t =>
      let n := calSlices r.full
      let k := (d.now - t) / (msCycles 3 / 2)
      if k < 2 * n then some (k % n) else none

/-- The physical slice that serves a position of a converter's interleave sequence: of n measured slices the last two are the rotation spare
and the retirement spare; a retired slice's place is taken by the latter, and that of the slice under test by the former (R98, R125) (DESIGN CHOICE,
assumption 209). -/
def Dev.sliceAt (d : Dev) (full : Bool) (conv pos : Nat) : Nat :=
  let n := calSlices full
  let own := if d.conv.retired.contains (conv, pos) then n - 1 else pos
  if d.underTest = some own then n - 2 else own

/-- CAL.POLICY (R126). -/
def verbCalPolicy : Verb where
  code := 0x1102
  role := .operator
  len := 12
  params := [⟨0, 0, 8, .range 0 80⟩, ⟨1, 0, 8, .rsv⟩, ⟨2, 0, 16, .range 10 3600⟩, ⟨4, 0, 16, .range 5 500⟩,
    ⟨6, 0, 8, .range 10 250⟩, ⟨7, 0, 8, .range 5 200⟩, ⟨8, 0, 16, .range 10 500⟩, ⟨10, 0, 8, .range 5 100⟩, ⟨11, 0, 8, .rsv⟩]

/-- CAL_POLICY (R126). -/
def execCalPolicy (c : HostCall) (s : State) : Host.Outcome State Fault Refusal :=
  runVerb verbCalPolicy (stageOn ⟨.line, 0⟩ (fun _ _ => none) fun c _ =>
    [fv .calTrigger 0 (c.p 0 0 8) 8, fv .calHoldoff 0 (c.p 2 0 16) 16, fv .calTolSkew 0 (c.p 4 0 16) 16,
      fv .calTolGain 0 (c.p 6 0 8) 8, fv .calTolOffset 0 (c.p 7 0 8) 8, fv .calTolBw 0 (c.p 8 0 16) 16,
      fv .calTolLin 0 (c.p 10 0 8) 8]) c s

/-- CAL.QUALITY (R127). -/
def verbCalQuality : Verb where
  code := 0x1103
  role := .observer
  len := 4
  groups := true
  reads := true
  params := [⟨0, 0, 32, .patch [(.converter, 0, 7)]⟩]

/-- The result fields of `CAL.QUALITY`: the last accepted run of the mode, its residual corrected by the interpolation in use (R128) (DESIGN
CHOICE, assumption 201). -/
def qualityFields (v : Dev) (i : Nat) : List RField :=
  let near := nearestSet (v.conv.setsOf v.power.coreFull) v.convTemp
  let dt := (near.map fun s => v.convTemp - s.temp).getD 0
  let q := match (v.conv.quality.get (fun _ => []) (b2n v.power.coreFull))[i]? with
    | some q => (unsigned 16 (Config.calResidual q.1 dt), q.2.1, q.2.2)
    | none => (Config.calUnmeasured 0 i % 65536, Config.calUnmeasured 2 i % 65536, Config.calUnmeasured 4 i % 65536)
  [rf .maxS 0 0 16 q.1, rf .minU 2 0 16 q.2.1, rf .minU 4 0 16 (if v.power.coreFull then q.2.2 else 0),
    rf .minS 6 0 16 (unsigned 16 dt),
    rf (.severe [1, 0]) 8 0 1 (b2n near.isNone), rf (.severe [1, 0]) 8 1 1 (b2n v.conv.suspended),
    rf (.severe [1, 0]) 8 2 1 (b2n (v.conv.retired.any (·.1 == i)))]

/-- The meaning of `CAL.QUALITY`. -/
def bodyCalQuality : Body := readEach 9 fun _ v i => if v.runs .core then some (qualityFields v i) else none

/-- CAL_QUALITY (R128). -/
def execCalQuality (c : HostCall) (s : State) : Host.Outcome State Fault Refusal := runVerb verbCalQuality bodyCalQuality c s

/-- CAL.SETS (R127). -/
def verbCalSets : Verb where
  code := 0x1104
  role := .observer
  len := 0

/-- The temperatures of a mode's sets, unused entries 0x8000. -/
def setTemps (o : Nat) (l : List CalSet) : List Bf :=
  (List.range 8).map fun k => fieldAt (o + 2 * k) 16 ((l[k]?.map fun s => unsigned 16 s.temp).getD 0x8000)

/-- CAL_SETS (R127). -/
def execCalSets (c : HostCall) (s : State) : Host.Outcome State Fault Refusal :=
  runVerb verbCalSets (onView fun _ v =>
    let f := v.conv.setsOf true
    let n := v.conv.setsOf false
    .now .ok (res 34 ([fieldAt 0 8 f.length, fieldAt 1 8 n.length] ++ setTemps 2 f ++ setTemps 18 n))) c s

/-- An export record of a set (R129) (DESIGN CHOICE, assumption 73, DESIGN CHOICE, assumption 74). -/
def calRecord (identity : List Byte) (s : CalSet) : List Byte :=
  let body := leBytes 16352 s.body
  leBytes 2 1 ++ leBytes 2 (if s.full then 1 else 2) ++ leBytes 2 (unsigned 16 s.temp) ++ leBytes 6 s.sec ++ identity ++
  leBytes 4 (crc32 body) ++ leBytes 8 0 ++ body

/-- CAL.EXPORT (R127) (DESIGN CHOICE, assumption 73). -/
def verbCalExport : Verb where
  code := 0x1105
  role := .observer
  len := 0
  ext := .always

/-- CAL_EXPORT (R127, R129). -/
def execCalExport (c : HostCall) (s : State) : Host.Outcome State Fault Refusal :=
  runVerb verbCalExport (onView fun c v =>
    let l := v.conv.setsOf true ++ v.conv.setsOf false
    if c.extLen < 16384 * l.length then .now .outOfRange
    else .wrote (l.flatMap (calRecord v.otp.identity)) (res 1 [fieldAt 0 8 l.length])) c s

/-- CAL.IMPORT (R127). -/
def verbCalImport : Verb where
  code := 0x1106
  role := .operator
  len := 0
  ext := .always
  entry := [⟨2, 0, 8, .enum [1, 2]⟩, ⟨3, 0, 8, .rsv⟩, ⟨24, 0, 64, .rsv⟩]
  entryLen := 16384
  codes := fun c => c.extLen % 16384 != 0 || decide (c.extLen > 16 * 16384)

/-- The records of an import buffer (DESIGN CHOICE, assumption 74). -/
def calRecords (c : Call) : List (List Byte) := chunks 16384 16 c.bytes

/-- A record is this device's, whole, and of the known format (R129). -/
def calRecordOk (identity : List Byte) (b : List Byte) : Bool :=
  leNat (slice b 0 2) == 1 && slice b 12 8 == identity && leNat (slice b 20 4) == crc32 (b.drop 32)

/-- What refuses an import (R8, R129). -/
def calImportCheck (c : Call) (d : Dev) : Option Status :=
  let l := calRecords c
  let mode := fun b => leNat (slice b 2 1)
  firstOf [
    (l.any fun b => !calRecordOk d.otp.identity b, .calForeign),
    (decide ((l.filter (mode · == 1)).length > 8 ∨ (l.filter (mode · == 2)).length > 8), .calForeign)]

/-- CAL_IMPORT (R129). -/
def execCalImport (c : HostCall) (s : State) : Host.Outcome State Fault Refusal :=
  runVerb verbCalImport (stageOn ⟨.line, 0⟩ calImportCheck fun c _ =>
    ⟨.calImport, 16, (calRecords c).length, 0⟩ :: (calRecords c).mapIdx fun k b => fv .calImport k (leNat b) (8 * 16384)) c s

/-- CAL.DROP (R127) (DESIGN CHOICE, assumption 216). -/
def verbCalDrop : Verb where
  code := 0x1107
  role := .operator
  len := 1
  params := [⟨0, 2, 6, .rsv⟩]

/-- CAL_DROP (R127). -/
def execCalDrop (c : HostCall) (s : State) : Host.Outcome State Fault Refusal :=
  runVerb verbCalDrop (stageOn ⟨.line, 0⟩ (fun _ _ => none) fun c _ => [fv .calDrop 0 (c.p 0 0 2) 2]) c s

/-! ### What a commit does here -/

/-- A set from an imported record: what its body holds, the device alone knows (R125, R129, assumption 74). -/
def calSetOf (order : Nat) (v : Nat) : CalSet :=
  let body := v / 2 ^ (8 * 32)
  let x := calOfInts (Config.calData body)
  ⟨bits v 16 8 == 1, signed 16 (bits v 32 16), bits v 48 48, order, x.1, x.2, body⟩

/-- Drop and import sets (R127, R129) (DESIGN CHOICE, assumption 75). -/
def Dev.calSetsCommit (d : Dev) (es : List Entry) : Dev :=
  let drop := (staged? es .calDrop 0).getD 0
  let n := (staged? es .calImport 16).getD 0
  if drop = 0 ∧ n = 0 then d else
  let d := d.modConv fun v => { v with sets := v.sets.filter fun s => !bit drop (if s.full then 0 else 1) }
  let recs := (List.range n).filterMap fun k => staged? es .calImport k
  let l := recs.mapIdx fun k v => calSetOf (d.conv.nextOrder + k) v
  let d := d.modConv fun v => { v with
    sets := v.sets.filter (fun s => !l.any (·.full == s.full)) ++ l, nextOrder := v.nextOrder + l.length,
    retired := if l.isEmpty then v.retired else ((l.filter (·.full == d.power.coreFull)).getLast?.map (·.retired)).getD v.retired }
  d.recalc

/-- What a commit's converter fields do at its device frame boundary (R104, R112, R116, R117, R121). -/
def Dev.convCommit (d : Dev) (id : Nat) (es : List Entry) : Dev :=
  let d := (stagedAll es .gain).foldl (fun d g => d.modConv fun v => { v with setting := v.setting.set convDefault g.1 g.2 }) d
  let d := if (staged? es .lasAddr 0).isSome then d.modConv fun v => { v with lasAcc := [0, 0] } else d
  let d := d.feIssue id (stagedAll es .feWrite)
  let d := d.lasIssue id ((stagedAll es .lasWrite).map (·.2))
  d.calSetsCommit es

end Sys2Proof.Machine
end

