-- ==== Sys2Proof/Machine/Pm.lean ====
section
/-! DEFINITION. Performance seconds: the machine of R261, its seconds and intervals (R260 to R263). -/

namespace Sys2Proof.Machine

/-- Count a second in available time (R261). -/
def PmCnt.add (c : PmCnt) (s : PmSec) : PmCnt :=
  { c with es := (c.es + b2n s.es) % 2 ^ 32, ses := (c.ses + b2n s.ses) % 2 ^ 32, bbe := (c.bbe + s.bbe) % 2 ^ 32 }

/-- Count unavailable seconds. -/
def PmCnt.addUas (c : PmCnt) (n : Nat) : PmCnt := { c with uas := (c.uas + n) % 2 ^ 32 }

/-- Apply a count to the running interval and to the totals (R263). -/
def PmEnd.count (e : PmEnd) (f : PmCnt → PmCnt) : PmEnd := { e with cur := f e.cur, tot := f e.tot }

/-- One second enters the machine; the answer says whether unavailability started (true) or ended (false) (R261). -/
def PmEnd.push (e : PmEnd) (s : PmSec) : Option Bool × PmEnd :=
  let e := { e with pending := e.pending ++ [s] }
  if e.pending.length < 10 then (none, e)
  else if !e.unavail then
    if e.pending.all (·.ses) then
      (some true, { e.count (·.addUas 10) with unavail := true, pending := [] })
    else
      match e.pending with
      | [] => (none, e)
      | x :: r => (none, { e.count (·.add x) with pending := r })
  else if e.pending.all (!·.ses) then
    (some false, { e.pending.foldl (fun e x => e.count (·.add x)) e with unavail := false, pending := [] })
  else (none, { e.count (·.addUas 1) with pending := e.pending.drop 1 })

/-- A second of given blocks (R261). -/
def pmSec (blocks errored : Nat) (defect : Bool) : PmSec :=
  let ses := defect || decide (errored ≥ ceilDiv (3 * blocks) 10)
  ⟨defect || decide (errored > 0), ses, if ses then 0 else errored⟩

/-- The running second ends at a counter value; it is judged once the parity of its last block is known (R260). -/
def PmSt.endSecond (m : PmSt) (now : Nat) : PmSt :=
  { m with ended := some (some ⟨m.blocks, m.errored, m.farErrored, m.defect, m.farDefect⟩), from' := now, blocks := 0, errored := 0,
           farErrored := 0, defect := false, farDefect := false }

/-- Errored blocks whose errors the next block's arrival has told: they belong to the second of the block itself (R260). -/
def PmSt.late (m : PmSt) (n : Nat) : PmSt :=
  match m.ended with
  | some (some r) => { m with ended := some (some { r with errored := r.errored + n }) }
  | some none => m
  | none => { m with errored := m.errored + n }

/-- The second that has ended is classified at both ends; a near-end SES or unavailable second is not pushed into the far-end machine
(R261, R262). -/
def PmSt.judge (m : PmSt) : Option Bool × Option Bool × PmSt :=
  match m.ended with
  | some (some r) =>
    let s := pmSec r.blocks r.errored r.defect
    let n := m.near.push s
    let f := if s.ses || n.2.unavail then (none, m.far) else m.far.push (pmSec r.blocks r.farErrored r.farDefect)
    (n.1, f.1, { m with near := n.2, far := f.2, ended := none })
  | _ => (none, none, { m with ended := none })

/-- Two frames after a second's end its last block's parity can come no more. -/
def PmSt.overdue (m : PmSt) (now : Nat) : Bool := m.ended.isSome && decide (m.from' + 500 ≤ now)

/-- The running second is cut short: it is counted in no category, and its interval is suspect (R260, R263) (DESIGN CHOICE, assumption 108). -/
def PmSt.cut (m : PmSt) (now : Nat) : PmSt :=
  { m with from' := now, byTime := true, blocks := 0, errored := 0, farErrored := 0, defect := false, farDefect := false,
           suspect := true, ended := some (m.ended.getD none) }

/-- A 15-minute interval closes (R263) (DESIGN CHOICE, assumption 96). -/
def PmSt.interval (m : PmSt) (established : Bool) : PmSt :=
  let roll := fun (e : PmEnd) => { e with prev := e.cur, cur := {} }
  { m with near := roll m.near, far := roll m.far, prevSuspect := m.suspect, suspect := !established }

/-- The monitoring of a unit that has just woken: its first interval is suspect if it starts before time is established (R260, R263). -/
def Dev.newPm (d : Dev) : PmSt := { from' := d.now, byTime := d.time.established, suspect := !d.time.established }

/-- Change overhead and protection state. -/
def Dev.modOver (d : Dev) (f : OverSt → OverSt) : Dev := { d with ohd := f d.ohd }

/-- Change every entity's monitoring. -/
def OverSt.mapPm (o : OverSt) (f : PmSt → PmSt) : OverSt :=
  { o with
    secs := o.secs.mapVals (fun _ => {}) fun x => { x with pm := f x.pm },
    paths := o.paths.mapVals (fun _ => {}) fun x => { x with pm := f x.pm },
    hub := { o.hub with leaves := o.hub.leaves.mapVals (fun _ => {}) fun x => { x with pm := f x.pm } } }

/-- The 15-minute interval of device time (R263). -/
def Dev.intervalNo (d : Dev) : Nat := (d.time16 / (900 * 65536000000000)).toNat

/-- A time step closes the running seconds; one backwards takes the interval back (R260, R263) (DESIGN CHOICE, assumption 108). -/
def Dev.cutSeconds (d : Dev) : Dev := d.modOver fun o => { o.mapPm (·.cut d.now) with interval := min o.interval d.intervalNo }

end Sys2Proof.Machine
end

