-- ==== Sys2Proof/Machine/Time.lean ====
section
/-! DEFINITION. Device time: steps, slews and reads (R318 to R325), stamps (R326 to R332) and time transfer (R333 to R342). -/

namespace Sys2Proof.Machine

/-! ### Steps and slews -/

/-- Change the time state. -/
def Dev.modTime (d : Dev) (f : TimeSt → TimeSt) : Dev := { d with time := f d.time }

/-- A second in 2^-16 ns. -/
def sec16 : Int := 65536000000000

/-- A phase against whole seconds, brought between −0.5 s and 0.5 s. -/
def halfSecond (x : Int) : Int := let y := x % sec16; if 2 * y > sec16 then y - sec16 else y

/-- Device time moves by so much: what time transfer holds of local instants moves with it, and its offsets (R335, R337, R359) (DEDUCED,
assumption 66). -/
def TtSt.moved (x : TtSt) (by' : Int) : TtSt :=
  let s := fun (s : TtStamp) => { s with time := s.time + by' }
  { x with
    offset := if x.valid then x.offset + by' else x.offset, results := x.results.map (· + by'),
    scs := x.scs.mapVals (fun _ => {}) fun y => { y with deps := y.deps.map s, arr := y.arr.map s } }

/-- The format of an input's ToD messages; ZDA without `TAI_UTC_VALID` counts as none (R348, R350) (DEDUCED, assumption 116). -/
def Dev.todFmt (d : Dev) (r : Nat) : Nat :=
  if d.conf .refTod r = 1 ∧ d.conf .refUtcValid = 0 then 0 else d.conf .refTod r

/-- Device time moves by so much: a reference's time against it changes by as much the other way (R347, R359) (DEDUCED, assumption 66). -/
def Dev.refMoved (d : Dev) (by' : Int) : Tab RefIn :=
  (List.range 6).foldl (fun t r => t.modify refDefault r fun x => { x with
    time := x.time.map fun t => if r ≤ 1 ∧ d.todFmt r = 0 then halfSecond (t - by') else t - by' }) d.ref.ins

/-- Time T, in 2^-16 ns, is given to an instant: the anchor moves there, time is established, any pending step is over, the running
performance seconds are cut, the time build-out is 0 and `EV_TIME_STEPPED` is raised (R260, R319, R321, R323, R355) (DESIGN CHOICE, assumption 66). -/
def Dev.stepTime (d : Dev) (cnt cfr : Nat) (t : Int) (why : Nat) : Dev :=
  let by' := t - d.time.timeAt cnt cfr
  let d := { d with ref := { d.ref with buildTime := 0, swept := t, ins := d.refMoved by' } }
  (d.modTime fun x => { x with
    line := x.line.moved by', stitch := x.stitch.moved by',
    anchorCnt := cnt, anchorCfr := cfr, anchorT := t, established := true, step := none }).cutSeconds.endInterval.raiseAt .timeStepped ⟨.time, 0⟩ why

/-- A new rate from this AC edge on: the time computed under the old rate is the new anchor (R319). -/
def Dev.setRate (d : Dev) (r : Int) : Dev :=
  d.modTime fun x => { x with anchorCnt := d.now, anchorCfr := 0, anchorT := x.timeAt d.now 0, rate := r }

/-- TIME.STEP (R323). -/
def verbTimeStep : Verb where
  code := 0x2001
  role := .operator
  len := 28
  params := [⟨0, 2, 6, .rsv⟩, ⟨1, 0, 56, .rsv⟩, ⟨14, 0, 30, .range 0 999999999⟩, ⟨14, 30, 2, .rsv⟩]

/-- Step now, or hold the step until its pulse or count (R321, R323). -/
def timeStep (c : Call) (d : Dev) : Ans × Dev :=
  let at' := c.p 0 0 2
  let t := ofQTime ⟨c.p 8 0 48, c.p 14 0 30⟩ + c.p 18 0 16
  let n := c.p 20 0 64
  if at' = 3 ∧ (n < d.now + msCycles 1 ∨ d.now + secCycles 2 < n) then (.now .outOfRange, d)
  else if d.time.established ∨ d.time.step.isSome then (.now .state, d)
  else if at' = 0 then (.now .ok (res 8 [fieldAt 0 64 d.now]), d.stepTime d.now 0 t 0)
  else
    (.accept, d.modTime fun x => { x with
      step := some ⟨at', t, if at' = 3 then n else d.now + secCycles 2, c.slot, (d.slot c.slot).serial, c.seq⟩ })

/-- TIME_STEP (R323). -/
def execTimeStep (c : HostCall) (s : State) : Host.Outcome State Fault Refusal := runVerb verbTimeStep (onDev timeStep) c s

/-- STEP_AT_COUNT: the pending step acts when the counter reaches `AT_COUNT` (R323). -/
def execStepAtCount (s : State) : Host.Outcome State Fault Refusal :=
  s.run fun d =>
    match d.time.step with
    | some p => if p.kind = 3 then ((d.at p.limit).stepTime p.limit 0 p.t 0).endOp p.slot p.serial p.seq .ok else d
    | none => d

/-- STEP_PULSE_TIMEOUT: no edge within 2 s ends the pending pulse step (R323). -/
def execStepPulseTimeout (s : State) : Host.Outcome State Fault Refusal :=
  s.run fun d =>
    match d.time.step with
    | some p =>
      if p.kind = 3 then d else
      ((d.at p.limit).modTime fun x => { x with step := none }).endOp p.slot p.serial p.seq .timeNoPulse
    | none => d

/-- A rising edge on a pulse input is latched; a step that waits for it gives it time T (R318, R323, R325). -/
def Dev.ppsLatch (d : Dev) (second : Bool) (frac : Nat) : Dev :=
  let frac := frac % 65536
  let d := match d.time.step with
    | some p =>
      if p.kind = (if second then 2 else 1) then (d.stepTime d.now frac p.t 0).endOp p.slot p.serial p.seq .ok else d
    | none => d
  let e : PpsEdge := ⟨d.now, frac, d.time.timeAt d.now frac, d.tcTotal d.now + frac * d.tcRate / 65536⟩
  d.modTime fun x => if second then { x with ppsB := some e } else { x with ppsA := some e }

/-- TIME.SLEW (R324). -/
def verbTimeSlew : Verb where
  code := 0x2002
  role := .operator
  len := 16
  params := [⟨0, 0, 48, .srange (-100000000000) 100000000000⟩, ⟨6, 0, 32, .range 0 600000⟩,
    ⟨10, 0, 48, .srange (-100000000000) 100000000000⟩]

/-- Set the rate and, with a hold, the rate that follows it; refused while reference selection steers time (R324). -/
def timeSlew (c : Call) (d : Dev) : Ans × Dev :=
  if d.conf .refTimeMode = 1 then (.now .state, d) else
  let h := c.p 6 0 32
  let d := (d.setRate (c.ps 0 0 48)).modTime fun x => { x with
    hold := if h = 0 then none else some (d.now + msCycles h, c.ps 10 0 48) }
  (.now .ok (res 8 [fieldAt 0 64 d.now]), d)

/-- TIME_SLEW (R324). -/
def execTimeSlew (c : HostCall) (s : State) : Host.Outcome State Fault Refusal := runVerb verbTimeSlew (onDev timeSlew) c s

/-- SLEW_HOLD_END: `RATE_AFTER` applies as the hold ends (R324). -/
def execSlewHoldEnd (s : State) : Host.Outcome State Fault Refusal :=
  s.run fun d =>
    match d.time.hold with
    | some h =>
      (((d.at h.1).setRate h.2).modTime fun x => { x with hold := none }).raiseAt .slewHoldEnd ⟨.time, 0⟩ 0
    | none => d

/-! ### Reading time, losing it -/

/-- TIME.READ (R325). -/
def verbTimeRead : Verb where
  code := 0x2003
  role := .observer
  len := 1
  params := [⟨0, 0, 8, .enum [0, 1, 2]⟩]

/-- The count, fraction and time of now or of a pulse input's last edge (R325). -/
def timeRead (c : Call) (d : Dev) : Ans :=
  let edge := if c.p 0 0 2 = 0 then some ⟨d.now, 0, d.time16, d.tcTotal d.now⟩ else if c.p 0 0 2 = 1 then d.time.ppsA else d.time.ppsB
  match edge with
  | none => .now .state
  | some e =>
    let q := toQTime e.time
    .now .ok (res 32 [fieldAt 0 64 e.cnt, fieldAt 8 16 e.frac, fieldAt 10 48 q.sec, at' 16 0 30 q.ns,
      fieldAt 20 16 (e.time % 65536).toNat, fieldAtS 22 48 d.time.rate, at' 28 0 1 (b2n d.time.established),
      at' 28 1 1 (b2n d.time.step.isSome), at' 28 2 1 (b2n d.time.hold.isSome)])

/-- TIME_READ (R325): the instant of execution, not the snapshot's. -/
def execTimeRead (c : HostCall) (s : State) : Host.Outcome State Fault Refusal :=
  runVerb verbTimeRead (onDev fun c d => (timeRead c d, d)) c s

/-- TIME.LOST (R342). -/
def verbTimeLost : Verb where
  code := 0x2004
  role := .operator
  len := 0

/-- A local timed commit waits or is not yet applied at its last point, or a quilt commit is prepared or scheduled here (R322). -/
def Dev.holdsTimed (d : Dev) : Bool :=
  d.cfg.commits.any (fun c => c.timed && c.quilt.isNone && match c.phase with
    | .waiting | .partway _ _ => true
    | _ => false) || d.quilt.member == .prepared ||
  d.quilt.member == .scheduled

/-- TIME_LOST (R322). -/
def execTimeLost (c : HostCall) (s : State) : Host.Outcome State Fault Refusal :=
  runVerb verbTimeLost (onDev fun _ d =>
    if d.holdsTimed then (.now .state, d)
    else
      let d := if d.time.established ∧ d.conf .dumpAlign = 1 then d.endInterval else d
      (.now .ok, (d.modTime fun x => { x with established := false }).raiseAt .timeLost ⟨.time, 0⟩ 0)) c s

/-! ### Stamps (R326 to R332) -/

/-- Picoseconds in 2^-16 ns. -/
def ps16 (n : Int) : Int := roundDiv (n * 65536) 1000

/-- The bytes of a stamp item (R331). -/
def stampItem (seq id ptpSeq port msgType : Nat) (t : Int) (valid oneStep fallback : Bool) : Item :=
  BitVec.ofNat 512 (pack [fieldAt 0 8 0x03, at' 1 0 2 1, fieldAt 2 16 seq, fieldAt 4 16 id, fieldAt 6 16 ptpSeq,
    fieldAt 8 32 (compact t), fieldAt 12 8 ((t % 65536).toNat / 256), at' 13 0 4 port, at' 13 4 4 msgType,
    at' 14 0 1 (b2n valid), at' 14 1 1 (b2n oneStep), at' 14 2 1 (b2n fallback)])

/-- A stamp enters the time-stamp bobbin; one that finds all 64 stages full is dropped, counted, and reported once an episode
(R63, R331, R332). -/
def Dev.stamp (d : Dev) (id ptpSeq port msgType : Nat) (t : Int) (oneStep fallback : Bool) : Dev :=
  let b := d.ctl.stamp
  let seq := b.nextSeq
  let item := stampItem seq id ptpSeq port msgType t d.time.established oneStep fallback
  let next := (seq + 1) % 2 ^ 16
  if b.bob.used < 64 then
    { d with ctl := { d.ctl with stamp := { b with bob := b.bob.push ⟨item, seq, 1, d.time.established⟩, nextSeq := next } } }
  else
    let first := !b.overflow
    let d := { d with ctl := { d.ctl with stamp := { b with nextSeq := next, lost := (b.lost + 1) % 2 ^ 32, overflow := true } } }
    if first then d.raiseAt .stampOverflow ⟨.time, 0⟩ seq else d

/-- Change a port's stamp counters. -/
def Dev.modStamps (d : Dev) (p : Nat) (f : StampCnt → StampCnt) : Dev :=
  d.modTime fun x => { x with stamps := x.stamps.modify (fun _ => {}) p f }

/-! ### Time transfer (R333 to R338) -/

/-- The state of a link: 0 the line, 1 the stitch link. -/
def TimeSt.tt (x : TimeSt) (k : Nat) : TtSt := if k = 0 then x.line else x.stitch

/-- Change a link's time transfer. -/
def Dev.modTt (d : Dev) (k : Nat) (f : TtSt → TtSt) : Dev :=
  d.modTime fun x => if k = 0 then { x with line := f x.line } else { x with stitch := f x.stitch }

/-- The patch of a link. -/
def ttPatch (k : Nat) : Patch := if k = 0 then ⟨.line, 0⟩ else ⟨.stitchLane, 0⟩

/-- The committed settings of a link come into force at a multiframe boundary (R340). -/
def Dev.ttSettings (d : Dev) (k : Nat) : Dev :=
  d.modTt k fun x => { x with
    en := d.conf .ttEn k == 1, fibre := d.conf .ttFibre k == 1, avg := d.conf .ttAvg k, rxRef := d.conf .rxRefMhz k,
    txExt := d.conf .txExtPs k, rxExt := d.conf .rxExtPs k, asymSet := signed 32 (d.conf .asymPs k) }

/-- The local transmit and receive fixes of a link in ps; zero between siblings (R334, R338). -/
def TtSt.txFix (x : TtSt) (k : Nat) : Nat := if k = 0 then 1200 + x.txExt else 0
/-- The receive fix. -/
def TtSt.rxFix (x : TtSt) (k : Nat) : Nat := if k = 0 then 850 + x.rxExt else 0

/-- A record of type 1 or 2 (R334). -/
def ttStampRecord (type mfc : Nat) (t : Int) : List Byte :=
  let q := toQTime t
  beBytes 1 type ++ beBytes 3 mfc ++ beBytes 6 q.sec ++ beBytes 4 q.ns ++ beBytes 2 (t % 65536).toNat

/-- The record of type 3 that this device sends (R334). -/
def Dev.ttParRecord (d : Dev) (k : Nat) (cd : Int) : List Byte :=
  let x := d.time.tt k
  beBytes 1 3 ++ beBytes 1 (b2n d.time.established + 2 * b2n x.fibre + 4 * b2n (d.role == .hub)) ++ beBytes 4 x.rxRef ++
  beBytes 4 (unsigned 32 cd) ++ beBytes 3 (x.txFix k) ++ beBytes 3 (x.rxFix k)

/-- What the 16 bytes of a time record give: `REF_MFC` and the time of the stamp (R334). -/
def ttStampOf (b : List Byte) : Nat × Nat :=
  (beNat (slice b 1 3), ofQTime ⟨beNat (slice b 4 6), beNat (slice b 10 4) % 2 ^ 30⟩ + beNat (slice b 14 2))

/-- What the 16 bytes of a parameter record give (R334). -/
def ttParOf (b : List Byte) : TtPar :=
  let f := (b.getD 1 0).toNat
  ⟨bit f 0, bit f 1, bit f 2, beNat (slice b 2 4), signed 32 (beNat (slice b 6 4)), beNat (slice b 10 3), beNat (slice b 13 3)⟩

/-- Take in a received time record of a subcarrier (R333, R334). -/
def Dev.ttRecord (d : Dev) (k sc : Nat) (b : List Byte) : Dev :=
  let type := (b.getD 0 0).toNat
  let r := ttStampOf b
  let upd := fun (f : TtSc → TtSc) => d.modTt k fun x => { x with scs := x.scs.modify (fun _ => {}) sc f }
  if type = 1 then upd fun s => { s with farDep := some r }
  else if type = 2 then (if r.1 = 0xFFFFFF then d else upd fun s => { s with farArr := some r, fresh := true })
  else if type = 3 then d.modTt k fun x => { x with far := some (ttParOf b) }
  else d

/-- The time-transfer field of a good overhead, frame i of the far end's multiframe: of the two copies of a record the first good one is
used (R333). -/
def Dev.ttTake (d : Dev) (k sc i mfc : Nat) (b : List Byte) : Dev :=
  let r := i % 128
  let s := (d.time.tt k).scs.get (fun _ => {}) sc
  if r = 0 ∨ 3 < r ∨ s.took.get (fun _ => none) r = some mfc then d else
  (d.modTt k fun x => { x with scs := x.scs.modify (fun _ => {}) sc fun s =>
    { s with took := s.took.set (fun _ => none) r (some mfc) } }).ttRecord k sc b

/-- The class term of the receive counts, in TC (R167). -/
def classTerm (c : Nat) : Nat := if c = 0 then 96 else if c = 1 then 384 else if c = 2 then 1152 else 2304

/-- An instant at the aligner, as it was at the ADC sample register, in 10^-15 TC: receive stages 1 to 3 earlier, with the term of the
dispersion class in force (R28, R327, R539). -/
def Dev.adcTotal (d : Dev) (cnt cfr : Nat) : Int :=
  d.tcTotal cnt + (cfr * d.tcRate / 65536 : Nat) - ((96 + 128 + classTerm d.line.cls + 320) * 1000000000000000 : Nat)

/-- That instant as a counter value and fraction. -/
def Dev.atAdc (d : Dev) (cnt cfr : Nat) : Nat × Nat := d.tcInstant (d.adcTotal cnt cfr).toNat

/-- From a boundary at the framer to the last register before the DAC, in 10^-15 TC (R545). -/
def txStages : Nat := 332 * 1000000000000000

/-- A stamp lies in a frame in which the class changed at counter value c: no exchange uses it (R28, R171, R335) (DESIGN CHOICE,
assumption 200). -/
def TtStamp.mark (c : Nat) (s : TtStamp) : TtStamp := if s.start ≤ c ∧ c < s.start + usCycles 10 then { s with clean := false } else s

/-- A stamp as it is taken. -/
def Dev.newStamp (d : Dev) (mfc cnt cfr start : Nat) : TtStamp :=
  let s : TtStamp := ⟨mfc, d.time.timeAt cnt cfr, start, true⟩
  match d.line.clsAt with
  | some c => s.mark c
  | none => s

/-- The class changes now: the stamps of the frames in progress are marked (R28, R335). -/
def Dev.ttClass (d : Dev) : Dev :=
  d.modTt 0 fun x => { x with scs := x.scs.mapVals (fun _ => {}) fun y =>
    { y with deps := y.deps.map (TtStamp.mark d.now), arr := y.arr.map (TtStamp.mark d.now) } }

/-- A departure of this device's frame with k = 0; the last 8 are kept (R335) (DEDUCED, assumption 67). -/
def Dev.ttDepart (d : Dev) (k sc : Nat) (s : TtStamp) : Dev :=
  d.modTt k fun x => { x with scs := x.scs.modify (fun _ => {}) sc fun y => { y with deps := (s :: y.deps).take 8 } }

/-- The arrival of a far frame with k = 0 on a subcarrier. -/
def Dev.ttArrive (d : Dev) (k sc : Nat) (s : TtStamp) : Dev :=
  d.modTt k fun x => { x with scs := x.scs.modify (fun _ => {}) sc fun y => { y with arr := (s :: y.arr).take 8 } }

/-- The asymmetry a in ps (R336): `d2` is twice D; with a reference frequency of 0 the wavelength has no value, and the free
value `w` stands for the term (DESIGN CHOICE, assumption 68). -/
def asymmetry (set d2 : Int) (fibre : Bool) (fl ff : Nat) (w : Int) : Int :=
  if !fibre then set
  else if fl = 0 ∨ ff = 0 then set + w
  else set + roundDiv (d2 * 299792458000 * ((ff : Int) - fl)) (2 * fl * ff)

/-- A subcarrier has a type 2 record, since it was last used, that names one of the last 8 departures (R335) (DESIGN CHOICE, assumption 68). -/
def TtSc.meets (s : TtSc) : Bool := s.fresh && s.farArr.any fun a => s.deps.any (·.mfc == a.1)

/-- A usable exchange of a subcarrier: t1 to t4 without fixes, and whether it must be discarded for a class change (R335) (DESIGN CHOICE, assumption 68). -/
def TtSt.exchange (x : TtSt) (sc : Nat) : Option ((Int × Int × Int × Int) × Bool) :=
  let s := x.scs.get (fun _ => {}) sc
  match s.farArr, s.farDep with
  | some a, some b =>
    if !s.fresh then none else
    (s.deps.find? (·.mfc == a.1)).bind fun t1 => (s.arr.find? (·.mfc == b.1)).map fun t4 =>
      ((t1.time, (a.2 : Int), (b.2 : Int), t4.time), !(t1.clean && t4.clean))
  | _, _ => none

/-- A result of a link: the offset is the mean of the last 2^`TT_AVG` (R335). -/
def Dev.ttResult (d : Dev) (k sc : Nat) (theta delay a : Int) : Dev :=
  let x := d.time.tt k
  let rs := (theta :: x.results).take (2 ^ x.avg)
  let was := x.valid
  let d := d.modTt k fun x => { x with
    results := rs, offset := rs.sum / rs.length, delay := delay, asym := a, sc := sc, used := (x.used + 1) % 2 ^ 32,
    lastUsed := d.now, valid := true, scs := x.scs.modify (fun _ => {}) sc fun s => { s with fresh := false } }
  if was then d else d.raiseAt .ttValid (ttPatch k) (if k = 1 then 0x80 else sc)

/-- An exchange is discarded, or none was usable, for a reason (R335, R343). -/
def Dev.ttNone (d : Dev) (k : Nat) (reason : Nat) (count : Bool) : Dev :=
  d.modTt k fun x => { x with reason := reason, discarded := if count then (x.discarded + 1) % 2 ^ 32 else x.discarded }

/-- Once a multiframe, between equal ends: point-to-point devices and siblings (R335, R338). `scs` are the subcarriers that
are in frame with their phase known; `cd` is this device's `CD_APPLIED` in ps/nm. -/
def Dev.ttPair (d : Dev) (k : Nat) (scs : List Nat) (cd : Int) : Dev :=
  let x := d.time.tt k
  if !x.en then d else
  match (scs.find? fun sc => (x.scs.get (fun _ => {}) sc).meets).bind fun sc => (x.exchange sc).map fun e => (sc, e), x.far with
  | some (sc, (t1, t2, t3, t4), dirty), some far =>
    if dirty then d.ttNone k 1 true
    else if k = 0 ∧ far.fibre ≠ x.fibre then d.ttNone k 2 true
    else
      let (w, d) := if k = 0 ∧ x.fibre ∧ (x.rxRef = 0 ∨ far.rxRef = 0) then d.draw else (0, d)
      let a := asymmetry x.asymSet (cd + far.cdRx) (k = 0 && x.fibre) x.rxRef far.rxRef w
      let t1 := t1 + ps16 (x.txFix k)
      let t2 := t2 - ps16 (if k = 0 then far.rxFix else 0)
      let t3 := t3 + ps16 (if k = 0 then far.txFix else 0)
      let t4 := t4 - ps16 (x.rxFix k)
      d.ttResult k sc (((t4 - t3) - (t2 - t1) - ps16 a).tdiv 2) (((t2 - t1) + (t4 - t3)).tdiv 2) a
  | _, _ => d.ttNone k 1 false

/-- The offset of a link is no longer valid. -/
def Dev.ttInvalid (d : Dev) (k : Nat) : Dev :=
  let r := (d.time.tt k).reason
  (d.modTt k fun x => { x with valid := false, results := [] }).raiseAt .ttInvalid (ttPatch k) r

/-- Once a multiframe at a leaf: from the hub's departure and the leaf's arrival of it on the home subcarrier, with the `RTD`
of the last record since it became `ACTIVE`, without which the offset is invalid (R337) (DESIGN CHOICE, assumption 69). -/
def Dev.ttLeaf (d : Dev) (sc : Nat) (rtd : Option Int) (cd : Int) : Dev :=
  let x := d.time.line
  let s := x.scs.get (fun _ => {}) sc
  if !x.en then d else
  match rtd, x.far, s.farDep with
  | some rtd, some far, some dep =>
    match s.arr.find? (·.mfc == dep.1) with
    | none => d.ttNone 0 1 false
    | some arr =>
      if !arr.clean then d.ttNone 0 1 true
      else if far.fibre ≠ x.fibre then d.ttNone 0 2 true
      else
        let (w, d) := if x.fibre ∧ (x.rxRef = 0 ∨ far.rxRef = 0) then d.draw else (0, d)
        let a := asymmetry x.asymSet (2 * cd) x.fibre x.rxRef far.rxRef w
        let rtt := (rtd * 1000).tdiv 70 - (far.txFix + far.rxFix + x.txFix 0 + x.rxFix 0)
        let down := (rtt + a).tdiv 2
        let theta := (arr.time - ps16 (x.rxFix 0)) - (dep.2 + ps16 far.txFix + ps16 down)
        d.ttResult 0 sc theta ((ps16 rtt).tdiv 2) a
  | none, _, _ =>
    let d := d.ttNone 0 3 false
    if d.time.line.valid then d.ttInvalid 0 else d
  | _, _, _ => d.ttNone 0 1 false

/-- TT_OFFSET_INVALID: 8 multiframes of 2.56 ms without a usable exchange (R335). -/
def execTtOffsetInvalid (stitch : Bool) (s : State) : Host.Outcome State Fault Refusal :=
  s.run fun d =>
    let k := b2n stitch
    let x := d.time.tt k
    if x.valid then (d.at (x.lastUsed + 8 * 256 * 250)).ttInvalid k else d

/-! ### The other verbs -/

/-- TIME.LINK_SET (R340). -/
def verbTimeLinkSet : Verb where
  code := 0x2010
  role := .operator
  len := 24
  params := [⟨0, 0, 32, .patch [(.line, 0, 0), (.stitchLane, 0, 0)]⟩, ⟨4, 2, 6, .rsv⟩, ⟨5, 3, 5, .rsv⟩,
    ⟨6, 0, 16, .rsv⟩, ⟨22, 0, 16, .rsv⟩]
  ranges := fun c =>
    let f := c.p 8 0 32
    decide (6 < c.p 5 0 3 ∨ (c.cls ≠ .stitchLane ∧ (f < 184000000 ∨ 200000000 < f)) ∨ 10000000 < c.p 12 0 24 ∨ 10000000 < c.p 15 0 24 ∨
      1000000 < (c.ps 18 0 32).natAbs)

/-- What `st[0]` must leave zero (R340). -/
def timeLinkCheck (c : Call) (_ : Dev) (_ : Nat) : Option Status :=
  if c.cls = .stitchLane ∧ (c.p 4 1 1 ≠ 0 ∨ c.p 8 0 32 ≠ 0 ∨ c.p 12 0 24 ≠ 0 ∨ c.p 15 0 24 ≠ 0) then some .badParameter else none

/-- The fields of `TIME.LINK_SET`. -/
def timeLinkVals (c : Call) (_ : Dev) (_ : Nat) : List FieldVal :=
  let k := if c.cls = .line then 0 else 1
  [fv .ttEn k (c.p 4 0 1) 1, fv .ttFibre k (c.p 4 1 1) 1, fv .ttAvg k (c.p 5 0 3) 3, fv .rxRefMhz k (c.p 8 0 32),
    fv .txExtPs k (c.p 12 0 24) 24, fv .rxExtPs k (c.p 15 0 24) 24, fv .asymPs k (c.p 18 0 32)]

/-- The meaning of `TIME.LINK_SET`. -/
def bodyTimeLinkSet : Body := stageEach timeLinkCheck timeLinkVals

/-- TIME_LINK_SET (R340). -/
def execTimeLinkSet (c : HostCall) (s : State) : Host.Outcome State Fault Refusal := runVerb verbTimeLinkSet bodyTimeLinkSet c s

/-- TIME.PORT_SET (R341). -/
def verbTimePortSet : Verb where
  code := 0x2011
  role := .operator
  len := 12
  groups := true
  params := [⟨0, 0, 32, .patch [(.port, 0, 15)]⟩, ⟨4, 0, 32, .srange (-1000000) 1000000⟩,
    ⟨8, 0, 32, .srange (-1000000) 1000000⟩]

/-- The meaning of `TIME.PORT_SET`. -/
def bodyTimePortSet : Body := stageEach (fun _ _ _ => none) fun c _ i =>
  [fv .portRxDelay i (c.p 4 0 32), fv .portTxDelay i (c.p 8 0 32)]

/-- TIME_PORT_SET (R341). -/
def execTimePortSet (c : HostCall) (s : State) : Host.Outcome State Fault Refusal := runVerb verbTimePortSet bodyTimePortSet c s

/-- TIME.TT_STATUS (R342). -/
def verbTimeTtStatus : Verb where
  code := 0x2012
  role := .observer
  len := 4
  params := [⟨0, 0, 32, .patch [(.line, 0, 0), (.stitchLane, 0, 0)]⟩]

/-- The results of `TIME.TT_STATUS`. -/
def ttFields (x : TtSt) : Res :=
  res 34 [at' 0 0 1 (b2n x.valid), at' 0 1 1 (b2n ((x.far.map (·.timeValid)).getD false)), at' 1 0 5 x.sc, fieldAtS 2 64 x.offset,
    fieldAtS 10 64 x.delay, fieldAtS 18 32 x.asym, fieldAt 22 32 x.used, fieldAt 26 32 x.discarded, fieldAt 30 32 x.rtt]

/-- The meaning of `TIME.TT_STATUS`. -/
def bodyTimeTtStatus : Body := onView fun c v => .now .ok (ttFields (v.time.tt (if c.cls = .line then 0 else 1)))

/-- TIME_TT_STATUS (R342). -/
def execTimeTtStatus (c : HostCall) (s : State) : Host.Outcome State Fault Refusal :=
  runVerb verbTimeTtStatus bodyTimeTtStatus c s

/-- TIME.PORT_STATUS (R342). -/
def verbTimePortStatus : Verb where
  code := 0x2013
  role := .observer
  len := 4
  groups := true
  reads := true
  params := [⟨0, 0, 32, .patch [(.port, 0, 15)]⟩]

/-- The result fields of a port's stamp counters. -/
def stampFields (x : StampCnt) : List RField :=
  [rf .sum 0 0 32 x.tx, rf .sum 4 0 32 x.rx, rf .sum 8 0 32 x.fallback, rf .sum 12 0 32 x.unstamped]

/-- The meaning of `TIME.PORT_STATUS`. -/
def bodyTimePortStatus : Body := readEach 16 fun _ v i => some (stampFields (v.time.stamps.get (fun _ => {}) i))

/-- TIME_PORT_STATUS (R342). -/
def execTimePortStatus (c : HostCall) (s : State) : Host.Outcome State Fault Refusal :=
  runVerb verbTimePortStatus bodyTimePortStatus c s

end Sys2Proof.Machine
end

