-- ==== Sys2Proof/Machine/Load.lean ====
section
/-! DEFINITION. Bit loading: shaping, plans, announcements, SNR and the planner (R132 to R160). -/

namespace Sys2Proof.Machine

/-! ### Access to subcarriers -/

/-- A subcarrier tile's state. -/
def Dev.sc (d : Dev) (n : Nat) : ScSt := d.scs.get (fun _ => {}) n

/-- Change a subcarrier tile's state. -/
def Dev.modSc (d : Dev) (n : Nat) (f : ScSt → ScSt) : Dev := { d with scs := d.scs.modify (fun _ => {}) n f }

/-- Change the transmit side. -/
def Dev.modTx (d : Dev) (n : Nat) (f : TxSt → TxSt) : Dev := d.modSc n fun s => { s with tx := f s.tx }

/-- Change the receive plan side. -/
def Dev.modRx (d : Dev) (n : Nat) (f : RxSt → RxSt) : Dev := d.modSc n fun s => { s with rx := f s.rx }

/-- Raise an event about a subcarrier. -/
def Dev.raiseSc (d : Dev) (ev : Ev) (n info : Nat) : Dev := d.raiseAt ev ⟨.subcarrier, n⟩ info

/-- The subcarriers whose tiles run, ascending. -/
def Dev.liveScs (d : Dev) : List Nat := (List.range 32).filter fun n => d.runs (.sc n)

/-! ### Shaping and capacity (R140 to R145, R154) -/

/-- The base m of an `H_CODE`: 4 or 6 (R140). -/
def baseM (h : Nat) : Nat := if h ≤ 32 then 4 else 6

/-- The composition of 512 amplitudes 1, 3, 5, 7 for each `H_CODE` 0 to 64: of those with floor(log2(512! / ∏ n_a!)) at least
16 × `H_CODE`, the one of least energy; the uniform one in bypass (R141, R142). -/
def shapeTable : List (Nat × Nat × Nat × Nat) :=
  [(512, 0, 0, 0), (510, 2, 0, 0), (507, 5, 0, 0), (505, 7, 0, 0), (502, 10, 0, 0), (499, 13, 0, 0),
    (496, 16, 0, 0), (493, 19, 0, 0), (489, 23, 0, 0), (486, 26, 0, 0), (482, 30, 0, 0), (478, 34, 0, 0),
    (473, 39, 0, 0), (469, 43, 0, 0), (464, 48, 0, 0), (459, 53, 0, 0), (454, 58, 0, 0), (448, 64, 0, 0),
    (442, 70, 0, 0), (436, 76, 0, 0), (430, 82, 0, 0), (423, 89, 0, 0), (415, 97, 0, 0), (408, 104, 0, 0),
    (399, 113, 0, 0), (390, 122, 0, 0), (380, 132, 0, 0), (369, 143, 0, 0), (357, 155, 0, 0), (342, 170, 0, 0),
    (325, 187, 0, 0), (300, 212, 0, 0), (256, 256, 0, 0), (360, 133, 18, 1), (358, 130, 23, 1), (352, 133, 26, 1),
    (348, 134, 28, 2), (341, 138, 31, 2), (336, 140, 33, 3), (329, 145, 34, 4), (322, 148, 38, 4), (318, 149, 39, 6),
    (308, 156, 42, 6), (307, 150, 48, 7), (301, 153, 49, 9), (295, 154, 53, 10), (289, 156, 55, 12), (283, 156, 60, 13),
    (275, 160, 62, 15), (268, 162, 65, 17), (264, 160, 68, 20), (256, 162, 72, 22), (251, 160, 76, 25), (242, 162, 81, 27),
    (236, 161, 84, 31), (228, 162, 87, 35), (222, 160, 90, 40), (212, 161, 95, 44), (205, 158, 99, 50), (196, 157, 102, 57),
    (187, 152, 109, 64), (178, 147, 112, 75), (163, 144, 117, 88), (140, 134, 126, 112), (128, 128, 128, 128)]

/-- The composition of an `H_CODE`. -/
def composition (h : Nat) : Nat × Nat × Nat × Nat := shapeTable.getD h (0, 0, 0, 0)

/-- `SLOTS` of a plan: the payload 17.214e9 × H_NET − 409.6e6 b/s over 5 Gb/s (R144). -/
def slotsOf (h code : Nat) : Nat :=
  let net := 1600 + 50 * h - (if code = 0 then 112 else 160) * baseM h
  (21517500 * net - 409600000) / 5000000000

/-- The least `H_CODE` that carries k slots (R145). -/
def minHCode (code k : Nat) : Option Nat := (List.range 65).find? fun h => slotsOf h code == k

/-- 10 log10(2^H − 1) for each `H_CODE`, to the nearest 0.01 dB (R154). -/
def snrBase : List Nat :=
  [477, 502, 527, 551, 575, 599, 622, 645, 668, 691, 713, 736, 758, 780, 802, 824,
    845, 867, 888, 909, 930, 951, 972, 993, 1013, 1034, 1055, 1075, 1095, 1116, 1136, 1156,
    1176, 1196, 1216, 1236, 1256, 1276, 1296, 1315, 1335, 1355, 1374, 1394, 1413, 1433, 1452, 1472,
    1491, 1511, 1530, 1550, 1569, 1588, 1607, 1627, 1646, 1665, 1684, 1704, 1723, 1742, 1761, 1780,
    1799]

/-- `SNR_REQ` in 0.01 dB (R154). -/
def Dev.snrReq (d : Dev) (h code : Nat) (fast : Bool) : Int :=
  (snrBase.getD h 0 : Int) + (if code = 0 then d.conf .gapStd else d.conf .gapLong) +
  signed 16 (d.conf .corr (65 * code + h)) + (if fast then (d.conf .fastPenalty : Int) else 0)

/-! ### LOAD.PLAN -/

/-- LOAD.PLAN (R146). -/
def verbLoadPlan : Verb where
  code := 0x1201
  role := .operator
  len := 6
  groups := true
  params := [⟨0, 0, 32, .patch [(.subcarrier, 0, 31)]⟩, ⟨4, 0, 7, .range 0 64⟩, ⟨4, 7, 1, .rsv⟩, ⟨5, 1, 7, .rsv⟩]

/-- A time-shared upstream has no plan of its own; the tile must run or be waking (R26, R146, R281) (DEDUCED, assumption 81). -/
def loadPlanCheck (_ : Call) (d : Dev) (n : Nat) : Option Status :=
  if d.txShared n || d.lacks (.sc n) then some .state else none

/-- The meaning of `LOAD.PLAN`. -/
def bodyLoadPlan : Body := stageEach loadPlanCheck fun c _ n => [fv .planH n (c.p 4 0 7) 7, fv .planCode n (c.p 5 0 1) 1]

/-- LOAD_PLAN (R146). -/
def execLoadPlan (c : HostCall) (s : State) : Host.Outcome State Fault Refusal := runVerb verbLoadPlan bodyLoadPlan c s

/-! ### What a commit does here -/

/-- A slot map's entries without trailing unused positions. -/
def trimMap (l : List Nat) : List Nat := (l.reverse.dropWhile (· == 0)).reverse

/-- The slot map staged for a subcarrier. -/
def stagedMap (es : List Entry) (n : Nat) : Option (List Nat) :=
  if (staged? es .mapEntry (17 * n)).isSome then
    some (trimMap ((List.range 17).map fun p => (staged? es .mapEntry (17 * n + p)).getD 0))
  else none

/-- The container that an entry's position carries (R227). -/
def entryCont (e : Nat) : Option Nat := if bit e 15 then some (bits e 0 10) else none

/-- The containers of a map, without repeats. -/
def mapConts (l : List Nat) : List Nat := (l.filterMap entryCont).eraseDups

/-- The map that a subcarrier transmits once nothing is pending. -/
def TxSt.target (t : TxSt) : List Nat :=
  match t.pend with
  | some p => p.1.map.getD []
  | none => (if t.state = .steady then t.plan.map else t.next.map).getD []

/-- An announcement is in progress or waits to start (R147). -/
def TxSt.busy (t : TxSt) : Bool := t.state != .steady || t.pend.isSome

/-- The slot map that a commit leaves a subcarrier to transmit. -/
def Dev.mapAfter (d : Dev) (es : List Entry) (n : Nat) : List Nat :=
  (stagedMap es n).getD (if d.runs (.sc n) then (d.sc n).tx.target else [])

/-- A container carries the copies of a transmit group: its chunks come from the group (R268). -/
def Dev.isCopy (d : Dev) (c : Nat) : Bool :=
  (List.range 80).any fun g => d.conf .grpEn (2 * g) == 1 && d.conf .grpStitch (2 * g) == 0 && d.conf .grpP (2 * g) == c

/-- The maps that a commit leaves in use: what a subcarrier transmits or is to transmit, where the commit gives it no other, and what is
staged by any session or waits in an accepted commit (R243). -/
def Dev.mapsLeft (d : Dev) (es : List Entry) : List Nat :=
  (List.range 32).flatMap fun n =>
    let t := (d.sc n).tx
    (if (stagedMap es n).isNone && d.runs (.sc n) then t.plan.map.getD [] ++ t.target else []) ++
    (d.basting.flatMap fun e => ((stagedMap [e] n).getD []))

/-- Validation of plans, slot maps and container bindings; the line container of a transmit group's P needs none (R27, R147, R242, R243,
R268). -/
def validateLoad (d new : Dev) (es : List Entry) : Option Status :=
  let plans := (List.range 32).filter fun n => (staged? es .planH n).isSome
  let maps := (List.range 32).filter fun n => (stagedMap es n).isSome
  let after := (List.range 32).map (d.mapAfter es)
  let slots := fun n => slotsOf ((staged? es .planH n).getD 0) ((staged? es .planCode n).getD 0)
  let all := after.flatMap mapConts
  let touched := !maps.isEmpty || !(stagedAll es .contBind).isEmpty
  firstOf [
    (plans != maps, .badParameter),
    (maps.any fun n => decide (((stagedMap es n).getD []).length > slots n), .loadSlots),
    (plans.any fun n => (d.sc n).tx.busy, .loadBusy),
    (!maps.isEmpty && all.length != all.eraseDups.length, .containerSplit),
    ((stagedAll es .contBind).any (fun e => e.1 % 2 == 0 && e.2 == 0 && d.conf .contBind e.1 != 0 &&
      (mapConts (d.mapsLeft es)).contains (e.1 / 2) && !new.isCopy (e.1 / 2)), .containerUndefined),
    (touched && all.any (fun c => new.conf .contBind (2 * c) == 0 && !new.isCopy c), .containerUndefined)]

/-- The subcarriers whose plan or slot map a commit changes. -/
def Dev.loadChanges (d : Dev) (es : List Entry) : List Nat :=
  (List.range 32).filter fun n =>
    match staged? es .planH n, stagedMap es n with
    | some h, some m =>
      let p := (d.sc n).tx.plan
      !(h == p.h && (staged? es .planCode n).getD 0 == p.code && m == p.map.getD [])
    | _, _ => false

/-- A commit's loading changes wait for their transmit multiframe boundaries; a plan and map equal to those in force need no
announcement (R147, R150). Answers the subcarriers that will announce. -/
def Dev.loadCommit (d : Dev) (id : Nat) (es : List Entry) : List Nat × Dev :=
  let l := d.loadChanges es
  let d := l.foldl (fun d n => d.modTx n fun t => { t with
    pend := some (⟨(t.plan.id + 1) % 16, (staged? es .planH n).getD 0, (staged? es .planCode n).getD 0, stagedMap es n⟩, id) }) d
  (l, d.modCommit id fun c => { c with loads := c.loads ++ l })

/-- The announcement of a part-way commit on a subcarrier has started, or will not (R75, R150). -/
def Dev.announceStarted (d : Dev) (id n : Nat) : Dev :=
  match d.commit? id with
  | some c => match c.phase with
    | .partway rx tx => if tx.contains n then d.commitProgress id rx (tx.filter (· != n)) else d
    | _ => d
  | none => d

/-- A pending or announced change of a subcarrier is dropped with a status (R150). -/
def Dev.loadDrop (d : Dev) (n : Nat) (st : Status) : Dev :=
  let t := (d.sc n).tx
  let d := d.modTx n fun t => { t with state := .steady, pend := none, next := t.plan, retries := 0 }
  let d := match t.pend with
    | some p => (d.announceStarted p.2 n).loadOver p.2 n st
    | none => d
  if t.state = .steady then d else d.loadOver t.commit n st

/-! ### Announcing (R148 to R151) -/

/-- The `INFO` of a plan (R159). -/
def Plan.info (p : Plan) : Nat := p.id % 16 + 16 * (p.h % 128) + 2048 * (p.code % 2)

/-- k and `MFC` of the transmit frame of a device frame number (R225). -/
def TxSt.frameAt (t : TxSt) (no : Nat) : Nat × Nat :=
  let f := no - t.start + t.first
  (f % 256, f / 256 % 2 ^ 24)

/-- A facility loopback ends by itself (R240). -/
def Dev.endFacility (d : Dev) (n why : Nat) : Dev :=
  if d.conf .loopMode (1 + n) = 0 then d else
  ((d.setConf .loopMode (1 + n) 0).modSc n fun s => { s with fr := { s.fr with loop := [] } }).raiseSc .loopbackEnded n why

/-- The transmit and receive slot counts of a subcarrier differ. -/
def ScSt.slotsDiffer (s : ScSt) : Bool :=
  match s.rx.plan with
  | some p => slotsOf p.h p.code != slotsOf s.tx.plan.h s.tx.plan.code
  | none => false

/-- After a plan switch: a facility loopback whose slot counts now differ ends (R240). -/
def Dev.checkFacility (d : Dev) (n : Nat) : Dev := if (d.sc n).slotsDiffer then d.endFacility n 1 else d

/-- One step of the announcement at a transmit multiframe boundary (R150). -/
def Dev.announceStep (d : Dev) (n : Nat) : Dev :=
  let t := (d.sc n).tx
  let wait := d.role == .p2p && d.conf .ackWait == 1
  match t.state with
  | .steady =>
    match t.pend with
    | none => d
    | some (p, id) =>
      ((d.modTx n fun t => { t with state := .announce, next := p, pend := none, commit := id, retries := 0, seen := false }).raiseSc
        .loadAnnounced n p.info).announceStarted id n
  | .announce =>
    if !wait || t.seen then d.modTx n fun t => { t with state := .final, seen := false }
    else if t.retries < d.conf .annRetry then d.modTx n fun t => { t with retries := t.retries + 1, seen := false }
    else (d.modTx n fun t => { t with state := .final, seen := false }).raiseSc .loadNotSeen n t.retries
  | .final =>
    let d := d.modTx n fun t => { t with state := .steady, plan := t.next, retries := 0 }
    ((d.raiseSc .loadSwitched n t.next.info).checkFacility n).loadOver t.commit n .ok

/-- The loading field that a subcarrier sends (R149): its own receiver's plan, what it has seen, and its SNR report. -/
def loadField (s : ScSt) (report : Nat) : List Byte :=
  let t := s.tx
  let ann := t.state != .steady
  let nx := if ann then t.next else t.plan
  let rx := (s.rx.plan.map (·.id)).getD 0
  beBytes 1 (t.plan.id % 16 * 16 + nx.id % 16) ++ beBytes 1 (b2n ann * 128 + nx.h) ++
  beBytes 1 ((match t.state with | .steady => 0 | .announce => 2 | .final => 1) * 64 + nx.code * 32 + slotsOf nx.h nx.code) ++
  beBytes 1 (rx % 16 * 16 + s.rx.seen % 16) ++ beBytes 2 report ++ beBytes 1 (t.plan.code * 128 + t.plan.h) ++ beBytes 1 0

/-! ### Receiving (R151, R152) -/

/-- The receiver takes a plan into force: the long code under fast mode is reported (R208). -/
def Dev.rxSwitch (d : Dev) (n : Nat) (p : Plan) : Dev :=
  let d := (d.modRx n fun r => { r with plan := some p, state := .steady }).checkFacility n
  if p.code = 1 ∧ d.conf .fecFast n = 1 then d.raiseSc .fecFastLong n p.h else d

/-- The map stored for a plan identifier. -/
def RxSt.mapOf (r : RxSt) (id : Nat) : Option (List Nat) := (r.maps.find? (·.1 == id)).map (·.2)

/-- The loading field of a good overhead (R149, R151): reports taken in, and an announcement followed or found wrong (DESIGN CHOICE, assumption 80). -/
def Dev.rxLoading (d : Dev) (n : Nat) (b : List Byte) : Dev :=
  let f := fun i => (b.getD i 0).toNat
  let next := f 0 % 16
  let ann := bit (f 1) 7
  let h := f 1 % 128
  let cnt := bits (f 2) 6 2
  let code := bits (f 2) 5 1
  let slots := f 2 % 32
  let rep := beNat (slice b 4 2)
  let d := d.modSc n fun s => { s with
    rx := { s.rx with report := rep },
    tx := { s.tx with seen := s.tx.seen || (s.tx.state == .announce && f 3 % 16 == s.tx.next.id % 16) } }
  if !ann then d
  else if h > 64 ∨ slots ≠ slotsOf h code then d.raiseSc .loadAnnError n (h + 128 * slots)
  else
    let r := (d.sc n).rx
    let p : Plan := ⟨next, h, code, r.mapOf next⟩
    let known := r.plan.any (fun x => x.id == next)
    match r.state with
    | .steady => if known then d else d.modRx n fun r => { r with shadow := p, seen := next, state := .pending }
    | .pending =>
      if r.shadow.id ≠ next then d.modRx n fun r => { r with shadow := p, seen := next }
      else if cnt = 1 then d.modRx n fun r => { r with state := .armed } else d
    | .armed => d

/-- The plan that a beacon names, none where its check fails (R136) (DESIGN CHOICE, assumption 80). -/
def beaconPlan (v : Nat) : Option Plan :=
  if (bits v 12 4 ^^^ bits v 8 4 ^^^ bits v 4 4) = bits v 0 4 then some { id := bits v 12 4, h := bits v 5 7, code := bits v 4 1 }
  else none

/-- The 16 bits of the beacon of a plan (R136). -/
def beaconBits (p : Plan) : Nat :=
  let v := p.id % 16 * 4096 + p.h % 128 * 32 + p.code % 2 * 16
  v + (bits v 12 4 ^^^ bits v 8 4 ^^^ bits v 4 4)

/-- The beacon of a received frame, whose plan counts from the next frame on: where no plan is held it gives the plan; two alike in
succession that name another plan are adopted (R151, R152) (DESIGN CHOICE, assumption 90). -/
def Dev.rxBeacon (d : Dev) (n v : Nat) : Dev :=
  let r := (d.sc n).rx
  match beaconPlan v with
  | none => d.modRx n fun r => { r with beacon := none }
  | some b =>
    let map := if r.shadow.id = b.id ∧ r.state ≠ .steady then (r.mapOf b.id).orElse (fun _ => r.shadow.map) else r.mapOf b.id
    let p : Plan := { b with map := map }
    match r.plan with
    | none => (d.modRx n fun r => { r with beacon := some v }).rxSwitch n p
    | some q =>
      if q.id = b.id ∧ q.h = b.h ∧ q.code = b.code then d.modRx n fun r => { r with beacon := some v }
      else if r.beacon = some v then
        ((d.modRx n fun r => { r with beacon := some v, missed := (r.missed + 1) % 2 ^ 32, lost := (r.lost + 2) % 2 ^ 32 }).rxSwitch n
          p).raiseSc .loadMissed n 2
      else d.modRx n fun r => { r with beacon := some v }

/-- A received multiframe boundary switches an armed plan (R151). -/
def Dev.rxArmed (d : Dev) (n : Nat) : Dev :=
  let r := (d.sc n).rx
  if r.state = .armed then
    let p := { r.shadow with map := (r.mapOf r.shadow.id).orElse fun _ => r.shadow.map }
    (d.rxSwitch n p).raiseSc .loadRxSwitched n p.info
  else d

/-! ### SNR and margin (R137, R155) -/

/-- An exponential average with time constant 2^s of values in 0.01 dB, in 2^-20 of it; the first value starts it (R137) (DESIGN CHOICE, assumption 77). -/
def smoothStep (old : Option Nat) (v s : Nat) : Nat :=
  match old with
  | none => v * 2 ^ 20
  | some a => ((a : Int) + ((v * 2 ^ 20 : Nat) - (a : Int)) / (2 ^ s : Nat)).toNat

/-- The smoothed value in 0.01 dB (DESIGN CHOICE, assumption 77). -/
def smoothVal (a : Option Nat) : Nat := a.getD 0 / 2 ^ 20

/-- The receive margin of a subcarrier in 0.01 dB (R155); its receive plan before any is known counts as plan 0. -/
def Dev.rxMargin (d : Dev) (n : Nat) : Int :=
  let s := d.sc n
  let p := s.rx.plan.getD {}
  (smoothVal s.snr.smooth : Int) - d.snrReq p.h p.code (d.conf .fecFast n == 1)

/-- A power ratio in 0.01 dB to the nearest, saturated to 0 to 30 dB (R137). -/
def db100 (x : Nat × Nat) : Nat :=
  if x.1 ≤ x.2 then 0 else if x.1 ≥ 1000 * x.2 then 3000 else (log10Floor (x.1 ^ 2000 / x.2 ^ 2000) 13 0 + 1) / 2

/-- The power of least-squares-scaled pilots over that of the error, as a fraction, the known pilots having unit power (R137). -/
def PilotSum.ratio (p : PilotSum) : Nat × Nat :=
  let s := p.s.re.natAbs ^ 2 + p.s.im.natAbs ^ 2
  (s, p.n * 2 ^ 32 * p.e - s)

/-- The combination 2 / (1/x + 1/y) of two ratios (R137). -/
def combined (x y : Nat × Nat) : Nat × Nat := (2 * x.1 * y.1, x.2 * y.1 + x.1 * y.2)

/-- A multiframe's SNR estimates from its pilots, valid where convergence and frame were held throughout, and the margin alarm (R137,
R155). -/
def Dev.snrMultiframe (d : Dev) (n : Nat) : Dev :=
  let s := d.sc n
  let valid := s.snr.whole && s.fr.state == .inFrame && s.eq.state == .track && decide (0 < s.snr.sumX.n)
  let rx := s.snr.sumX.ratio
  let ry := s.snr.sumY.ratio
  let v := db100 (combined rx ry)
  let x := s.snr
  let far := s.rx.report
  let d := d.modSc n fun s => { s with
    snr := { s.snr with
      snr := v, x := db100 rx, y := db100 ry, valid := valid, sumX := {}, sumY := {},
      whole := s.fr.state == .inFrame && s.eq.state == .track,
      smooth := if valid then some (smoothStep x.smooth v (d.conf .smooth)) else x.smooth,
      min := if valid then some (min v (x.min.getD 3000)) else x.min },
    rx := { s.rx with smooth := if far ≤ 3000 then some (smoothStep s.rx.smooth far (d.conf .smooth)) else s.rx.smooth } }
  let mg := d.rxMargin n
  let floor : Int := d.conf .loadFloor
  if (d.sc n).snr.smooth.isNone then d
  else if mg < floor then
    let d' := d.modSc n fun s => { s with snr := { s.snr with low := true, above := 0 } }
    if x.low then d' else d'.raiseSc .loadMarginLow n (unsigned 16 mg)
  else if x.low then
    let k := if mg > floor + 30 then x.above + 1 else 0
    if k ≥ 8 then
      (d.modSc n fun s => { s with snr := { s.snr with low := false, above := 0 } }).raiseSc .loadMarginOk n (unsigned 16 mg)
    else d.modSc n fun s => { s with snr := { s.snr with above := k } }
  else d

/-! ### The other verbs -/

/-- LOAD.SNR_READ (R139). -/
def verbLoadSnrRead : Verb where
  code := 0x1202
  role := .observer
  len := 4
  groups := true
  reads := true
  params := [⟨0, 0, 32, .patch [(.subcarrier, 0, 31)]⟩]

/-- The result fields of a subcarrier's SNR (R139); without a valid value since the last read `SNR_MIN` is a free value (DESIGN CHOICE, assumption 78). -/
def snrFields (v : Dev) (w n : Nat) : List RField :=
  let x := (v.sc n).snr
  [rf .minU 0 0 16 x.snr, rf .minU 2 0 16 x.x, rf .minU 4 0 16 x.y, rf .minU 6 0 16 (smoothVal x.smooth),
    rf .minU 8 0 16 (x.min.getD (w % 3001)), rf .minS 10 0 16 (unsigned 16 (v.rxMargin n)),
    rf (.severe [0, 1]) 12 0 1 (b2n x.valid), rf (.severe [1, 0]) 12 1 1 (b2n x.low)]

/-- The meaning of `LOAD.SNR_READ`: the read resets `SNR_MIN` (DESIGN CHOICE, assumption 78). -/
def bodyLoadSnrRead : Body := fun c s =>
  let w := s.dev.draw
  let r := readEach 16 (fun _ v n => if v.runs (.sc n) then some (snrFields v w.1 n) else none) c { s with dev := w.2 }
  (r.1, { r.2 with dev := (c.insts r.2.dev).foldl (fun d n => d.modSc n fun x => { x with snr := { x.snr with min := none } }) r.2.dev })

/-- LOAD_SNR_READ (R139). -/
def execLoadSnrRead (c : HostCall) (s : State) : Host.Outcome State Fault Refusal := runVerb verbLoadSnrRead bodyLoadSnrRead c s

/-- LOAD.POLICY (R153) (DESIGN CHOICE, assumption 79). -/
def verbLoadPolicy : Verb where
  code := 0x1203
  role := .operator
  len := 12
  ext := .either
  size := .bytes 260
  shift := true
  params := [⟨0, 0, 16, .range 0 1000⟩, ⟨2, 0, 16, .range 0 600⟩, ⟨4, 0, 16, .range 0 600⟩, ⟨6, 0, 16, .range 0 1000⟩,
    ⟨8, 0, 3, .range 0 6⟩, ⟨8, 3, 5, .rsv⟩, ⟨9, 5, 3, .rsv⟩, ⟨10, 0, 8, .range 0 100⟩, ⟨11, 0, 8, .rsv⟩]

/-- LOAD_POLICY (R153): without a table every correction is 0. -/
def execLoadPolicy (c : HostCall) (s : State) : Host.Outcome State Fault Refusal :=
  runVerb verbLoadPolicy (stageOn ⟨.line, 0⟩ (fun _ _ => none)
    fun c _ =>
      [fv .loadMargin 0 (c.p 0 0 16) 16, fv .gapStd 0 (c.p 2 0 16) 16, fv .gapLong 0 (c.p 4 0 16) 16,
        fv .loadFloor 0 (c.p 6 0 16) 16, fv .smooth 0 (c.p 8 0 3) 3, fv .annRetry 0 (c.p 9 0 4) 4, fv .ackWait 0 (c.p 9 4 1) 1,
        fv .fastPenalty 0 (c.p 10 0 8) 8] ++
      (List.range 130).map fun k => fv .corr k (if c.ext then leNat (slice c.bytes (2 * k) 2) else 0) 16) c s

/-- LOAD.NARROW (R157). -/
def verbLoadNarrow : Verb where
  code := 0x1204
  role := .operator
  len := 8
  params := [⟨0, 5, 3, .rsv⟩, ⟨1, 0, 3, .range 1 4⟩, ⟨1, 3, 5, .rsv⟩, ⟨2, 5, 3, .rsv⟩, ⟨3, 0, 3, .range 1 4⟩, ⟨3, 3, 5, .rsv⟩,
    ⟨4, 0, 16, .srange (-15000) 15000⟩, ⟨6, 0, 16, .srange (-15000) 15000⟩]

/-- The largest laser offset from a group centre in MHz (R156). -/
def narrowLimit (count : Nat) : Nat := if count = 1 then 15000 else if count = 2 then 10500 else if count = 3 then 6000 else 1500

/-- What refuses `LOAD.NARROW` (R157). -/
def loadNarrowCheck (c : Call) (d : Dev) : Option Status :=
  firstOf [
    (d.role != .leaf, .state),
    (decide (c.p 0 0 5 + c.p 1 0 3 > 32 ∨ c.p 2 0 5 + c.p 3 0 3 > 32 ∨ (c.ps 4 0 16).natAbs > narrowLimit (c.p 1 0 3) ∨
      (c.ps 6 0 16).natAbs > narrowLimit (c.p 3 0 3)), .outOfRange)]

/-- LOAD_NARROW (R157). -/
def execLoadNarrow (c : HostCall) (s : State) : Host.Outcome State Fault Refusal :=
  runVerb verbLoadNarrow (stageOn ⟨.line, 0⟩ loadNarrowCheck fun c _ =>
    [fv .rxFirst 0 (c.p 0 0 5) 5, fv .rxCount 0 (c.p 1 0 3) 3, fv .txFirst 0 (c.p 2 0 5) 5, fv .txCount 0 (c.p 3 0 3) 3,
      fv .rxLo 0 (c.p 4 0 16) 16, fv .txLo 0 (c.p 6 0 16) 16]) c s

/-- LOAD.PROPOSE (R154). -/
def verbLoadPropose : Verb where
  code := 0x1205
  role := .observer
  len := 16
  ext := .always
  groups := true
  params := [⟨16, 0, 32, .patch [(.subcarrier, 0, 31)]⟩, ⟨20, 3, 5, .rsv⟩, ⟨21, 0, 88, .rsv⟩]

/-- The plan proposed for an SNR: `H_CODE`, slots, and whether even QPSK lies below the margin (R154) (DEDUCED, assumption 17). -/
def Dev.propose (v : Dev) (snr : Int) (code : Nat) (fast : Bool) : Nat × Nat × Bool :=
  let ks := (List.range 14).map fun i => 17 - i
  match ks.findSome? fun k => (minHCode code k).bind fun h =>
      if snr - v.snrReq h code fast ≥ v.conf .loadMargin then some (h, k) else none with
  | some (h, k) => (h, k, false)
  | none => (0, 4, true)

/-- One record of a proposal (R154); without a valid SNR the SNR and margin it shows are free values. -/
def Dev.proposeRecord (v : Dev) (w n code : Nat) (fast : Bool) (snr : Option Nat) : Nat × List Byte :=
  match snr with
  | some x =>
    let p := v.propose x code fast
    (p.2.1, leBytes 1 n ++ leBytes 1 p.1 ++ leBytes 1 (b2n p.2.2) ++ leBytes 1 p.2.1 ++ leBytes 2 x ++
      leBytes 2 (unsigned 16 ((x : Int) - v.snrReq p.1 code fast)))
  | none => (4, leBytes 1 n ++ leBytes 1 0 ++ leBytes 1 2 ++ leBytes 1 4 ++ leBytes 4 w)

/-- The smoothed report of the far end; on a hub the lowest among the leaves that receive the subcarrier (R154). -/
def Dev.farSmooth (v : Dev) (n : Nat) : Option Nat := if v.role = .hub then v.hubReport n else ((v.sc n).rx.smooth).map (· / 2 ^ 20)

/-- The meaning of `LOAD.PROPOSE` (DEDUCED, assumption 17). -/
def bodyLoadPropose : Body := fun c s =>
  let v := s.view c.slot
  let l := match c.patch 16 with
    | some r => v.localInstances r
    | none => []
  if c.extLen < 8 * l.length then (.now .outOfRange, s) else
  let w := s.dev.draw
  let rs := l.map fun n =>
    let snr := if c.p 20 2 1 = 1 then v.farSmooth n else if v.runs (.sc n) then ((v.sc n).snr.smooth).map (· / 2 ^ 20) else none
    v.proposeRecord w.1 n (c.p 20 0 1) (c.p 20 1 1 == 1) snr
  (.wrote (rs.flatMap (·.2)) (res 3 [fieldAt 0 16 (rs.map (·.1)).sum, fieldAt 2 8 l.length]), { s with dev := w.2 })

/-- LOAD_PROPOSE (R154). -/
def execLoadPropose (c : HostCall) (s : State) : Host.Outcome State Fault Refusal := runVerb verbLoadPropose bodyLoadPropose c s

/-- LOAD.STATUS (R158). -/
def verbLoadStatus : Verb where
  code := 0x1206
  role := .observer
  len := 4
  params := [⟨0, 0, 32, .patch [(.subcarrier, 0, 31)]⟩]

/-- The results of `LOAD.STATUS` (R158). -/
def loadStatus (s : ScSt) : Res :=
  let t := s.tx
  let r := s.rx
  let p := r.plan.getD {}
  let nx := if t.state = .steady then t.plan else t.next
  res 18 [at' 0 0 4 t.plan.id, at' 0 4 4 nx.id, at' 1 0 7 t.plan.h, at' 1 7 1 t.plan.code, fieldAt 2 8 (slotsOf t.plan.h t.plan.code),
    at' 3 0 2 (match t.state with | .steady => 0 | .announce => 1 | .final => 2), at' 3 2 4 t.retries, at' 4 0 4 p.id,
    at' 4 4 2 (match r.state with | .steady => 0 | .pending => 1 | .armed => 2), at' 5 0 7 p.h, at' 5 7 1 p.code,
    fieldAt 6 8 (slotsOf p.h p.code), fieldAt 8 16 r.report, fieldAt 10 32 r.missed, fieldAt 14 32 r.lost]

/-- The meaning of `LOAD.STATUS`. -/
def bodyLoadStatus : Body := onView fun c v =>
  match c.insts v with
  | n :: _ => if v.runs (.sc n) then .now .ok (loadStatus (v.sc n)) else .now .state
  | [] => .now .state

/-- LOAD_STATUS (R158). -/
def execLoadStatus (c : HostCall) (s : State) : Host.Outcome State Fault Refusal := runVerb verbLoadStatus bodyLoadStatus c s

/-- LOAD.SHAPE_READ (R158) (DESIGN CHOICE, assumption 216). -/
def verbLoadShapeRead : Verb where
  code := 0x1207
  role := .observer
  len := 1
  params := [⟨0, 0, 7, .range 0 64⟩, ⟨0, 7, 1, .rsv⟩]

/-- LOAD_SHAPE_READ (R158). -/
def execLoadShapeRead (c : HostCall) (s : State) : Host.Outcome State Fault Refusal :=
  runVerb verbLoadShapeRead (onView fun c _ =>
    let h := c.p 0 0 7
    let n := composition h
    .now .ok (res 12 [fieldAt 0 16 (16 * h), fieldAt 2 16 n.1, fieldAt 4 16 n.2.1, fieldAt 6 16 n.2.2.1, fieldAt 8 16 n.2.2.2,
      fieldAt 10 8 (baseM h), at' 11 0 1 (b2n (h == 32 || h == 64))])) c s

end Sys2Proof.Machine
end

