-- ==== Sys2Proof/Machine/Leaf.lean ====
section
/-! DEFINITION. A leaf's own state machine: discovery, assignment, silence, and the messages of its hub (R295, R307, R314). -/

namespace Sys2Proof.Machine

/-- The leaf's own state. -/
def Dev.leaf (d : Dev) : LeafOwn := d.ohd.leaf

/-- Change the leaf's own state. -/
def Dev.modOwn (d : Dev) (f : LeafOwn → LeafOwn) : Dev := d.modOver fun o => { o with leaf := f o.leaf }

/-- The leaf's home subcarrier. -/
def Dev.home (d : Dev) : Nat := d.conf .ownHome

/-- The home subcarrier is in frame with its phase known (R307) (DESIGN CHOICE, assumption 112). -/
def Dev.homeUp (d : Dev) : Bool := (d.sc d.home).fr.state == .inFrame && (d.sc d.home).fr.phase

/-- Raise an event about the leaf, on its home subcarrier (R316). -/
def Dev.raiseLeaf (d : Dev) (ev : Ev) (info : Nat) : Dev := d.raiseSc ev d.home info

/-- The leaf enters a state. -/
def Dev.leafGo (d : Dev) (st : LeafState) : Dev := d.modOwn fun l => { l with state := st, since := d.now }

/-! ### Upstream timing (R283, R285, R295) -/

/-- So many symbol periods in 10^-15 TC. -/
def symTime (n : Nat) : Nat := n * 2000000000000000 / 7

/-- A_F: when the home frame with a number arrived; of one that did not, as the last one that did says (R283) (DESIGN CHOICE, assumption
109). -/
def Dev.arrival (d : Dev) (f : Nat) : Option Int :=
  match d.leaf.arrivals.find? (·.1 == f) with
  | some a => some a.2
  | none => d.leaf.arrivals.head?.map fun a => a.2 + ((f : Int) - a.1) * tcFrame

/-- When upstream frame F begins at the last register before the DAC, in 10^-15 TC (R283). -/
def Dev.upInstant (d : Dev) (f : Nat) : Option Int := (d.arrival f).map fun a => a + tcFrame + symTime d.leaf.eqd

/-- An `EQD` received applies from this upstream frame on (R295). -/
def Dev.ownEqdSettle (d : Dev) (f : Nat) : Dev :=
  match d.leaf.eqdNext with
  | some (v, k) => if f ≥ k then d.modOwn fun l => { l with eqd := v, eqdNext := none } else d
  | none => d

/-- The upstream frame in progress at a leaf, once a home frame has come (R283). -/
def Dev.upFrame (d : Dev) : Option Nat :=
  d.leaf.arrivals.head?.map fun a => (a.1 + (d.tcTotal d.now - (a.2 + tcFrame + symTime d.leaf.eqd)) / tcFrame).toNat

/-- The frames of a dedicated upstream take the numbers that their instants give them: the one that begins within the next device frame
(R283). -/
def Dev.alignUp (d : Dev) : Dev :=
  match d.leaf.arrivals.head? with
  | none => d
  | some a =>
    let k := d.frameNo d.now + 1
    let f := ((a.1 : Int) + (((k + 1) * tcFrame : Nat) - 1 - (a.2 + tcFrame + symTime d.leaf.eqd)) / tcFrame).toNat
    ((List.range 32).filter d.ownDedicated).foldl (fun d n =>
      let t := (d.sc n).tx
      if (k : Int) - f = t.start - t.first then d else d.modTx n fun t => { t with start := k, first := f, mf := f / 256 }) d

/-- When a subcarrier's frame F has its first symbol at the last register before the DAC, in 10^-15 TC (R283, R545). -/
def Dev.departs (d : Dev) (n f : Nat) : Int :=
  let own : Int := (((d.sc n).tx.start + f - (d.sc n).tx.first) * tcFrame + txStages : Nat)
  if d.role = .leaf then (d.upInstant f).getD own else own

/-- A home frame has arrived: its number, by its overhead where that was used, and A_F (R283, R295). -/
def Dev.homeFrame (d : Dev) (cnt cfr : Nat) (good : Option Nat) : Dev :=
  let l := d.leaf
  let no := good.getD ((l.no + 1) % 2 ^ 32)
  let d := d.modOwn fun l => { l with
    no := no, arrivals := ((no, d.adcTotal cnt cfr) :: l.arrivals).take 128,
    goodNo := if good.isSome then some no else l.goodNo,
    unheard := if good.isSome then (l.goodNo.map fun g => min 3 (no - g - 1)).getD 3 else l.unheard }
  if l.dedicated ∧ l.state = .active then d.alignUp else d

/-- The first frame with this `MFI` that lies at least 4 frames after the first sending of a record that has just come: its first copies may
have gone unheard (R295) (DEDUCED, assumption 102). -/
def LeafOwn.aimed (l : LeafOwn) (mfi : Nat) : Nat :=
  let n := (mfi % 256 + 256 - l.no % 256) % 256
  l.no + (if n = 0 ∨ n + l.unheard < 4 then n + 256 else n)

/-! ### States (R307) -/

/-- The home subcarrier falls out of frame (1) or loses its phase (2): an active leaf stops sending at once (R307). -/
def Dev.homeLost (d : Dev) (n why : Nat) : Dev :=
  if d.role = .leaf ∧ n = d.home ∧ d.leaf.state = .active then
    ((d.modOwn fun l => { l with grants := [], echo := none }).leafGo .silent).raiseLeaf .leafSilenced why
  else d

/-- The home subcarrier is in frame with its phase known (R307). -/
def Dev.homeBack (d : Dev) (n : Nat) : Dev :=
  if d.role = .leaf ∧ n = d.home then
    match d.leaf.state with
    | .waitDs => d.leafGo .discWait
    | .silent => if d.now < d.leaf.since + secCycles 1 then (d.modOwn fun l => { l with rtdKnown := false }).leafGo .active else d
    | _ => d
  else d

/-- A commit of the leaf's own settings (R307). -/
def Dev.leafCommit (d : Dev) (es : List Entry) : Dev :=
  match staged? es .ownDisc 0 with
  | some 1 =>
    if d.leaf.state = .off then
      let d := (d.modOwn fun l => { l with r := 0 }).leafGo .waitDs
      if d.homeUp then d.homeBack d.home else d
    else d
  | some _ => (d.modOwn fun l => { l with disc := none, echo := none }).leafGo .off
  | none => d

/-- SILENT_TIMEOUT: 1 s in `SILENT`; a home subcarrier that is in frame with its phase takes the leaf on at once (R307). -/
def execSilentTimeout (s : State) : Host.Outcome State Fault Refusal :=
  s.run fun d =>
    if d.leaf.state = .silent then
      let d := ((d.at (d.leaf.since + secCycles 1)).modOwn fun l => { l with id := 0xFFF, eqd := 0, eqdNext := none, r := 0 }).leafGo .waitDs
      if d.homeUp then d.homeBack d.home else d
    else d

/-! ### Discovery (R305, R307) -/

/-- A discovery burst is due for an occasion frame, at a sub-position drawn by the leaf (R305). -/
def Dev.discSend (d : Dev) (frame : Nat) : Dev :=
  let w := d.draw
  (w.2.modOwn fun l => { l with disc := some (l.r, w.1 % 16, l.invited == some (d.home, frame), frame) }).leafGo .discSent

/-- DISCOVERY_OCCASION: an occasion frame on the home subcarrier; an invitation for it is used or lost (R307, R314). -/
def execDiscoveryOccasion (sc : Nat) (inviteOnly : Bool) (frame : Nat) (s : State) : Host.Outcome State Fault Refusal :=
  s.run fun d =>
    if d.role ≠ .leaf ∨ sc ≠ d.home ∨ !d.homeUp then d else
    let d := match d.leaf.state with
      | .discWait => if !inviteOnly ∨ d.leaf.invited = some (sc, frame) then d.discSend frame else d
      | .backoff =>
        if d.leaf.waitOcc > 1 then d.modOwn fun l => { l with waitOcc := l.waitOcc - 1 }
        else if inviteOnly then d.leafGo .discWait else d.discSend frame
      | _ => d
    d.modOwn fun l => { l with invited := l.invited.filter fun i => decide (frame < i.2) }

/-- DISC_RESPONSE_TIMEOUT: 128 frames without `SEEN` or `ASSIGN`: back off, or give up after 9 attempts (R307). -/
def execDiscResponseTimeout (s : State) : Host.Outcome State Fault Refusal :=
  s.run fun d =>
    if d.leaf.state ≠ .discSent then d else
    let d := d.at (d.leaf.since + 32000)
    let d := d.modOwn fun l => { l with disc := none, invited := none }
    if d.leaf.r < 8 then
      let r := d.leaf.r + 1
      let w := d.draw
      (w.2.modOwn fun l => { l with r := r, waitOcc := 1 + w.1 % 2 ^ min r 4 }).leafGo .backoff
    else (d.leafGo .inviteWait).raiseLeaf .leafGiveUp (d.leaf.r + 1)

/-! ### Messages (R295, R307) -/

/-- The leaf acts on this record: one whose `MSEQ` it has not acted on (R295); the record is noted. Types by their code (DESIGN CHOICE, assumption 103). -/
def Dev.leafTakes (d : Dev) (type : Nat) (h : TreeHead) : Bool × Dev :=
  let seen := match d.leaf.mseqs.get (fun _ => none) type with
    | some (m, t) => m == h.mseq && decide (d.now < t + 2000)
    | none => false
  (d.role == .leaf && !seen,
   d.modOwn fun l => { l with mseqs := l.mseqs.set (fun _ => none) type (some (h.mseq, if seen then (match l.mseqs.get (fun _ => none) type with
     | some (_, t) => t
     | none => d.now) else d.now)) })

/-- A record addressed by `IDENTITY`, its bytes as a little-endian number, names this device. -/
def Dev.isMe (d : Dev) (ident : Nat) : Bool := ident == leNat d.otp.identity

/-- A record addressed by `LEAF_ID` names this leaf. -/
def Dev.isLeaf (d : Dev) (h : TreeHead) : Bool := h.leaf == d.leaf.id && h.leaf != 0xFFF

/-- SEEN (R307). -/
def execSeen (h : TreeHead) (ident : Nat) (s : State) : Host.Outcome State Fault Refusal :=
  s.run fun d =>
    if !d.isMe ident then d else
    let r := d.leafTakes 1 h
    if r.1 && d.leaf.state == .discSent then (r.2.modOwn fun l => { l with disc := none, invited := none }).leafGo .seen else r.2

/-- ASSIGN (R307). -/
def execAssign (h : TreeHead) (ident eqd : Nat) (dedicated : Bool) (rtd : Nat) (s : State) : Host.Outcome State Fault Refusal :=
  s.run fun d =>
    if !d.isMe ident then d else
    let r := d.leafTakes 2 h
    if r.1 && (d.leaf.state == .discSent || d.leaf.state == .seen) then
      let d := ((r.2.modOwn fun l => { l with
        id := h.leaf % 4096, eqd := eqd, eqdNext := none, rtd := rtd, rtdKnown := true, dedicated := dedicated, disc := none,
        invited := none }).leafGo .active).raiseLeaf .leafAssigned (h.leaf % 4096)
      if dedicated then d.alignUp else d
    else r.2

/-- EQD: the new delay applies from the first upstream frame of that index at least 4 frames on (R295). -/
def execEqd (h : TreeHead) (eqd applyMfi rtd : Nat) (s : State) : Host.Outcome State Fault Refusal :=
  s.run fun d =>
    if !d.isLeaf h then d else
    let r := d.leafTakes 3 h
    if !r.1 then r.2 else
    r.2.modOwn fun l => { l with rtd := rtd, rtdKnown := true, eqdNext := some (eqd, l.aimed applyMfi) }

/-- RANGE: an echo is due for the first downstream frame of that index at least 4 frames on (R285, R295). -/
def execRange (h : TreeHead) (rangeMfi : Nat) (s : State) : Host.Outcome State Fault Refusal :=
  s.run fun d =>
    if !d.isLeaf h then d else
    let r := d.leafTakes 4 h
    if r.1 && d.leaf.state == .active then r.2.modOwn fun l => { l with echo := some (l.aimed rangeMfi) } else r.2

/-- REPORT: frequency, SNR, section indications and round trip from the hub (R184, R295, R309). -/
def execReport (h : TreeHead) (b : ReportBody) (s : State) : Host.Outcome State Fault Refusal :=
  s.run fun d =>
    if !d.isLeaf h then d else
    let r := d.leafTakes 5 h
    if !r.1 then r.2 else
    let f := if b.freq % 2 ^ 16 = 0x8000 then none else some (signed 16 (b.freq % 2 ^ 16))
    let d := r.2.modOwn fun l => { l with freq := f, rtd := b.rtd, rtdKnown := true, farBei := l.farBei + b.bei, farBdi := b.bdi }
    { d with line := { d.line with farReport := f, offs := d.line.offs.modify 0 fun o => (f.map fun v => (d.now, 1000 * v)).toList ++ o } }.modOver
      fun o => { o with
      secs := o.secs.modify (fun _ => {}) d.home fun x => { x with
        pm := { x.pm with farErrored := x.pm.farErrored + (if b.bei > 0 then 1 else 0), farDefect := x.pm.farDefect || b.bdi } } }

/-- INVITE: for the next occasion on the subcarrier that it names, one every 16 multiframes (R305, R307, R314). -/
def execInvite (h : TreeHead) (ident sc : Nat) (s : State) : Host.Outcome State Fault Refusal :=
  s.run fun d =>
    if !d.isMe ident then d else
    let r := d.leafTakes 6 h
    if r.1 && (d.leaf.state == .inviteWait || d.leaf.state == .discWait) then
      let d := r.2.modOwn fun l => { l with invited := some (sc % 32, ceilDiv l.no 4096 * 4096), r := if l.state = .inviteWait then 0 else l.r }
      if d.leaf.state = .inviteWait then d.leafGo .discWait else d
    else r.2

/-- MOVE: the host is asked to retune (R307). -/
def execMove (h : TreeHead) (b : MoveBody) (s : State) : Host.Outcome State Fault Refusal :=
  s.run fun d =>
    if !d.isLeaf h then d else
    let r := d.leafTakes 7 h
    if r.1 && d.leaf.state == .active then
      r.2.raiseLeaf .leafMoveRequest (b.rxFirst % 32 + 32 * (b.rxCount % 8) + 256 * (b.home % 32) + 8192 * b2n b.dedicated)
    else r.2

/-- DEREGISTER (R307). -/
def execDeregister (h : TreeHead) (s : State) : Host.Outcome State Fault Refusal :=
  s.run fun d =>
    if !d.isLeaf h then d else
    let r := d.leafTakes 8 h
    if r.1 && (d.leaf.state == .seen || d.leaf.state == .active) then
      ((r.2.modOwn fun l => { l with id := 0xFFF, eqdNext := none }).leafGo .inviteWait).raiseLeaf .leafDeregistered 0
    else r.2

/-! ### The leaf's commands (R314) -/

/-- BURST.LEAF_CFG (R314) (DESIGN CHOICE, assumption 216). -/
def verbBurstLeafCfg : Verb where
  code := 0x1820
  role := .operator
  len := 4
  params := [⟨1, 0, 5, .any⟩, ⟨2, 0, 10, .any⟩]

/-- BURST_LEAF_CFG (R314): in any role but leaf it gives `STATE` (R21). -/
def execBurstLeafCfg (c : HostCall) (s : State) : Host.Outcome State Fault Refusal :=
  runVerb verbBurstLeafCfg (stageOn ⟨.line, 0⟩ (fun _ d => if d.role = .leaf then none else some .state) fun c _ =>
    [fv .ownDisc 0 (c.p 0 0 1) 1, fv .ownSleep 0 (c.p 0 1 1) 1, fv .ownHome 0 (c.p 1 0 5) 5, fv .ownCont 0 (c.p 2 0 10) 10]) c s

/-- Validation of the leaf's own settings at a commit (R314). -/
def validateLeafCfg (new : Dev) (es : List Entry) : Option Status :=
  if (staged? es .ownHome 0).isNone then none else
  let h := new.conf .ownHome
  let within := fun (first count : Nat) => decide (first ≤ h ∧ h < first + count)
  if !within (new.conf .rxFirst) (new.conf .rxCount) ||
      (!new.ohd.leaf.dedicated && !within (new.conf .txFirst) (new.conf .txCount)) ||
      new.conf .contBind (2 * new.conf .ownCont) != 1 then some .badParameter else none

/-- BURST.LEAF_READ (R314). -/
def verbBurstLeafRead : Verb where
  code := 0x1821
  role := .observer
  len := 0

/-- The code of a leaf's state (R314). -/
def LeafState.code : LeafState → Nat
  | .off => 0 | .waitDs => 1 | .discWait => 2 | .discSent => 3 | .backoff => 4 | .inviteWait => 5 | .seen => 6 | .active => 7
  | .silent => 8

/-- BURST_LEAF_READ (R314): in any role but leaf it gives `STATE` (R21). -/
def execBurstLeafRead (c : HostCall) (s : State) : Host.Outcome State Fault Refusal :=
  runVerb verbBurstLeafRead (onView fun _ v =>
    if v.role ≠ .leaf then .now .state else
    let l := v.leaf
    .now .ok (res 14 [at' 0 0 4 l.state.code, fieldAt 1 8 l.r, fieldAt 2 16 l.id, fieldAt 4 24 l.eqd, fieldAt 8 32 l.rtd,
      fieldAt 12 16 ((l.freq.map (unsigned 16)).getD 0x8000)])) c s

end Sys2Proof.Machine
end

