-- ==== Sys2Proof/Machine/Align.lean ====
section
/-! DEFINITION. The aligner's states as the equaliser and the loopbacks move them (R238). -/

namespace Sys2Proof.Machine

/-- Change the aligner of a subcarrier. -/
def Dev.modFr (d : Dev) (n : Nat) (f : FrSc → FrSc) : Dev := d.modSc n fun s => { s with fr := f s.fr }

/-- Change the decoder of a subcarrier. -/
def Dev.modFec (d : Dev) (n : Nat) (f : FecSc → FecSc) : Dev := d.modSc n fun s => { s with fec := f s.fec }

/-- The aligner leaves `IN_FRAME` or the search for a new state: the block phase is no longer known, decoding stops with its history erased,
and the running SNR estimate is no longer of a whole multiframe (R137, R210, R238, R239). -/
def Dev.outOfFrame (d : Dev) (n : Nat) (st : AlignState) (cands : List (Nat × Bool)) : Dev :=
  d.modSc n fun s => { s with
    fr := { s.fr with
      state := st, cands := cands, phase := false, k := none, markMiss := 0, misses := 0,
      outSince := if s.fr.state = .inFrame then d.now else s.fr.outSince, inSince := none },
    fec := { s.fec with decoding := false, first := true, hist := [], tail := [] },
    snr := { s.snr with whole := false }, rx := { s.rx with beacon := none } }

/-- The aligner goes to `WAIT`; leaving `IN_FRAME` raises the event with its reason (R238). -/
def Dev.alignWait (d : Dev) (n why : Nat) : Dev :=
  let was := (d.sc n).fr.state
  let d := d.outOfFrame n .wait []
  if was = .inFrame then (d.raiseSc .frameOof n why).homeLost n 1 else d

/-- The equaliser enters `GRID` or `TRACK`: the aligner searches, its candidates cleared (R238). -/
def Dev.alignSearch (d : Dev) (n : Nat) : Dev := d.outOfFrame n .search []

end Sys2Proof.Machine
end

