-- ==== Sys2Proof/Machine/Fixed.lean ====
section
/-! DEFINITION. Fixed-point functions in 2^-64 by their series, and small linear systems (R132, R360, R361). -/

namespace Sys2Proof.Machine

/-- One in 2^-64. -/
def fxOne : Int := 2 ^ 64

/-- π in 2^-64. -/
def fxPi : Int := 57952155664616982739

/-- The natural logarithm of 2 in 2^-64. -/
def fxLn2 : Int := 12786308645202655659

/-- A series: each term from the one before by a factor num / (den k · 2^64), summed from a first term, n further terms. -/
def fxSeries (n : Nat) (first num : Int) (den : Nat → Int) : Int :=
  ((List.range n).foldl (fun (t : Int × Int) k => let u := roundDiv (t.1 * num) (den k * fxOne); (u, t.2 + u)) (first, first)).2

/-- The sine of a/b of a turn in 2^-64. -/
def fxSin (a : Int) (b : Nat) : Int :=
  let r := (4 * a) % (4 * b)
  let x := (r % b) * fxPi / (2 * b)
  let sq := Int.neg (x * x / fxOne)
  let s := fxSeries 15 x sq fun k => (2 * k + 2) * (2 * k + 3)
  let c := fxSeries 15 fxOne sq fun k => (2 * k + 1) * (2 * k + 2)
  if r < b then s else if r < 2 * b then c else if r < 3 * b then -s else -c

/-- The cosine of a/b of a turn in 2^-64. -/
def fxCos (a : Int) (b : Nat) : Int := fxSin (4 * a + b) (4 * b)

/-- The natural logarithm of p/q in 2^-64, for positive p and q: the power of 2 nearest below, and the series of the inverse hyperbolic
tangent for the rest. -/
def fxLn (p q : Nat) : Int :=
  let k : Int := (Nat.log2 p : Int) - Nat.log2 q
  let n : Int := p * 2 ^ (Nat.log2 q - Nat.log2 p)
  let m : Int := q * 2 ^ (Nat.log2 p - Nat.log2 q)
  let z := roundDiv ((n - m) * fxOne) (n + m)
  let sq := z * z / fxOne
  let t := (List.range 24).foldl (fun (t : Int × Int) (j : Nat) => (t.1 * sq / fxOne, t.2 + roundDiv t.1 (2 * j + 1))) (z, 0)
  k * fxLn2 + 2 * t.2

/-- e to the power -1/n in 2^-64, for n ≥ 1. -/
def fxDecay (n : Nat) : Int := fxSeries 20 fxOne (Int.neg fxOne) fun k => n * (k + 1)

/-- The natural logarithm of 10 in 2^-64. -/
def fxLn10 : Int := 42475197918399869020

/-- e to the power x, both in 2^-64. -/
def fxExp (x : Int) : Int :=
  let s := fxSeries 25 fxOne (x % fxLn2) (· + 1)
  let k := x / fxLn2
  if 0 ≤ k then s * 2 ^ k.toNat else s / 2 ^ (-k).toNat

/-- The factor in 2^-64 of an amplitude that n/d dB stands for, in units of 1/per dB. -/
def fxDb (n : Int) (d per : Nat) : Int := fxExp (roundDiv (n * fxLn10) (20 * d * per))

/-- The angle of ⟨re, im⟩ in 2^-64 of a turn, between -1/2 and 1/2; 0 of nothing: the quarter nearest to it, and the series of the arc tangent
for the rest, whose argument is halved twice. -/
def fxTurn (re im : Int) : Int :=
  let sqrt := fun n : Nat => (List.range (n.log2 / 2 + 1)).foldr (fun k r => if (r + 2 ^ k) ^ 2 ≤ n then r + 2 ^ k else r) 0
  let half := fun z : Int => z * fxOne / (fxOne + (sqrt (2 ^ 128 + z.natAbs ^ 2) : Nat))
  let small := fun a b : Int =>
    let z := half (half (roundDiv (b * fxOne) a))
    let q := Int.neg (z * z / fxOne)
    let s := ((List.range 30).foldl (fun (t : Int × Int) (j : Nat) => (t.1 * q / fxOne, t.2 + roundDiv t.1 (2 * j + 1))) (z, 0)).2
    2 * s * fxOne / fxPi
  if re = 0 ∧ im = 0 then 0
  else if im.natAbs ≤ re.natAbs then
    if 0 < re then small re im else small (-re) (-im) + (if 0 ≤ im then fxOne / 2 else -(fxOne / 2))
  else if 0 < im then fxOne / 4 + small im (-re) else small (-im) re - fxOne / 4

/-- The mean of a list of signed values, rounded to the nearest. -/
def meanInt (l : List Int) : Int := if l.isEmpty then 0 else roundDiv l.sum l.length

/-- The determinant of the first n rows, along their first row. -/
def det : Nat → List (List Int) → Int
  | 0, _ => 1
  | n + 1, rows =>
    let first := rows.headD []
    ((List.range (n + 1)).map fun j =>
      (if j % 2 = 0 then first.getD j 0 else -first.getD j 0) * det n (rows.tail.map (·.eraseIdx j))).sum

/-- The solution of a square system by Cramer's rule, each unknown times its scale and rounded; none where the rows determine none. -/
def solve (rows : List (List Int)) (rhs scale : List Int) : Option (List Int) :=
  let n := rows.length
  let m := det n rows
  if m ≤ 0 then none
  else some (scale.mapIdx fun j s => roundDiv (s * det n (rows.mapIdx fun i r => r.set j (rhs.getD i 0))) m)

end Sys2Proof.Machine
end

