-- ==== Sys2Proof/Machine/Code.lean ====
section
/-! DEFINITION. What a framer makes of a frame's information bits: scrambling, the shaping matcher, the outer and inner code, alignment
word, pilots and symbols, and a subcarrier's encoder (transmit stages 7 to 9; R135, R140 to R143, R198 to R205, R219 to R224). -/

namespace Sys2Proof.Machine

/-- CRC-16 of a burst header or body, and of a lane marker (R291, R384). -/
def crc16 (l : List Byte) : Nat := crcMsb 16 0x1021 0xFFFF l

/-! ### Layout of a frame (R198, R199, R221) -/

/-- Coded bits of a frame by base m (R199). -/
def codedBits (m : Nat) : Nat := 172140 * m

/-- Sign slots of a frame that carry data, by code and base m (R221). -/
def signBits (code m : Nat) : Nat :=
  if code = 0 then (if m = 4 then 247885 else 199700) else if m = 4 then 206572 else 137732

/-- DM_k: the matcher bits of frame k (R221). -/
def dmBits (h k : Nat) : Nat := 43035 * h * (k + 1) / 4 - 43035 * h * k / 4

/-- I_k: the information bits of frame k of a plan (R221). -/
def infoBits (h code k : Nat) : Nat := dmBits h k + signBits code (baseM h)

/-! ### Sequences and scrambling (R7, R220, R223) -/

/-- The bits of bytes, most significant first (R7). -/
def msbBits (b : List Byte) : List Bool := b.flatMap fun x => (List.range 8).map fun i => bit x.toNat (7 - i)

/-- A list cut into pieces of n. -/
def cut {α : Type} (n : Nat) (l : List α) : List (List α) :=
  ((List.range (ceilDiv l.length n)).foldl (fun (r : List (List α) × List α) _ => (r.2.take n :: r.1, r.2.drop n)) ([], l)).1.reverse

/-- The number that bits spell, the first most significant. -/
def bitsNat (l : List Bool) : Nat := l.foldl (fun a b => 2 * a + b2n b) 0

/-- n output bits of the register of w bits that feeds back the exclusive or of its bits a and b, and its state after them, as the
generators of R220 and R223 run. -/
def prbsFrom (w a b : Nat) : Nat → Nat → List Bool → List Bool
  | 0, _, acc => acc.reverse
  | n + 1, s, acc =>
    let o := bit s a != bit s b
    prbsFrom w a b n ((2 * s + b2n o) % 2 ^ w) (o :: acc)

/-- The generator x^7 + x^6 + 1 of R220 from a state. -/
def prbs7 (n s : Nat) : List Bool := prbsFrom 7 6 5 n s []

/-- The pilots' generator x^15 + x^14 + 1 from a state (R135); its register runs as the others' do (DEDUCED, assumption 105). -/
def prbs15 (n s : Nat) : List Bool := prbsFrom 15 14 13 n s []

/-- Information bits of subcarrier n, scrambled (R223). -/
def scramble (n : Nat) (b : List Bool) : List Bool := List.zipWith (· != ·) b (prbsFrom 31 30 27 b.length (0x3A5C0F00 + n) [])

/-- Bits cut or filled with zeros to a length. -/
def fitBits (n : Nat) (b : List Bool) : List Bool := b.take n ++ List.replicate (n - b.length) false

/-- The scrambled information bits of a frame: overhead, payload area, fill (R222, R223). -/
def frameBits (sc h code k : Nat) (info : List Byte) : List Bool := scramble sc (fitBits (infoBits h code k) (msbBits info))

/-! ### The shaping matcher (R140 to R143, R221, R224) -/

/-- n! -/
def fact : Nat → Nat
  | 0 => 1
  | n + 1 => (n + 1) * fact n

/-- How many sequences have a composition. -/
def seqCount (l : List (Nat × Nat)) : Nat := l.foldl (fun a e => a / fact e.2) (fact (l.map (·.2)).sum)

/-- The first amplitude of the sequence of rank r among the m sequences of n amplitudes of a composition: the amplitude, how many
sequences start with it, and the rank among them. -/
def pickAmp (n m : Nat) : List (Nat × Nat) → Nat → Nat × Nat × Nat
  | [], _ => (1, 1, 0)
  | e :: l, r =>
    let c := m * e.2 / n
    if r < c ∨ l.isEmpty then (e.1, c, r) else pickAmp n m l (r - c)

/-- The amplitude sequence of rank r of a composition, in lexicographic order (R141). -/
def unrank : Nat → List (Nat × Nat) → Nat → Nat → List Nat
  | 0, _, _, _ => []
  | n + 1, l, m, r =>
    let x := pickAmp (n + 1) m l r
    x.1 :: unrank n (l.map fun e => if e.1 = x.1 then (e.1, e.2 - 1) else e) x.2.1 x.2.2

/-- The amplitudes that an `H_CODE`'s composition counts. -/
def ampCounts (h : Nat) : List (Nat × Nat) :=
  let c := composition h
  [(1, c.1), (3, c.2.1), (5, c.2.2.1), (7, c.2.2.2)]

/-- The 512 amplitudes of a block from its 16 × `H_CODE` bits: bypass at 32 and 64, else matched (R141). -/
def blockAmps (h : Nat) (b : List Bool) : List Nat :=
  if h = 32 ∨ h = 64 then
    let w := baseM h / 2 - 1
    (List.range 512).map fun i => 2 * bitsNat ((b.drop (w * i)).take w) + 1
  else unrank 512 (ampCounts h) (seqCount (ampCounts h)) (bitsNat b)

/-- The label of an amplitude (R143). -/
def ampLabel (m a : Nat) : List Bool :=
  if m = 4 then [a == 3] else [a == 5 || a == 7, a == 3 || a == 5]

/-- The amplitude of a label (R143). -/
def labelAmp (m : Nat) (l : List Bool) : Nat :=
  if m = 4 then (if l = [true] then 3 else 1)
  else if l = [false, false] then 1 else if l = [false, true] then 3 else if l = [true, true] then 5 else 7

/-- The place in the multiframe's matcher stream of frame k's first bit (R221). -/
def dmStart (h k : Nat) : Nat := 43035 * h * k / 4

/-- The amplitudes of frame k: blocks run across frames, so the matcher bits of the frames before and after take part; a multiframe's
first frame has none before it and its last none after (R141, R224). -/
def frameAmps (h k : Nat) (before here after : List Bool) : List Nat :=
  let s := if k = 0 then here ++ after else before ++ here ++ after
  let s0 := dmStart h (k - 1)
  let b0 := 344280 * k / 512
  let n := ceilDiv (344280 * (k + 1)) 512 - b0
  let all := (List.range n).flatMap fun i => blockAmps h ((s.drop ((b0 + i) * (16 * h) - s0)).take (16 * h))
  (all.drop (344280 * k - 512 * b0)).take 344280

/-! ### Columns of the coded bits (R198 to R200, R289) -/

/-- Data columns of a code. -/
def dataCols (code : Nat) : Nat := if code = 0 then 43 else 40

/-- Inner information columns of a code. -/
def innerCols (code : Nat) : Nat := dataCols code + 2

/-- The columns of a group's slots in transmission order: parity columns from `par` to 49 take its first sign slots, the others the
rest. Slot i is a sign slot where i mod m/2 is m/2 − 1. -/
def slotCols (half : Nat) : Nat → Nat → Nat → Nat → List Nat
  | 0, _, _, _ => []
  | n + 1, i, data, par =>
    if i % half = half - 1 ∧ par < 50 then par :: slotCols half n (i + 1) data (par + 1)
    else data :: slotCols half n (i + 1) (data + 1) par

/-- The columns of group q of c coded bits: in an outer codeword, left over, or the partial group at the end, which carries data alone. -/
def groupCols (m code c q : Nat) : List Nat :=
  let full := c / 50
  if q = full then List.range (c % 50) else
  let z := q % 80
  let size := if q / 80 = full / 80 then full % 80 else 80
  let par := if z / 10 < size / 10 then dataCols code else innerCols code
  slotCols (m / 2) 50 (50 * q) 0 par

/-- How many groups c coded bits make, the partial one counted. -/
def groupsOf (c : Nat) : Nat := ceilDiv c 50

/-- The data columns' bound of a group: its columns below it carry data. -/
def groupData (m code c q : Nat) : Nat :=
  if q = c / 50 then 50
  else if (q % 80) / 10 < (if q / 80 = c / 50 / 80 then c / 50 % 80 else 80) / 10 then dataCols code else innerCols code

/-! ### The outer code (R202) -/

/-- Multiplication in GF(2^10) by x^10 + x^3 + 1. -/
def gfMul (a b : Nat) : Nat :=
  (List.range 10).foldl (fun r i =>
    let r := 2 * r
    let r := if bit r 10 then r ^^^ 0x409 else r
    if bit b (9 - i) then r ^^^ a else r) 0

/-- g(x) = M1(x) M3(x) over GF(2^10) with root of x^10 + x^3 + 1: M1 is that polynomial, M3 is x^10 + x^3 + x^2 + x + 1. -/
def bchGen : Nat :=
  (List.range 11).foldl (fun a i => if bit 0x40F i then a ^^^ (0x409 * 2 ^ i) else a) 0

/-- The 20 parity bits of a message: the remainder of x^20 m(x) by g(x). -/
def bchParity (msg : List Bool) : Nat :=
  msg.foldl (fun r b => let t := bit r 19 != b; (2 * r % 2 ^ 20) ^^^ (if t then bchGen % 2 ^ 20 else 0)) 0

/-- A column of a group. -/
def colsOf (n g : Nat) : List Bool := (List.range n).map fun j => bit g j

/-- The ten groups of a codeword with their outer parity in place. -/
def outerCode (code : Nat) (gs : List Nat) : List Nat :=
  let k := dataCols code
  let p := bchParity (gs.flatMap (colsOf k))
  gs.mapIdx fun i g => g + b2n (bit p (19 - 2 * i)) * 2 ^ k + b2n (bit p (18 - 2 * i)) * 2 ^ (k + 1)

/-! ### The inner code (R201) -/

/-- The lift of column j at memory depth k. -/
def liftOf (k j : Nat) : Nat := if k = 0 then 0 else (11 * j + 37 * k) % 80

/-- The inner parity bits of lift index z: `ps` are the position and the two before it, as group values. -/
def innerParity (code : Nat) (ps : List (List Nat)) (z : Nat) : List Bool :=
  let ni := innerCols code
  let cb := 50 - ni
  let s := fun i => ((List.range 3).map fun k => ((List.range ni).filter fun j =>
    (j + 2 * k) % cb == i && bit ((ps.getD k []).getD ((z + liftOf k j) % 80) 0) j).length).sum % 2
  ((List.range cb).foldl (fun (r : List Bool × Bool) i => let p := r.2 != (s i == 1); (r.1 ++ [p], p)) ([], false)).1

/-- The coded groups of a position from those with their data in place; `full` of them are full groups, the rest the partial one. -/
def codePosition (code full : Nat) (chain : List (List Nat)) (gs : List Nat) : List Nat :=
  let cw := (List.range (full / 10)).flatMap fun q => outerCode code ((gs.drop (10 * q)).take 10)
  let p := cw ++ gs.drop cw.length
  let ps := p :: chain
  p.mapIdx fun z g =>
    if full ≤ z then g else
    g + ((innerParity code ps z).mapIdx fun i b => b2n b * 2 ^ (innerCols code + i)).sum

/-- The coded groups of a chain's next positions, and the chain after them: the last two positions (R199, R201). -/
def codeGroups (code full : Nat) : Nat → List (List Nat) → List Nat → List Nat × List (List Nat)
  | 0, chain, _ => ([], chain)
  | n + 1, chain, gs =>
    let p := codePosition code (min full 80) chain (gs.take 80)
    let r := codeGroups code (full - 80) n (p :: chain.take 1) (gs.drop 80)
    (p ++ r.1, r.2)

/-- Place data bits in the columns of c coded bits: `fill` gives the bit of each slot that carries data, by its place in transmission order;
encode; and read the slots back in that order. -/
def codeSlots (m code c : Nat) (chain : List (List Nat)) (slots : List Bool) : List Bool × List (List Nat) :=
  let cols := (List.range (groupsOf c)).map (groupCols m code c)
  let gs := (cols.zip (cut 50 slots)).mapIdx fun q e =>
    ((e.1.zip e.2).map fun x => if x.1 < groupData m code c q then b2n x.2 * 2 ^ x.1 else 0).sum
  let r := codeGroups code (c / 50) (ceilDiv (groupsOf c) 80) chain gs
  ((cols.zip r.1).flatMap fun e => e.1.map (bit e.2), r.2)

/-! ### Symbols (R135, R136, R143, R219, R220) -/

/-- +1 for a bit of 0, −1 for a bit of 1. -/
def sign (b : Bool) : Int := if b then -1 else 1

/-- The real dimensions that coded bits spell: the label, then the sign (R143, R200). -/
def dimsOf (m : Nat) (b : List Bool) : List Int :=
  (cut (m / 2) b).map fun l => sign (l.getD (m / 2 - 1) false) * (labelAmp m (l.take (m / 2 - 1)) : Int)

/-- The square of an `H_CODE`'s unit: 512 over twice the energy of its composition (R143). -/
def dataUnit (h : Nat) : Nat × Nat := (512, 2 * ((ampCounts h).map fun e => e.2 * e.1 * e.1).sum)

/-- Four components a symbol, in the order XI, XQ, YI, YQ. -/
def symsOf (u : Nat × Nat) (l : List Int) : List Sym :=
  (cut 4 l).map fun c => ⟨c.getD 0 0, c.getD 1 0, c.getD 2 0, c.getD 3 0, u⟩

/-- n pilots of subcarrier sc (R135) (DEDUCED, assumption 105). -/
def pilots (sc n : Nat) : List Sym := symsOf (1, 2) ((prbs15 (4 * n) (0x2A00 + sc)).map sign)

/-- A symbol with every component negated. -/
def Sym.neg (s : Sym) : Sym := ⟨-s.xi, -s.xq, -s.yi, -s.yq, s.unit⟩

/-- The pilots of a frame, its last 16 with the plan beacon's bits (R136). -/
def framePilots (sc beacon : Nat) : List Sym :=
  (pilots sc 1366).mapIdx fun i s => if 1350 ≤ i ∧ bit beacon (15 - (i - 1350)) then s.neg else s

/-- The alignment word, with the block-phase mark in every 64th frame (R220); or a burst's unique word (R288). -/
def wordSyms (start : Nat) (mark : Bool) : List Sym :=
  let o := prbs7 128 start
  (List.range 64).map fun q =>
    let x := if mark then -sign (o.getD q false) else sign (o.getD q false)
    let y := sign (o.getD (q + 64) false)
    ⟨x, x, y, y, (1, 2)⟩

/-- Data symbols with a pilot after every 63 of them. -/
def weave (data pil : List Sym) : List Sym :=
  (cut 63 data).zipIdx.flatMap fun e => e.1 ++ (if e.1.length = 63 then (pil[e.2]?).toList else [])

/-- The scrambled information bits of a sent frame. -/
def LineFrame.scrambled (f : LineFrame) : List Bool := frameBits f.sc f.h f.code f.k f.info

/-- Its matcher bits (R224). -/
def LineFrame.dm (f : LineFrame) : List Bool := f.scrambled.take (dmBits f.h f.k)

/-- Its plan beacon (R136). -/
def LineFrame.beacon (f : LineFrame) : Nat :=
  beaconBits { id := bits ((f.info.getD 32 0).toNat) 4 4, h := f.h, code := f.code }

/-- Whether slot i of c coded bits carries a label, data or parity: labels come from the matcher, data from the sign bits in transmission
order (R200, R224). -/
def frameSlots (m code c : Nat) (labels data : List Bool) : List Bool :=
  let roles := (List.range (groupsOf c)).flatMap fun q => (groupCols m code c q).map fun j => decide (j < groupData m code c q)
  (roles.foldl (fun (r : List Bool × Nat × List Bool × List Bool) isData =>
    let i := r.2.1
    if i % (m / 2) ≠ m / 2 - 1 then (r.2.2.1.headD false :: r.1, i + 1, r.2.2.1.tail, r.2.2.2)
    else if isData then (r.2.2.2.headD false :: r.1, i + 1, r.2.2.1, r.2.2.2.tail)
    else (false :: r.1, i + 1, r.2.2.1, r.2.2.2)) ([], 0, labels, data)).1.reverse

/-- The symbols of a frame between the frames before and after it on its subcarrier, and the code's chain after it; `flip` says which
coded bits the transmitter inverts (R199, R217, R219). -/
def LineFrame.symbols (before after : Option LineFrame) (f : LineFrame) (chain : List (List Nat)) (flip : Nat → Bool) :
    List Sym × List (List Nat) :=
  let m := baseM f.h
  let amps := frameAmps f.h f.k ((before.map (·.dm)).getD []) f.dm (if f.k = 255 then [] else (after.map (·.dm)).getD [])
  let slots := frameSlots m f.code (codedBits m) (amps.flatMap (ampLabel m)) (f.scrambled.drop (dmBits f.h f.k))
  let r := codeSlots m f.code (codedBits m) chain slots
  (wordSyms 0x7F (f.k % 64 == 0) ++ weave (symsOf (dataUnit f.h) (dimsOf m (r.1.mapIdx fun i b => b != flip i))) (framePilots f.sc f.beacon), r.2)

/-- Which coded bits an injection inverts: its mantissa, exponent and draw (R217). -/
def flipOf : Option (Nat × Nat × Nat) → Nat → Bool
  | some (m, x, w), i => Config.injected m x w i
  | none, _ => false

/-- Encoded symbols stand ready for pulse shaping from an instant on; those of four frames before are forgotten. -/
def EncSc.push (e : EncSc) (start : Int) (l : List Sym) : EncSc :=
  { e with sent := (start, l) :: e.sent.filter fun x => decide (start < x.1 + 4 * tcFrame) }

/-- The next frame of a subcarrier enters its encoder, with what is to be inverted of it: the frame before is encoded, its blocks completed
from the new one; the chain runs on (R199, R205, R217, R224) (DESIGN CHOICE, assumption 191). -/
def EncSc.next (e : EncSc) (f : LineFrame) (inject : Option (Nat × Nat × Nat)) : EncSc :=
  match e.cur with
  | none => { e with cur := some f, inject := inject }
  | some c =>
    let r := c.symbols e.prev (some f) e.chain (flipOf e.inject)
    { prev := some c, cur := some f, inject := inject, chain := r.2, sent := (e.push c.start r.1).sent }

end Sys2Proof.Machine
end

