-- ==== Sys2Proof/Machine/Recv.lean ====
section
/-! DEFINITION. What a receiver makes of a subcarrier's samples: the polarisation equaliser, the aligner's correlations, the pilots, the
demapper, the decoder and the deframer (receive stages 3 to 7; R136, R137, R141, R173, R206, R207, R210, R212, R223, R233, R236, R237). -/

namespace Sys2Proof.Machine

/-! ### Complex numbers in 2^-16 (assumption 204) -/

/-- The largest number whose square is not above n. -/
def isqrt (n : Nat) : Nat := (List.range (n.log2 / 2 + 1)).foldr (fun k r => if (r + 2 ^ k) ^ 2 ≤ n then r + 2 ^ k else r) 0

/-- Sum. -/
def Cx.add (a b : Cx) : Cx := ⟨a.re + b.re, a.im + b.im⟩

/-- Difference. -/
def Cx.sub (a b : Cx) : Cx := ⟨a.re - b.re, a.im - b.im⟩

/-- Conjugate. -/
def Cx.conj (a : Cx) : Cx := ⟨a.re, -a.im⟩

/-- Product in 2^-32. -/
def Cx.mulFull (a b : Cx) : Cx := ⟨a.re * b.re - a.im * b.im, a.re * b.im + a.im * b.re⟩

/-- Product. -/
def Cx.mul (a b : Cx) : Cx := let p := a.mulFull b; ⟨p.re / 65536, p.im / 65536⟩

/-- Square of the magnitude. -/
def Cx.power (a : Cx) : Nat := a.re.natAbs ^ 2 + a.im.natAbs ^ 2

/-- Magnitude. -/
def Cx.abs (a : Cx) : Nat := isqrt a.power

/-- A turn by k quarters. -/
def Cx.turn (a : Cx) (k : Nat) : Cx :=
  match k % 4 with
  | 0 => a
  | 1 => ⟨-a.im, a.re⟩
  | 2 => ⟨-a.re, -a.im⟩
  | _ => ⟨a.im, -a.re⟩

/-- The multiple of a quarter turn nearest to a value's angle. -/
def Cx.quarter (a : Cx) : Nat :=
  if a.im.natAbs ≤ a.re.natAbs then (if 0 ≤ a.re then 0 else 2) else if 0 < a.im then 1 else 3

/-- Sum of a list. -/
def Cx.total (l : List Cx) : Cx := l.foldl Cx.add {}

/-- The two polarisations exchanged. -/
def Cx2.swap (s : Cx2) : Cx2 := ⟨s.y, s.x⟩

/-- √(1/2). -/
def rootHalf : Int := 46341

/-- A known symbol of unit power, whose components are ±1 in its own unit. -/
def Sym.known (s : Sym) : Cx2 := ⟨⟨rootHalf * s.xi, rootHalf * s.xq⟩, ⟨rootHalf * s.yi, rootHalf * s.yq⟩⟩

/-- The nearest QPSK point of unit modulus. -/
def Cx.qpsk (a : Cx) : Cx := ⟨if a.re < 0 then -rootHalf else rootHalf, if a.im < 0 then -rootHalf else rootHalf⟩

/-! ### The butterfly (R173, R174, R190) -/

/-- Four filters over 15 samples. -/
def Taps.apply (t : Taps) (s : List Cx2) : Cx2 :=
  let dot := fun (w : List Cx) (p : Cx2 → Cx) => Cx.total (List.zipWith (fun w s => w.mul (p s)) w s)
  ⟨(dot t.xx (·.x)).add (dot t.xy (·.y)), (dot t.yx (·.x)).add (dot t.yy (·.y))⟩

/-- Identity taps whose polarisations are rotated by 45° × r (R190, assumption 204). -/
def Taps.identity (r : Nat) : Taps :=
  let c : Int := if r % 4 = 0 then 65536 else if r % 4 = 1 then rootHalf else if r % 4 = 2 then 0 else -rootHalf
  let s : Int := if r % 4 = 0 then 0 else if r % 4 = 2 then 65536 else rootHalf
  let f := fun v : Int => (List.range 15).map fun j => if j = 7 then (⟨v, 0⟩ : Cx) else {}
  ⟨f c, f (-s), f s, f c⟩

/-- One step of least mean squares: every tap moves against its sample by the step size and the error of its output (R173). -/
def Taps.update (t : Taps) (step : Int) (s : List Cx2) (ex ey : Cx) : Taps :=
  let move := fun (w : List Cx) (e : Cx) (p : Cx2 → Cx) =>
    List.zipWith (fun w s => let g := e.mul (p s).conj; w.add ⟨step * g.re / 65536, step * g.im / 65536⟩) w s
  ⟨move t.xx ex (·.x), move t.xy ex (·.y), move t.yx ey (·.x), move t.yy ey (·.y)⟩

/-- What an output is compared with: the symbol that is taken to have been sent, whether it is a known one, and whether the taps learn from
it. -/
structure SymRef where
  sym : Cx2
  known : Bool
  teach : Bool

/-- A known symbol that the taps learn from too is a pilot. -/
def SymRef.pilot (r : SymRef) : Bool := r.known && r.teach

/-- The unit factor that takes an estimated turn of the carrier back. -/
def Cx.unturn (e : Cx) : Cx := let a : Int := e.abs; if a = 0 then ⟨65536, 0⟩ else ⟨e.re * 65536 / a, -(e.im * 65536 / a)⟩

/-- An estimate of a polarisation's turn after an output whose turn is z: at a known symbol a slip, by which the two lie quarters of a turn
apart, is undone (R182, assumption 223). -/
def Cx.follow (hold : Int) (est z : Cx) (known : Bool) : Cx × Nat :=
  let k := if known && est != {} then (z.mul est.conj).quarter else 0
  let e := est.turn k
  (⟨e.re + hold * (z.re - e.re) / 65536, e.im + hold * (z.im - e.im) / 65536⟩, if k = 0 then 0 else 1)

/-- Carrier recovery takes in an output e of the equaliser with its reference (R182). -/
def Carrier.step (c : Carrier) (hold : Int) (e : Cx2) (r : SymRef) : Carrier :=
  let z : Cx2 := ⟨e.x.mul r.sym.x.conj, e.y.mul r.sym.y.conj⟩
  let x := Cx.follow hold c.est.x z.x r.known
  let y := Cx.follow hold c.est.y z.y r.known
  { est := ⟨x.1, y.1⟩,
    pilot := if r.pilot then some z else c.pilot,
    adv := match r.pilot, c.pilot with
      | true, some p => (c.adv.add (z.x.mul p.x.conj)).add (z.y.mul p.y.conj)
      | _, _ => c.adv,
    slips := c.slips + x.2 + y.2 }

/-- The loops of a subcarrier's receiver. -/
structure RxLoop where
  taps : Taps
  car : Carrier

/-- The equaliser and carrier recovery over n symbols, from the one with index i on: outputs, and the loops after them. Each output with a
reference moves the carrier's estimate, and the taps where they learn from it; the carrier's turn is taken out of the error (R173,
R182). -/
def eqRun (step hold : Int) (ref : Nat → Cx2 → Option SymRef) : Nat → Nat → RxLoop → List Cx2 → List Cx2 × RxLoop
  | 0, _, l, _ => ([], l)
  | n + 1, i, l, s =>
    let w := s.take 15
    let e := l.taps.apply w
    let p : Cx2 := ⟨l.car.est.x.unturn, l.car.est.y.unturn⟩
    let o : Cx2 := ⟨e.x.mul p.x, e.y.mul p.y⟩
    let l := match ref i o with
      | some r => {
          taps := if r.teach then l.taps.update step w ((r.sym.x.sub o.x).mul p.x.conj) ((r.sym.y.sub o.y).mul p.y.conj) else l.taps,
          car := l.car.step hold e r }
      | none => l
    let r := eqRun step hold ref n (i + 1) l (s.drop 2)
    (o :: r.1, r.2)

/-- The symbols that samples at two per symbol hold, from seven before the first symbol to seven after the last. -/
def symbolCount (s : List Cx2) : Nat := (s.length - 13) / 2

/-- The unit of amplitude in 2^-16 (R143). -/
def ampUnit (h : Nat) : Nat := let u := dataUnit h; isqrt (2 ^ 32 * u.1 / u.2)

/-- The nearest level of the base constellation of base m with unit u (R140). -/
def nearLevel (m u : Nat) (v : Int) : Int :=
  let a := min (2 * (v.natAbs / (2 * u)) + 1) (if m = 4 then 3 else 7)
  (if v < 0 then -1 else 1) * ((a * u : Nat) : Int)

/-- The nearest point of the base constellation of a plan (R140). -/
def nearPoint (h : Nat) (s : Cx2) : Cx2 :=
  let f := nearLevel (baseM h) (ampUnit h)
  ⟨⟨f s.x.re, f s.x.im⟩, ⟨f s.y.re, f s.y.im⟩⟩

/-- The outputs as carrier recovery hands them on: the recorded swap and quarter turns taken out (R238). -/
def FrSc.correct (f : FrSc) (s : Cx2) : Cx2 :=
  let s := if f.swapped then s.swap else s
  ⟨s.x.turn (4 - f.rotation % 4), s.y.turn (4 - f.rotY % 4)⟩

/-- The way back. -/
def FrSc.uncorrect (f : FrSc) (s : Cx2) : Cx2 :=
  let r : Cx2 := ⟨s.x.turn f.rotation, s.y.turn f.rotY⟩
  if f.swapped then r.swap else r

/-- The reference of an output whose known value may be negated: the one of the two nearer to it. -/
def nearSign (o p : Cx) : Cx := if (o.mulFull p.conj).re < 0 then p.turn 2 else p

/-- The reference of an output in frame (R173, R182): in the word, which the taps do not learn from, its known value, of the X half with the
sign nearer to the output, for the block-phase mark; at a pilot its known value, with the sign nearer to the output where the pilot carries
a beacon bit; else the nearest point of the receive plan's base constellation, where a plan is known. -/
def frameRef (word pil : List Cx2) (h : Option Nat) (i : Nat) (o : Cx2) : Option SymRef :=
  if i < 64 then (word[i]?).map fun w => ⟨⟨nearSign o.x w.x, w.y⟩, true, false⟩
  else if i % 64 = 63 then
    (pil[i / 64 - 1]?).map fun p =>
      let c := ((o.x.mulFull p.x.conj).add (o.y.mulFull p.y.conj)).re
      ⟨if 1351 ≤ i / 64 ∧ c < 0 then ⟨p.x.turn 2, p.y.turn 2⟩ else p, true, true⟩
  else h.map fun h => ⟨nearPoint h o, false, true⟩

/-- The reference of an output while the aligner is not in frame: at the pilot grid the nearest QPSK point; else the nearest point of the
receive plan's base constellation, where a plan is held (R173). -/
def gridRef (grid : Option Nat) (h : Option Nat) (i : Nat) (o : Cx2) : Option SymRef :=
  if grid = some (i % 64) then some ⟨⟨o.x.qpsk, o.y.qpsk⟩, false, true⟩ else h.map fun h => ⟨nearPoint h o, false, true⟩

/-- The reference of an output in `PRECONV`, where no grid is known: its own direction at unit modulus (R173, R190, assumption 223). -/
def modulusRef (o : Cx2) : SymRef := ⟨⟨o.x.unturn.conj, o.y.unturn.conj⟩, false, true⟩

/-- The mean square of what outputs' moduli differ from 1 by, in 2^-32 (R190, assumption 223). -/
def modulusError (l : List Cx2) : Nat :=
  let f := fun a : Cx => ((a.abs : Int) - 65536).natAbs ^ 2
  (l.map fun o => f o.x + f o.y).sum / (2 * l.length)

/-! ### Correlations (R220, R236, R237) -/

/-- A magnitude over a sum of magnitudes, in 0.01; 0 where nothing was received. -/
def share100 (c : Cx) (d : Nat) : Nat := 100 * c.abs / d

/-- The correlation in 0.01 of received values with known ones of unit power (R236, R237). -/
def corr100 (r known : List Cx) : Nat :=
  share100 (Cx.total (List.zipWith (fun a b => a.mul b.conj) r known)) ((r.take known.length).map Cx.abs).sum

/-- The X and the Y part of the alignment word, without the block-phase mark (R220). -/
def wordKnown : List Cx2 := (wordSyms 0x7F false).map Sym.known

/-- The four correlations of R236: C_AX, C_BY, C_AY, C_BX in 0.01. -/
def wordCorrs (r : List Cx2) : Nat × Nat × Nat × Nat :=
  let a := wordKnown.map (·.x)
  let b := wordKnown.map (·.y)
  (corr100 (r.map (·.x)) a, corr100 (r.map (·.y)) b, corr100 (r.map (·.y)) a, corr100 (r.map (·.x)) b)

/-- What the check of a frame boundary measures (R237), in 0.01: the word's correlations with the recorded swap, and ρ of X and of Y. -/
structure AlignMeas where
  aw1 : Nat
  aw2 : Nat
  rhoX : Nat
  rhoY : Nat
deriving DecidableEq, Repr

/-- The first n known pilots of subcarrier sc (R135). -/
def knownPilots (sc n : Nat) : List Cx2 := (pilots sc n).map Sym.known

/-- The checks of a frame boundary, by symbols whose swap is taken out (R237). -/
def FrameSyms.meas (m : FrameSyms) (sc : Nat) : AlignMeas :=
  let c := wordCorrs m.word
  let p := knownPilots sc 1350
  ⟨c.1, c.2.1, corr100 (m.pilots.map (·.x)) (p.map (·.x)), corr100 (m.pilots.map (·.y)) (p.map (·.y))⟩

/-- The swap taken out of a frame's symbols. -/
def FrameSyms.unswap (m : FrameSyms) (sw : Bool) : FrameSyms :=
  if sw then ⟨m.word.map Cx2.swap, m.pilots.map Cx2.swap⟩ else m

/-- The symbols of a frame at the pilots' positions (R219). -/
def pilotsOf (l : List Cx2) : List Cx2 := (List.range 1366).map fun j => l.getD (64 * j + 127) {}

/-- The quarter turns of X and of Y that the pilots show (R238). -/
def FrameSyms.turns (m : FrameSyms) (sc : Nat) : Nat × Nat :=
  let p := knownPilots sc 1350
  let q := fun f : Cx2 → Cx => (Cx.total (List.zipWith (fun a b => (f a).mul (f b).conj) m.pilots p)).quarter
  (q (·.x), q (·.y))

/-- The beacon of a frame's pilots, whose phase is resolved: a bit is 1 where the four component correlations of its pilot sum to less than
zero (R136). -/
def beaconOf (sc : Nat) (pil : List Cx2) : Nat :=
  let k := knownPilots sc 1366
  bitsNat ((List.range 16).map fun b =>
    let r := pil.getD (1350 + b) {}
    let p := k.getD (1350 + b) {}
    decide (((r.x.mulFull p.x.conj).add (r.y.mulFull p.y.conj)).re < 0))

/-- The sign of the word's X half against the pilots' phase is negative: the frame carries the block-phase mark (R239). -/
def markOf (word : List Cx2) : Bool :=
  decide ((Cx.total (List.zipWith (fun r a => r.x.mul a.x.conj) word wordKnown)).re < 0)

/-! ### Pilots and convergence (R137, R191) -/

/-- A received pilot with its known value. -/
def PilotSum.add (p : PilotSum) (r known : Cx) : PilotSum := ⟨p.s.add (r.mulFull known.conj), p.e + r.power, p.n + 1⟩

/-- Two sums together. -/
def PilotSum.join (a b : PilotSum) : PilotSum := ⟨a.s.add b.s, a.e + b.e, a.n + b.n⟩

/-- The sums of received pilots, X and Y. -/
def pilotSums (r known : List Cx2) : PilotSum × PilotSum :=
  (r.zip known).foldl (fun (s : PilotSum × PilotSum) e => (s.1.add e.1.x e.2.x, s.2.add e.1.y e.2.y)) ({}, {})

/-- The pilots of a frame whose aligner is not in frame: those at the grid, each against its nearest QPSK point (R173, R191, assumption
204). -/
def gridPilots (grid : Nat) (l : List Cx2) : PilotSum × PilotSum :=
  let r := (l.zipIdx.filter fun e => e.2 % 64 == grid).map (·.1)
  pilotSums r (r.map fun s => ⟨s.x.qpsk, s.y.qpsk⟩)

/-- The X and Y outputs correlate with a magnitude above 0.9 (R191). -/
def singular (l : List Cx2) : Bool :=
  let c := Cx.total (l.map fun s => s.x.mulFull s.y.conj)
  decide (81 * (l.map fun s => s.x.power).sum * (l.map fun s => s.y.power).sum < 100 * c.power)

/-! ### The demapper (R206) -/

/-- e^(−a/b) in 2^-64, to within a few units of it. -/
def expNeg (a b : Nat) : Nat :=
  let f := a % b * 2 ^ 64 / b
  let e := (List.range 24).foldr (fun k r => 2 ^ 64 - f * r / 2 ^ 64 / (k + 1)) (2 ^ 64)
  if a / b ≥ 45 then 0 else (List.range (a / b)).foldl (fun r _ => r * 6786177901268885274 / 2 ^ 64) e

/-- ln(p/q) in steps of 0.25 to the nearest, saturated at ±31 steps (R206). -/
def llrOf (p q : Nat) : Int :=
  let up := fun p q => ((List.range 31).filter fun k => decide (q * 2 ^ 64 ≤ p * expNeg (2 * k + 1) 8)).length
  (up p q : Int) - up q p

/-- The ratios of the bits of a real dimension: its label bits, then its sign. The points are weighed with the composition's amplitudes
and their distance from v, where noise over signal power is `nz` (R206, assumption 206). -/
def dimLlrs (h : Nat) (nz : Nat × Nat) (v : Int) : List Int :=
  let m := baseM h
  let u : Int := ampUnit h
  let pts := ((ampCounts h).filter fun e => decide (e.2 > 0)).flatMap fun e =>
    [(e.1, false, e.2, (v - u * e.1).natAbs ^ 2), (e.1, true, e.2, (v + u * e.1).natAbs ^ 2)]
  let least := (pts.map fun e => e.2.2.2).foldl min ((pts.headD (0, false, 0, 0)).2.2.2)
  let ws := pts.map fun e => (e.1, e.2.1, e.2.2.1 * expNeg ((e.2.2.2 - least) * nz.2) (max 1 (nz.1 * 2 ^ 32)))
  let llr := fun one : Nat × Bool × Nat → Bool =>
    llrOf ((ws.filter fun e => !one e).map (·.2.2)).sum ((ws.filter one).map (·.2.2)).sum
  ((List.range (m / 2 - 1)).map fun b => llr fun e => (ampLabel m e.1).getD b false) ++ [llr fun e => e.2.1]

/-- The ratios of symbols in transmission order (R200, R206). -/
def demap (h : Nat) (nx ny : Nat × Nat) (l : List Cx2) : List Int :=
  l.flatMap fun s => dimLlrs h nx s.x.re ++ dimLlrs h nx s.x.im ++ dimLlrs h ny s.y.re ++ dimLlrs h ny s.y.im

/-- The data symbols among symbols that follow a frame boundary (R219). -/
def dataOf (l : List Cx2) : List Cx2 := (l.zipIdx.filter fun e => decide (64 ≤ e.2) && e.2 % 64 != 63).map (·.1)

/-! ### The decoder (R198 to R202, R207, R210, R212) -/

/-- The groups of the ratios of c coded bits: 50 columns each, 0 where a partial group has none. -/
def softGroups (m code c : Nat) (l : List Int) : List (List Int) :=
  (cut 50 (l.take c)).mapIdx fun q s =>
    let e := (groupCols m code c q).zip s
    (List.range 50).map fun j => ((e.find? fun x => x.1 == j).map (·.2)).getD 0

/-- The hard decisions of a group, as its value (R206). -/
def hardGroup (g : List Int) : Nat := (g.mapIdx fun j v => b2n (decide (v < 0)) * 2 ^ j).sum

/-- α^i for i below n. -/
def alphas (n : Nat) : List Nat := ((List.range n).foldl (fun (r : List Nat × Nat) _ => (r.2 :: r.1, gfMul r.2 2)) ([], 1)).1.reverse

/-- x³. -/
def cube (x : Nat) : Nat := gfMul x (gfMul x x)

/-- The degrees in error of a word of n bits with syndromes at α and α³: at most two, or none where the locator has not its distinct roots
within the shortened length (R202, R212). -/
def bchErrors (n s1 s3 : Nat) : Option (List Nat) :=
  let xs := alphas n
  if s1 = 0 ∧ s3 = 0 then some []
  else if cube s1 = s3 then (xs.findIdx? (· == s1)).map fun i => [i]
  else
    let l := (xs.zipIdx.filter fun e => let y := e.1 ^^^ s1; y != e.1 && xs.contains y && (cube e.1 ^^^ cube y) == s3).map (·.2)
    if l.length = 2 then some l else none

/-- The bits of an outer codeword of ten groups, highest degree first: data columns, then the parity as it is placed (R202). -/
def outerBits (code : Nat) (gs : List Nat) : List Bool :=
  let k := dataCols code
  gs.flatMap (colsOf k) ++ gs.flatMap fun g => [bit g k, bit g (k + 1)]

/-- The group and column of bit i of an outer codeword (R202). -/
def outerPlace (code i : Nat) : Nat × Nat :=
  let k := dataCols code
  if i < 10 * k then (i / k, i % k) else ((i - 10 * k) / 2, k + (i - 10 * k) % 2)

/-- Outer decoding of ten groups: the groups, and how many errors were corrected, none where it fails (R202, R212). -/
def outerDecode (code : Nat) (gs : List Nat) : List Nat × Option Nat :=
  let b := outerBits code gs
  let n := b.length
  let on := ((alphas n).zip b.reverse).filterMap fun e => if e.2 then some e.1 else none
  match bchErrors n (on.foldl (· ^^^ ·) 0) (on.foldl (fun a x => a ^^^ cube x) 0) with
  | none => (gs, none)
  | some l =>
    (l.foldl (fun gs d => let p := outerPlace code (n - 1 - d); gs.modify p.1 (· ^^^ 2 ^ p.2)) gs, some l.length)

/-- A decoded position: its soft values after the last iteration, its decisions, the errors corrected in each outer codeword or none where
it fails, and the lift indices whose rows are left unsatisfied (R207, R212). -/
structure Decoded where
  soft : List (List Int)
  hard : List Nat
  words : List (Option Nat)
  unsat : List Nat

/-- Decode the position at the front of a window; `full` of its groups are full ones, `hist` the two positions before it, newest first
(R207, R210, assumption 206). -/
def decodePosition (code iter full : Nat) (hist window : List (List (List Int))) : Decoded :=
  let w := (List.range iter).foldl (fun w _ => Config.decodeStep code w) (hist.reverse ++ window)
  let soft := w.getD hist.length []
  let inner := soft.map hardGroup
  let old := hist.map fun p => p.map hardGroup
  let ni := innerCols code
  let r := (cut 10 (inner.take (full / 10 * 10))).map (outerDecode code)
  { soft := soft, hard := r.flatMap (·.1) ++ inner.drop (full / 10 * 10), words := r.map (·.2),
    unsat := (List.range full).filter fun z =>
      innerParity code (inner :: old) z != (List.range (50 - ni)).map fun i => bit (inner.getD z 0) (ni + i) }

/-- The history after a position: erased where an outer codeword failed (R210). -/
def Decoded.next (x : Decoded) (hist : List (List (List Int))) : List (List (List Int)) :=
  let p := if x.words.any (·.isNone) then x.soft.map fun g => g.map fun _ => (0 : Int) else x.soft
  (p :: hist).take 2

/-- Decode n positions, of which `full` groups are full, and the history after them. -/
def decodePositions (code iter : Nat) : Nat → Nat → List (List (List Int)) → List (List (List Int)) → List Decoded × List (List (List Int))
  | 0, _, hist, _ => ([], hist)
  | n + 1, full, hist, w =>
    let x := decodePosition code iter (min full 80) hist w
    let r := decodePositions code iter n (full - 80) (x.next hist) w.tail
    (x :: r.1, r.2)

/-- The marked groups of a position: those of a failed outer codeword, and in the frame's short position those left in an unsatisfied row
and, with any such row, the partial group (R212, R233, assumption 206). -/
def Decoded.marked (x : Decoded) (full : Nat) (z : Nat) : Bool :=
  (z < 10 * x.words.length && (x.words.getD (z / 10) none).isNone) ||
  (decide (full < 80) && (x.unsat.contains z || (decide (full ≤ z) && !x.unsat.isEmpty)))

/-- The coded bits of decoded positions in transmission order, each with its mark. -/
def decodedSlots (m code c : Nat) (l : List Decoded) : List (Bool × Bool) :=
  l.zipIdx.flatMap fun e =>
    let full := c / 50 - 80 * e.2
    (e.1.hard.zipIdx).flatMap fun g =>
      let mk := e.1.marked full g.2
      (groupCols m code c (80 * e.2 + g.2)).map fun j => (bit g.1 j, mk)

/-! ### The deframer (R141, R143, R221 to R224, R233) -/

/-- The rank of an amplitude sequence among the m sequences of a composition, none where it is not of that composition (R141). -/
def rankOf : List (Nat × Nat) → Nat → List Nat → Option Nat
  | _, _, [] => some 0
  | l, m, a :: r =>
    let n := r.length + 1
    match l.find? fun e => e.1 == a && decide (e.2 > 0) with
    | none => none
    | some e =>
      let below := ((l.filter fun x => decide (x.1 < a)).map fun x => m * x.2 / n).sum
      (rankOf (l.map fun x => if x.1 = a then (x.1, x.2 - 1) else x) (m * e.2 / n) r).map (· + below)

/-- The bits of a number, most significant first. -/
def natBits (n v : Nat) : List Bool := (List.range n).map fun i => bit v (n - 1 - i)

/-- The 16 × `H_CODE` bits of a block of 512 amplitudes (R141). -/
def blockBits (h : Nat) (l : List Nat) : List Bool :=
  if h = 32 ∨ h = 64 then l.flatMap fun a => natBits (baseM h / 2 - 1) (a / 2)
  else
    match (rankOf (ampCounts h) (seqCount (ampCounts h)) l).filter fun r => decide (r < 2 ^ (16 * h)) with
    | some r => natBits (16 * h) r
    | none => natBits (16 * h) (Config.dematched h l)

/-- The amplitudes that coded bits spell, each with the mark of its label bits, and the data bits of their sign slots (R200, R224). -/
def amplitudesOf (m : Nat) (l : List (Bool × Bool)) : List (Nat × Bool) :=
  (cut (m / 2) l).map fun d => let lb := d.take (m / 2 - 1); (labelAmp m (lb.map (·.1)), lb.any (·.2))

/-- The bits of the sign slots that carry data, of c coded bits (R200, R224). -/
def signsOf (m code c : Nat) (l : List (Bool × Bool)) : List (Bool × Bool) :=
  let roles := (List.range (groupsOf c)).flatMap fun q => (groupCols m code c q).map fun j => decide (j < groupData m code c q)
  ((l.zip roles).zipIdx.filter fun e => e.2 % (m / 2) == m / 2 - 1 && e.1.2).map (·.1.1)

/-- The frame is uncorrectable by its own findings (R212). -/
def RxDecoded.bad (x : RxDecoded) : Bool := decide (x.outerFail > 0) || x.unsat

/-- The output for the last 4,480 symbol periods of a frame, which carry 4,410 of its 86,070 data symbols, is not delivered as the decoder
changes to fast mode: what stands in its place is open, the bits of a free value, marked (R209, assumption 211). -/
def RxDecoded.lapse (x : RxDecoded) (free : Nat) : RxDecoded :=
  let n := x.slots.length / 86070 * 4410
  { x with slots := x.slots.take (x.slots.length - n) ++ (List.range n).map fun i => (bit free i, true) }

/-- Decode a frame from the ratios of its coded bits and of those that follow, whose code and base may be another plan's (R207, R210,
R212, R214). -/
def decodeFrame (h code h2 code2 iter : Nat) (hist : List (List (List Int))) (here ahead : List Int) : RxDecoded :=
  let m := baseM h
  let c := codedBits m
  let m2 := baseM h2
  let gs := softGroups m code c here
  let next := cut 80 (softGroups m2 code2 (codedBits m2) ahead)
  let n := ceilDiv (groupsOf c) 80
  let r := decodePositions code iter n (c / 50) hist (cut 80 gs ++ next)
  let slots := decodedSlots m code c r.1
  let a := decodePosition code2 iter 80 r.2 next
  let words := r.1.flatMap (·.words)
  { slots := slots, after := decodedSlots m2 code2 (codedBits m2) [a], hist := r.2,
    corrected := ((here.zip slots).filter fun e => decide (e.1 < 0) != e.2.1).length,
    outerCorr := (words.filter fun w => w == some 1 || w == some 2).length,
    outerFail := (words.filter (·.isNone)).length,
    unsat := match r.1.getLast? with | some x => !x.unsat.isEmpty | none => false }

/-- A byte of eight bits, most significant first. -/
def bitsByte (l : List Bool) : Byte := BitVec.ofNat 8 (bitsNat l)

/-- The deframer: frame k's matcher bits from its blocks, the first of which began in the frame before and the last of which ends in the
frame after; its sign bits; descrambled; overhead and payload area (R141, R221 to R224, R233). -/
def deframe (sc h code k : Nat) (tail : List (Nat × Bool)) (x : RxDecoded) : RxInfo :=
  let m := baseM h
  let amps := amplitudesOf m x.slots
  let past := 344280 * k % 512
  let all := (List.replicate (past - tail.length) (1, true) ++ tail.drop (tail.length - past)) ++ amps
  let rest := all.length % 512
  let blocks := cut 512 (all ++ (amplitudesOf m x.after).take ((512 - rest) % 512))
  let dm := blocks.flatMap fun b => let mk := b.any (·.2); (blockBits h (b.map (·.1))).map fun v => (v, mk)
  let skip := dmStart h k - 344280 * k / 512 * (16 * h)
  let l := (dm.drop skip).take (dmBits h k) ++ signsOf m code (codedBits m) x.slots
  let clear := scramble sc (l.map (·.1))
  let bytes := (cut 8 clear).map bitsByte
  let marks := (cut 8 (l.map (·.2))).map (·.any id)
  let n := 6250 * slotsOf h code
  { oh := bytes.take 512, payload := slice bytes 512 n,
    marks := (List.range n).filter fun i => marks.getD (512 + i) false,
    tail := if k % 256 = 255 then [] else all.drop (all.length - rest) }

end Sys2Proof.Machine
end

