-- ==== Sys2Proof/Machine/Equal.lean ====
section
/-! DEFINITION. Dispersion, polarisation and carrier recovery, line and subcarrier acquisition, laser feedback (R161 to R197). -/

namespace Sys2Proof.Machine

/-- Change the line's state. -/
def Dev.modLine (d : Dev) (f : LineSt → LineSt) : Dev := { d with line := f d.line }

/-- Change the equaliser of a subcarrier. -/
def Dev.modEq (d : Dev) (n : Nat) (f : EqSc → EqSc) : Dev := d.modSc n fun s => { s with eq := f s.eq }

/-- Raise an event about the line. -/
def Dev.raiseLine (d : Dev) (ev : Ev) (info : Nat) : Dev := d.raiseAt ev ⟨.line, 0⟩ info

/-- The awake subcarriers whose receive side is continuous (R179, R190). -/
def Dev.contScs (d : Dev) : List Nat := d.liveScs.filter fun n => !d.rxShared n

/-- The subcarriers in `TRACK`. -/
def Dev.tracking (d : Dev) : List Nat := d.contScs.filter fun n => (d.sc n).eq.state == .track

/-- A wideband tile is awake. -/
def Dev.wbAwake (d : Dev) : Bool := (List.range 4).any fun n => d.runs (.wb n)

/-! ### Subcarrier acquisition (R190, R191) -/

/-- The equaliser is in `GRID` or `TRACK`, where the aligner works (R238). -/
def EqState.aligns : EqState → Bool
  | .grid | .track => true
  | _ => false

/-- The taps that `PRECONV` starts with: those held, else identity taps turned by the attempt (R190). -/
def EqSc.start (e : EqSc) : Taps := e.held.getD (.identity e.attempt)

/-- A subcarrier's equaliser enters a state: what is measured within a state starts again; leaving `TRACK`, the taps of 4 frames before are
held; `PRECONV` loads those held or identity taps; and the aligner follows (R190, R238) (DESIGN CHOICE, assumption 84). -/
def Dev.eqGo (d : Dev) (n : Nat) (st : EqState) : Dev :=
  let was := (d.sc n).eq.state
  let d := d.modSc n fun s =>
    let e := { s.eq with
      state := st, since := d.now, grid := none, low := 0, held := if was = .track then s.eq.hist[4]? else s.eq.held,
      attempt := if was = .track then 0 else s.eq.attempt,
      left := if was = .waitLine ∧ st = .preconv then d.now else s.eq.left,
      car := if st.aligns then s.eq.car else {}, mixAt := if st.aligns then s.eq.mixAt else none, modErr := none,
      arrived := if st.aligns then s.eq.arrived else none, rateFrom := if st.aligns then s.eq.rateFrom else none }
    { s with
      eq := if st = .preconv then { e with taps := e.start, hist := [] } else e,
      snr := { s.snr with whole := s.snr.whole && was != .track } }
  let d := if was = .track ∧ d.tracking = [] then d.modLine fun l => { l with outSince := d.now } else d
  if was.aligns && !st.aligns then d.alignWait n 4 else if !was.aligns && st.aligns then d.alignSearch n else d

/-- `WAIT_LINE`; a line that is `LOCKED` already, with the subcarrier's wideband tile awake, is left for `PRECONV` at once (R17, R190). -/
def Dev.eqWait (d : Dev) (n : Nat) : Dev :=
  let d := d.eqGo n .waitLine
  if d.line.state = .locked ∧ d.bandUp n then d.eqGo n .preconv else d

/-- A cold start of another attempt (R190). -/
def Dev.eqRetry (d : Dev) (n : Nat) : Dev :=
  ((d.modEq n fun e => { e with attempt := e.attempt + 1 }).eqGo n .preconv).modEq n fun e => { e with taps := .identity e.attempt }

/-- `TRACK`: the episode ends; the first one since the line locked starts the feedback windows (R185, R190). -/
def Dev.eqTrack (d : Dev) (n : Nat) : Dev :=
  let d := d.eqGo n .track
  let us := sat 16 ((d.now - (d.sc n).eq.left) / 25)
  let d := d.modEq n fun e => { e with count := (e.count + 1) % 2 ^ 32, time := us, lost := false }
  let d := if d.line.reached then d else d.modLine fun l => { l with reached := true, dwell := [d.now, d.now], offs := [[], []] }
  d.raiseSc .eqAcquired n us

/-- Convergence is lost: a warm start, and the event once per episode (R190, R191). -/
def Dev.eqLost (d : Dev) (n why : Nat) : Dev :=
  let said := (d.sc n).eq.lost
  let d := (d.eqGo n .preconv).modEq n fun e => { e with lost := true }
  if said then d else d.raiseSc .eqLost n why

/-- The pilot SNR in 0.01 dB of one frame in `TRACK`, and whether its outputs correlate with a magnitude above 0.9 (R191). -/
def Dev.convFrame (d : Dev) (n snr : Nat) (sing : Bool) : Dev :=
  if (d.sc n).eq.state ≠ .track then d else
  let low := if snr < 10 * d.conf .convMinSnr n then (d.sc n).eq.low + 1 else 0
  let d := d.modEq n fun e => { e with low := low }
  if low ≥ 4 then d.eqLost n 1 else if sing then d.eqLost n 2 else d

/-- The frame's measurements meet a loss criterion (R191). -/
def Dev.convBreaks (d : Dev) (n snr : Nat) (sing : Bool) : Bool :=
  (d.sc n).eq.state == .track && (decide ((d.sc n).eq.low ≥ 3 ∧ snr < 10 * d.conf .convMinSnr n) || sing)

/-- CONVERGENCE_LOST, with a frame's pilot SNR in 0.01 dB and X-Y correlation in 0.01 (R191). -/
def execConvergenceLost (sc snr corr : Nat) (s : State) : Host.Outcome State Fault Refusal :=
  s.run fun d => if d.contScs.contains sc && d.convBreaks sc snr (decide (corr > 90)) then d.convFrame sc snr (decide (corr > 90)) else d

/-- The pilot position mod 64 found in a frame in `GRID`: the same in two consecutive frames is the grid (R190). -/
def Dev.gridFrame (d : Dev) (n : Nat) (pos : Option Nat) : Dev :=
  if (d.sc n).eq.state ≠ .grid then d else
  match pos with
  | none => d.modEq n fun e => { e with grid := none }
  | some p => if (d.sc n).eq.grid = some (p % 64) then d.eqTrack n else d.modEq n fun e => { e with grid := some (p % 64) }

/-- AC cycles of 2^17 symbols (R192). -/
def preconvTime : Nat := 375

/-- The modulus error of an attempt lies below the convergence bound (R190) (DESIGN CHOICE, assumption 223). -/
def EqSc.converged (e : EqSc) : Bool := e.modErr.any fun m => decide (m < Config.convBound)

/-- PRECONV_ATTEMPT_END: the modulus error that the attempt has reached is judged (R190). -/
def execPreconvAttemptEnd (sc : Nat) (s : State) : Host.Outcome State Fault Refusal :=
  s.run fun d =>
    if d.contScs.contains sc && (d.sc sc).eq.state == .preconv then
      let d := d.at ((d.sc sc).eq.since + preconvTime)
      if (d.sc sc).eq.converged then d.eqGo sc .grid else d.eqRetry sc
    else d

/-- GRID_TIMEOUT: 8 frames without a grid (R190). -/
def execGridTimeout (sc : Nat) (s : State) : Host.Outcome State Fault Refusal :=
  s.run fun d =>
    if d.contScs.contains sc && (d.sc sc).eq.state == .grid then (d.at ((d.sc sc).eq.since + 2000)).eqRetry sc else d

/-! ### Dispersion (R167 to R172) -/

/-- Twice the band centre of a wideband tile in GHz from f_c; in narrow mode that of the receive group (R168). -/
def Dev.bandCentre2 (d : Dev) (narrow : Bool) (n : Nat) : Int :=
  if narrow then 9 * (2 * d.conf .rxFirst + d.conf .rxCount - 32 : Int) else 144 * (n : Int) - 216

/-- `D_tile` in ps/nm (R168). -/
def Dev.dTile (d : Dev) (narrow : Bool) (n : Nat) (cd slope : Int) : Int := cd + roundDiv (slope * d.bandCentre2 narrow n) 2000

/-- The largest magnitude a class compensates, in ps/nm (R167). -/
def classLimit (c : Nat) : Nat := if c = 0 then 5000 else if c = 1 then 20000 else if c = 2 then 60000 else 120000

/-- The settings of the wideband tiles as they wake: class A, `CD` 0, `SLOPE` 0 (R167); a tile that joins others takes the
settings in force. -/
def Dev.wbWoke (d : Dev) (n : Nat) : Dev :=
  if (List.range 4).any fun k => k != n && d.runs (.wb k) then
    d.modLine fun l => { l with cdTiles := l.cdTiles.set n (d.dTile d.narrow n l.cd l.slope) }
  else
    (((d.setConf .cdClass 0 0).setConf .cd 0 0).setConf .cdSlope 0 0).modLine fun l =>
      { l with cls := 0, cd := 0, slope := 0, cdApplied := 0, cdTiles := [0, 0, 0, 0], clsWait := none }

/-- Move a value towards a target by at most 100 (R170). -/
def ramp100 (v goal : Int) : Int := if goal > v + 100 then v + 100 else if goal < v - 100 then v - 100 else goal

/-- One device frame of the dispersion ramp (R170). -/
def Dev.cdRamp (d : Dev) : Dev :=
  if d.line.clsWait.isSome then d else
  d.modLine fun l => { l with
    cdApplied := ramp100 l.cdApplied l.cd,
    cdTiles := (List.range 4).map fun n => ramp100 (l.cdTiles.getD n 0) (d.dTile d.narrow n l.cd l.slope) }

/-- Sets that a run in progress has written by now (R510). -/
def Dev.setsAt (d : Dev) (r : CaptRun) : Nat :=
  if r.started then ((d.tcTotal d.now - r.startTc) * r.rate / (100000000000000000 * 2 ^ r.stages)).toNat else 0

/-- A class change inserts or drops samples at the tap of a capture run after dispersion compensation: the first set built after it is
noted (R514). -/
def Dev.captDisc (d : Dev) : Dev :=
  { d with mon := { d.mon with capt := d.mon.capt.map fun r =>
    if r.tap = 1 ∧ r.started ∧ r.discontinuity = 0xFFFFFFFF then
      { r with discontinuity := sat 32 (d.setsAt r + 1) }
    else r } }

/-- The class change takes effect: values at once, without a ramp; every expected frame position moves by 3.5 × Δ symbols (R171). -/
def Dev.cdSwitch (d : Dev) : Dev :=
  let old := d.line.cls
  let cls := d.conf .cdClass
  let cd := signed 32 (d.conf .cd)
  let slope := signed 16 (d.conf .cdSlope)
  let shift := 7 * ((classTerm cls : Int) - classTerm old) / 2
  let d := d.liveScs.foldl (fun d n =>
    d.modFr n fun f => { f with pos := (((f.pos : Int) + shift) % 87500).toNat }) d
  let d := d.modLine fun l => { l with
    cls := cls, cd := cd, slope := slope, cdApplied := cd, clsWait := none, clsAt := some d.now,
    cdTiles := (List.range 4).map fun n => d.dTile d.narrow n cd slope }
  d.ttClass.captDisc.raiseLine .cdClassChanged (old + 4 * cls)

/-- A commit's dispersion settings, already in the configuration, at its device frame boundary; answers the subcarrier whose
receive frame boundary a class change waits for (R170, R171). -/
def Dev.cdCommit (d : Dev) (es : List Entry) : Option Nat × Dev :=
  if (staged? es .cdClass 0).isNone then (none, d)
  else if d.conf .cdClass = d.line.cls then
    (none, d.modLine fun l => { l with cd := signed 32 (d.conf .cd), slope := signed 16 (d.conf .cdSlope) })
  else match d.liveScs.find? fun n => (d.sc n).fr.state == .inFrame with
    | some n => (some n, d.modLine fun l => { l with clsWait := some n })
    | none => (none, d.cdSwitch)

/-- EQ.CD_SET (R169). -/
def verbEqCdSet : Verb where
  code := 0x1301
  role := .operator
  len := 12
  params := [⟨0, 2, 6, .rsv⟩, ⟨1, 0, 24, .rsv⟩, ⟨4, 0, 32, .srange (-120000) 120000⟩, ⟨8, 0, 16, .srange (-30000) 30000⟩,
    ⟨10, 0, 16, .rsv⟩]

/-- What refuses `EQ.CD_SET` (R169). -/
def eqCdSetCheck (c : Call) (d : Dev) : Option Status :=
  let narrow := d.narrowTarget
  let tiles := if narrow then [0] else [0, 1, 2, 3]
  firstOf [
    (tiles.any fun n => decide ((d.dTile narrow n (c.ps 4 0 32) (c.ps 8 0 16)).natAbs > classLimit (c.p 0 0 2)), .outOfRange),
    ((List.range 4).all fun n => d.lacks (.wb n), .state)]

/-- EQ_CD_SET (R169). -/
def execEqCdSet (c : HostCall) (s : State) : Host.Outcome State Fault Refusal :=
  runVerb verbEqCdSet (stageOn ⟨.line, 0⟩ eqCdSetCheck fun c _ =>
    [fv .cdClass 0 (c.p 0 0 2) 2, fv .cd 0 (c.p 4 0 32) 32, fv .cdSlope 0 (c.p 8 0 16) 16]) c s

/-- EQ.CD_SCAN (R172). -/
def verbEqCdScan : Verb where
  code := 0x1302
  role := .operator
  len := 12
  params := [⟨0, 0, 32, .srange (-120000) 120000⟩, ⟨4, 0, 32, .srange (-120000) 120000⟩, ⟨8, 0, 16, .range 50 5000⟩,
    ⟨10, 0, 16, .rsv⟩]

/-- The number N_c of coarse candidates (R172). -/
def ScanSt.coarse (x : ScanSt) : Nat := ((x.max - x.min) / x.step).toNat + 1

/-- When a scan ends (R172). -/
def ScanSt.endsAt (x : ScanSt) : Nat :=
  if x.noSignal then x.startAt else x.startAt + msCycles 1 + usCycles 100 * (x.coarse + 41)

/-- Start a scan (R172) (DESIGN CHOICE, assumption 87). -/
def eqCdScan (c : Call) (d : Dev) : Ans × Dev :=
  if c.ps 4 0 32 < c.ps 0 0 32 ∨ c.p 8 0 16 % 10 ≠ 0 then (.now .badParameter, d)
  else if !d.runs .core ∨ !d.wbAwake ∨ d.line.scan.isSome then (.now .state, d)
  else (.accept, d.modLine fun l => { l with
    scan := some ⟨c.ps 0 0 32, c.ps 4 0 32, c.p 8 0 16, d.now, !l.signal, c.slot, (d.slot c.slot).serial, c.seq⟩ })

/-- EQ_CD_SCAN (R172). -/
def execEqCdScan (c : HostCall) (s : State) : Host.Outcome State Fault Refusal := runVerb verbEqCdScan (onDev eqCdScan) c s

/-- The candidates evaluated by a scan that ran so long. -/
def ScanSt.doneBy (x : ScanSt) (now : Nat) : Nat := Nat.min (x.coarse + 41) ((now - x.startAt - msCycles 1) / usCycles 100)

/-- A scan ends without a result (R172) (DESIGN CHOICE, assumption 87). -/
def Dev.scanFail (d : Dev) (st : Status) : Dev :=
  match d.line.scan with
  | none => d
  | some x =>
    (d.modLine fun l => { l with scan := none, scanValid := false, scanCands := x.doneBy d.now }).endOp x.slot x.serial x.seq st

/-- The fine candidates around a coarse one: 41, less those beyond ±120,000 ps/nm (R172). -/
def ScanSt.fine (x : ScanSt) (best : Int) : List Int :=
  ((List.range 41).map fun (k : Nat) => best - 2 * x.step + (k : Int) * (x.step / 10 : Nat)).filter fun c => decide (c.natAbs ≤ 120000)

/-- The first place of the largest of a list. -/
def argMax (l : List Nat) : Nat := (l.findIdx? (· == l.foldl max 0)).getD 0

/-- Twice the median: the middle of the values in order, of an even number the mean of the middle two (R172, assumption 87). -/
def median2 (l : List Nat) : Nat :=
  let s := l.mergeSort
  s.getD ((s.length - 1) / 2) 0 + s.getD (s.length / 2) 0

/-- A ratio of powers in 0.01 dB to the nearest. -/
def ratio100 (a b : Nat) : Nat := if a ≤ b then 0 else (log10Floor (a ^ 2000 / b ^ 2000) 18 0 + 1) / 2

/-- The vertex of the parabola through the best of scored candidates and its two neighbours, to the nearest 1 ps/nm; none where it has not
both, or the three do not bend (R172). -/
def vertex (l : List (Int × Nat)) : Option Int :=
  match argMax (l.map (·.2)) with
  | 0 => none
  | k + 1 =>
    match l[k]?, l[k + 1]?, l[k + 2]? with
    | some a, some b, some c =>
      let bend : Int := 2 * b.2 - a.2 - c.2
      if bend = 0 then none else some (roundDiv (2 * b.1 * bend + (c.1 - b.1) * ((c.2 : Int) - a.2)) (2 * bend))
    | _, _, _ => none

/-- CD_SCAN_END: the scan's scores give an estimate, or no distinct optimum; an estimate whose parabola the scores do not give is open
(R172, assumption 87). -/
def execCdScanEnd (m : ScanMeas) (s : State) : Host.Outcome State Fault Refusal :=
  s.run fun d =>
    match d.line.scan with
    | none => d
    | some x =>
      let d := d.at x.endsAt
      if x.noSignal then d.scanFail .eqNoSignal else
      let coarse := (List.range x.coarse).map fun k => m.coarse.getD k 0
      let b := argMax coarse
      let med := median2 coarse
      let found := decide (med ≤ coarse.getD b 0)
      let fine := x.fine (x.min + b * (x.step : Int))
      let v := vertex (fine.mapIdx fun k c => (c, m.fine.getD k 0))
      let f := d.draw
      let est := v.getD (signed 32 (f.1 % 2 ^ 32))
      let d := if found && v.isNone then f.2 else d
      let d := d.modLine fun l => { l with
        scan := none, scanValid := found, scanPeak := sat 16 (ratio100 (2 * coarse.getD b 0) med), scanCands := x.coarse + fine.length,
        scanEst := if found then est else l.scanEst }
      let d := if found then d.raiseLine .cdScanDone (satS 16 (est / 10)) else d
      d.endOp x.slot x.serial x.seq (if found then .ok else .cdNotFound)

/-! ### Line acquisition (R165, R189) -/

/-- The line leaves `LOCKED` or `FREQ_ACQ`, its subcarriers go to `WAIT_LINE` keeping their taps; the event says why, where it
leaves `LOCKED` (R189, R190) (DESIGN CHOICE, assumption 88). -/
def Dev.lineGo (d : Dev) (st : LineState) (why : Nat) : Dev :=
  let was := d.line.state
  let d := d.modLine fun l => { l with state := st, reached := false, rangeEv := false, freqOffset := none, rateOffset := none }
  let d := d.contScs.foldl (fun d n => if (d.sc n).eq.state = .off then d else d.eqGo n .waitLine) d
  if was = .locked ∧ why ≠ 0 then d.raiseLine .lineLost why else d

/-- The signal becomes absent: the line is `NO_SIGNAL` and a running scan ends (R165, R172, R189). -/
def Dev.signalGone (d : Dev) : Dev :=
  let d := d.modLine fun l => { l with signal := false }
  let d := if d.line.state = .freqAcq ∨ d.line.state = .locked then d.lineGo .noSignal 1 else d
  d.scanFail .eqNoSignal

/-- Some awake ADC of an interval lies below `SIG_MIN`; one that gives nothing but zeros lies below every level (R165). -/
def Dev.anyBelow (d : Dev) (ms : List LevelMeas) : Bool :=
  ms.any fun m => m.sum.sq == 0 || decide (decibel (2 * m.sum.sq) (d.intervalSamples * 512 ^ 2) < signed 16 (d.conf .sigMin))

/-- Signal presence at the end of an interval (R165, R189). -/
def Dev.presence (d : Dev) (ms : List LevelMeas) : Dev :=
  if !d.runs .core then d
  else if d.anyBelow ms then
    let d := d.modLine fun l => { l with below := min 2 (l.below + 1) }
    if d.line.below = 2 ∧ d.line.signal then d.signalGone else d
  else
    let d := d.modLine fun l => { l with below := 0, signal := true }
    if d.line.state = .noSignal then d.modLine fun l => { l with state := .freqAcq, rangeEv := false } else d

/-- The samples of all four ADCs. -/
def fullLevels (ms : List LevelMeas) : Bool := ms.length == 4

/-- LEVEL_INTERVAL: levels, alarms and signal presence (R107, R108, R165). -/
def execLevelInterval (ms : List LevelMeas) (s : State) : Host.Outcome State Fault Refusal :=
  s.run fun d => if fullLevels ms then (d.levelInterval ms).presence ms else d

/-- SIGNAL_LOST: the second consecutive interval with an ADC below `SIG_MIN` (R165). -/
def execSignalLost (ms : List LevelMeas) (s : State) : Host.Outcome State Fault Refusal :=
  s.run fun d =>
    if d.runs .core && fullLevels ms && d.anyBelow ms && d.line.signal && decide (d.line.below ≥ 1) then
      (d.levelInterval ms).presence ms
    else d

/-- With the line `LOCKED`, the subcarriers that wait and whose wideband tile is awake go to `PRECONV` (R17, R190) (DEDUCED, assumption 197). -/
def Dev.bandStart (d : Dev) : Dev :=
  if d.line.state ≠ .locked then d else
  d.contScs.foldl (fun d n => if (d.sc n).eq.state = .waitLine ∧ d.bandUp n then d.eqGo n .preconv else d) d

/-- Subcarriers whose wideband tile is no longer awake wait, keeping their taps (R17, R190) (DEDUCED, assumption 197). -/
def Dev.bandStop (d : Dev) : Dev :=
  d.contScs.foldl (fun d n => if (d.sc n).eq.state ≠ .off ∧ (d.sc n).eq.state ≠ .waitLine ∧ !d.bandUp n then d.eqGo n .waitLine else d) d

/-- COARSE_ESTIMATE_FORMED, with the estimate in MHz: within range the line locks, else it is estimated again (R181, R189). -/
def execCoarseEstimateFormed (est : Int) (s : State) : Host.Outcome State Fault Refusal :=
  s.run fun d =>
    if d.line.state ≠ .freqAcq then d
    else if est.natAbs > (if d.narrow then 2000 else 3000) then
      if d.line.rangeEv then d
      else (d.modLine fun l => { l with rangeEv := true }).raiseLine .freqRange (satS 16 (est / 10))
    else
      let d := d.modLine fun l => { l with
        state := .locked, reached := false, outSince := d.now, freqOffset := some est, dwell := [d.now, d.now], offs := [[], []] }
      let d := d.raiseLine .lineLocked (unsigned 16 (est / 10))
      d.bandStart

/-- LINE_TRACK_LOSS: every awake continuous subcarrier has been out of `TRACK` for 8 frames (R189). -/
def execLineTrackLoss (s : State) : Host.Outcome State Fault Refusal :=
  s.run fun d =>
    if d.line.state = .locked ∧ d.line.reached ∧ d.tracking = [] then
      (d.at (d.line.outSince + 2000)).lineGo .freqAcq 2
    else d

/-- The converter core and a wideband tile are awake: the line leaves `IDLE`; a line that is `LOCKED` takes in the tile's subcarriers (R189,
R190). -/
def Dev.lineWoke (d : Dev) : Dev :=
  if d.line.state = .idle ∧ d.runs .core ∧ d.wbAwake then
    d.modLine fun l => { l with state := .noSignal, signal := false, below := 0, reached := false, rangeEv := false }
  else d.bandStart

/-- A wideband tile or the core has gone to sleep: with the core or the last tile the line is `IDLE`, of which no event tells, and a scan
ends with `STATE` (R172, R189). -/
def Dev.lineSlept (d : Dev) : Dev :=
  if d.line.state = .idle then d else
  if d.runs .core ∧ d.wbAwake then d.bandStop else
  let d := d.lineGo .idle 0
  (d.modLine fun l => { l with signal := false, below := 0 }).scanFail .state

/-- A subcarrier tile has woken; its first degrade window takes the committed threshold (R148, R190, R216, R225) (DESIGN CHOICE,
assumption 84). -/
def Dev.scWoke (d : Dev) (n : Nat) : Dev :=
  let d := d.modSc n fun _ => {
    tx := { start := d.frameNo d.now + 1 }, eq := { sopFrom := d.now },
    fec := { winFrom := d.now, winMant := d.conf .sdMant n, winExp := d.conf .sdExp n } }
  if d.rxShared n then d else d.eqWait n

/-! ### Staged settings -/

/-- EQ.FRONT_END (R166). -/
def verbEqFrontEnd : Verb where
  code := 0x1304
  role := .operator
  len := 8
  groups := true
  params := [⟨0, 0, 32, .patch [(.converter, 0, 7)]⟩, ⟨4, 0, 16, .srange (-2500) 2500⟩, ⟨6, 0, 8, .srange (-100) 100⟩,
    ⟨7, 0, 8, .srange (-50) 50⟩]

/-- The meaning of `EQ.FRONT_END`: quadrature phase belongs to Q lanes. -/
def bodyEqFrontEnd : Body := stageEach (fun c _ i => if i % 2 = 0 ∧ c.p 7 0 8 ≠ 0 then some .badParameter else none) fun c _ i =>
  [fv .feSkew i (c.p 4 0 16) 16, fv .feGain i (c.p 6 0 8) 8, fv .fePhase i (c.p 7 0 8) 8]

/-- EQ_FRONT_END (R166). -/
def execEqFrontEnd (c : HostCall) (s : State) : Host.Outcome State Fault Refusal := runVerb verbEqFrontEnd bodyEqFrontEnd c s

/-- The static front-end corrections return to their defaults as the core wakes (R166). -/
def Dev.frontEndDefaults (d : Dev) : Dev :=
  (List.range 8).foldl (fun d i => ((d.setConf .feSkew i 0).setConf .feGain i 0).setConf .fePhase i 0) d

/-- EQ.POL_SET (R177). -/
def verbEqPolSet : Verb where
  code := 0x1305
  role := .operator
  len := 8
  groups := true
  params := [⟨0, 0, 32, .patch [(.subcarrier, 0, 31)]⟩, ⟨4, 1, 7, .rsv⟩, ⟨5, 0, 8, .range 10 100⟩, ⟨6, 0, 8, .range 1 150⟩,
    ⟨7, 0, 8, .rsv⟩]

/-- The meaning of `EQ.POL_SET`. -/
def bodyEqPolSet : Body := stageEach (fun _ _ _ => none) fun c _ n =>
  [fv .sopMode n (c.p 4 0 1) 1, fv .convMinSnr n (c.p 5 0 8) 8, fv .sopAlarm n (c.p 6 0 8) 8]

/-- EQ_POL_SET (R177). -/
def execEqPolSet (c : HostCall) (s : State) : Host.Outcome State Fault Refusal := runVerb verbEqPolSet bodyEqPolSet c s

/-- EQ.LINE_SET (R186). -/
def verbEqLineSet : Verb where
  code := 0x1306
  role := .operator
  len := 8
  params := [⟨0, 0, 16, .srange (-5000) (-1000)⟩, ⟨2, 0, 16, .range 10 2000⟩, ⟨4, 0, 16, .range 10 10000⟩,
    ⟨6, 0, 16, .range 10 10000⟩]

/-- EQ_LINE_SET (R186). -/
def execEqLineSet (c : HostCall) (s : State) : Host.Outcome State Fault Refusal :=
  runVerb verbEqLineSet (stageOn ⟨.line, 0⟩ (fun _ _ => none) fun c _ =>
    [fv .sigMin 0 (c.p 0 0 16) 16, fv .fbThresh 0 (c.p 2 0 16) 16, fv .fbDwell 0 (c.p 4 0 16) 16,
      fv .fbSettle 0 (c.p 6 0 16) 16]) c s

/-- The gain and phase of point j of lane k in the buffer. -/
def respPoint (b : List Byte) (k j : Nat) : Int × Int :=
  (signed 16 (leNat (slice b (132 * k + 4 * j) 2)), signed 16 (leNat (slice b (132 * k + 4 * j + 2) 2)))

/-- The points of the four lanes in a buffer. -/
def respPoints (b : List Byte) : List (Int × Int) := (List.range 132).map fun i => respPoint b (i / 33) (i % 33)

/-- EQ.TX_RESPONSE (R188) (DESIGN CHOICE, assumption 216). -/
def verbEqTxResponse : Verb where
  code := 0x1307
  role := .operator
  len := 1
  ext := .either
  params := [⟨16, 1, 7, .rsv⟩]
  codes := fun c => c.p 16 0 1 == 0 && (!c.ext || c.extLen != 528)
  ranges := fun c => c.p 16 0 1 == 0 && (respPoints c.bytes).any fun p => decide (p.1.natAbs > 1200 ∨ p.2.natAbs > 18000)

/-- What refuses `EQ.TX_RESPONSE` (R188) (DESIGN CHOICE, assumption 82). -/
def eqTxResponseCheck (c : Call) (_ : Dev) : Option Status :=
  if c.p 16 0 1 = 1 then none
  else
    let gs : List Int := (respPoints c.bytes).map (·.1)
    if (gs.foldl (fun a b => if a < b then b else a) (-1200)) - (gs.foldl (fun a b => if b < a then b else a) 1200) > 1200 then some .outOfRange
    else none

/-- EQ_TX_RESPONSE (R188). -/
def execEqTxResponse (c : HostCall) (s : State) : Host.Outcome State Fault Refusal :=
  runVerb verbEqTxResponse (stageOn ⟨.line, 0⟩ eqTxResponseCheck fun c _ =>
    (List.range 132).flatMap fun i =>
      let p := if c.p 16 0 1 = 1 then (0, 0) else respPoint c.bytes (i / 33) (i % 33)
      [fv .respGain i (unsigned 16 p.1) 16, fv .respPhase i (unsigned 16 p.2) 16]) c s

/-! ### EQ.REACQUIRE (R189, R190, R193) -/

/-- EQ.REACQUIRE (R193). -/
def verbEqReacquire : Verb where
  code := 0x1308
  role := .operator
  len := 4
  groups := true
  params := [⟨0, 0, 32, .patch [(.line, 0, 0), (.subcarrier, 0, 31)]⟩]

/-- Acquisition of the line starts again (R189) (DESIGN CHOICE, assumption 86). -/
def Dev.lineReacquire (d : Dev) : Dev :=
  if d.line.state = .idle then d else (d.lineGo .noSignal 0).modLine fun l => { l with below := 0 }

/-- Acquisition of a subcarrier starts again, its held taps discarded (R190). -/
def Dev.scReacquire (d : Dev) (n : Nat) : Dev :=
  if d.line.state = .locked ∧ (d.sc n).eq.state ≠ .off then
    (d.eqGo n .preconv).modEq n fun e => { e with held := none, taps := .identity e.attempt }
  else d

/-- The meaning of `EQ.REACQUIRE`; a group of the line class stands for the line. -/
def bodyEqReacquire : Body := onDev fun c d =>
  let l := c.insts d
  if c.cls = .line then
    if d.line.state = .idle then (.now .state, d) else (.now .ok, d.lineReacquire)
  else if l.any fun n => !d.runs (.sc n) then (.now .state, d)
  else (.now .ok, l.foldl Dev.scReacquire d)

/-- EQ_REACQUIRE (R193). -/
def execEqReacquire (c : HostCall) (s : State) : Host.Outcome State Fault Refusal := runVerb verbEqReacquire bodyEqReacquire c s

/-! ### Estimates and alarms of a subcarrier (R176, R182) -/

/-- `SOP_RATE`: the peak over the last second (R195) (DESIGN CHOICE, assumption 83). -/
def EqSc.sopRate (e : EqSc) : Nat := e.sop.foldl max 0

/-- SOP_WINDOW: the peak rate in 0.1 Mrad/s that the taps have shown in a 10 ms window sets or sustains the alarm (R176). -/
def execSopWindow (sc : Nat) (s : State) : Host.Outcome State Fault Refusal :=
  s.run fun d =>
    if !d.contScs.contains sc then d else
    let d := d.at ((d.sc sc).eq.sopFrom + msCycles 10)
    let rate := (d.sc sc).eq.sopPeak
    let d := d.modEq sc fun e => { e with sop := (rate :: e.sop).take 100, sopPeak := 0, sopFrom := d.now }
    let e := (d.sc sc).eq
    if rate > d.conf .sopAlarm sc then
      let ev := !e.sopAlarm && d.oncePerSecond e.sopAt
      let d := d.modEq sc fun e => { e with sopAlarm := true, sopOver := d.now, sopAt := if ev then some d.now else e.sopAt }
      if ev then d.raiseSc .sopAlarm sc (sat 16 e.sopRate) else d
    else d

/-- SOP_ALARM_CLEAR_TIMEOUT: 1 s with no window above the threshold (R176). -/
def execSopAlarmClearTimeout (sc : Nat) (s : State) : Host.Outcome State Fault Refusal :=
  s.run fun d =>
    if d.contScs.contains sc && (d.sc sc).eq.sopAlarm then
      let d := d.at ((d.sc sc).eq.sopOver + secCycles 1)
      (d.modEq sc fun e => { e with sopAlarm := false }).raiseSc .sopAlarmClear sc (sat 16 (d.sc sc).eq.sopRate)
    else d

/-- Cycle slips of a subcarrier: counted, and the event at most once per second with those of the last second (R182). -/
def Dev.slips (d : Dev) (n k : Nat) : Dev :=
  if k = 0 then d else
  let r := (d.sc n).eq.slipsSaid.add d.now k
  let d := (d.modEq n fun e => { e with slips := (e.slips + k) % 2 ^ 32, slipsSaid := r.2 }).count (.sc n) 5 k
  match r.1 with
  | some c => d.raiseSc .cycleSlip n (sat 16 c)
  | none => d

/-- A value held within ±b. -/
def clampTo (b v : Int) : Int := if v > b then b else if v < -b then -b else v

/-- The taps as the free values of `Config` take them. -/
def Taps.nums (t : Taps) : List (List (Int × Int)) := [t.xx, t.xy, t.yx, t.yy].map fun l => l.map fun c => (c.re, c.im)

/-- The far end's symbol rate against the local nominal in 0.1 ppt, of whole frames that took so long in 10^-15 TC: within ±100 ppm, and
following an estimate before by at most 5 ppm/s (R178, assumption 223). -/
def rateOf (before : Option Int) (took : Int) : Int :=
  let frames := roundDiv took tcFrame
  let r := clampTo 1000000000 (roundDiv ((frames * tcFrame - took) * 10000000000000) took)
  match before with
  | some b => b + clampTo (500 * frames) (r - b)
  | none => r

/-- Timing recovery forms a multiframe's rate estimate from when its frames arrived (R178, R179). -/
def EqSc.timed (e : EqSc) : EqSc :=
  match e.arrived, e.rateFrom with
  | some t, some (t0, formed) =>
    if t0 < t then { e with rateFine := rateOf (if formed then some e.rateFine else none) (t - t0), rateFrom := some (t, true) } else e
  | some t, none => { e with rateFrom := some (t, false) }
  | none, _ => e

/-- The estimates of one received multiframe: of the taps and the rate, and the line's offsets and residual dispersion; the adaptive
front-end values move in `LOCKED` only and within their ranges (R163, R176, R178 to R183). -/
def Dev.eqMultiframe (d : Dev) (n : Nat) (m : MultiMeas) : Dev :=
  let d := d.modEq n fun e =>
    let t := e.taps.nums
    { e.timed with dgd := sat 16 (Config.tapsDgd t), pdl := sat 16 (Config.tapsPdl t), cdRes := Config.tapsCd t }
  let tr := d.tracking
  let d := d.modLine fun l => { l with
    freqOffset := if l.state = .locked then some m.lineFreq else none,
    rateOffset := if tr = [] then none else some (meanInt (tr.map fun k => (d.sc k).eq.rateFine)) }
  let d := if d.line.state ≠ .locked then d else d.modLine fun l => { l with
    iqGainX := clampTo 100 (m.iq.getD 0 0), iqGainY := clampTo 100 (m.iq.getD 1 0), iqPhaseX := clampTo 50 (m.iq.getD 2 0),
    iqPhaseY := clampTo 50 (m.iq.getD 3 0), skews := (List.range 4).map fun k => clampTo 200 (m.skews.getD k 0),
    offs := l.offs.modify 1 fun o => (d.now, 1000 * m.lineFreq) :: o.filter fun e => decide (d.now < e.1 + msCycles (d.conf .fbDwell)) }
  if tr = [] then d else
  let mean := meanInt (tr.map fun k => (d.sc k).eq.cdRes)
  if mean.natAbs > 1000 ∧ d.line.cdArmed then
    (d.modLine fun l => { l with cdArmed := false }).raiseLine .cdResidual (satS 16 mean)
  else if mean.natAbs < 500 then d.modLine fun l => { l with cdArmed := true } else d

/-- The measured laser position against the limit of the receive group, checked each received multiframe, of subcarrier n; the event gives
it in 10 MHz (R156, R157, R159, R180). -/
def Dev.narrowPosition (d : Dev) (n : Nat) : Dev :=
  match d.narrow, d.line.freqOffset with
  | true, some f =>
    let pos := signed 16 (d.conf .rxLo) - f
    let out := decide (pos.natAbs > narrowLimit (d.conf .rxCount))
    let ev := out && !d.line.loRange
    let d := d.modLine fun l => { l with loRange := out }
    if ev then d.raiseSc .narrowLoRange n (unsigned 16 (pos / 10)) else d
  | _, _ => d

/-! ### Laser feedback (R184, R185) -/

/-- Automatic corrections of a laser are computed in this role: 0 transmit, 1 local oscillator (R184). -/
def Dev.steers (d : Dev) (laser : Nat) : Bool :=
  match d.role with
  | .p2p => laser == 1
  | .leaf => true
  | _ => false

/-- When a correction of a laser can next fall due: a whole dwell window has passed, and the settling time since the last one (R185). -/
def Dev.lasDueAt (d : Dev) (b : Nat) : Nat :=
  let written := d.conv.lasWritten.getD b 0
  max d.now (max (d.line.dwell.getD b 0 + msCycles (d.conf .fbDwell)) (if written = 0 then 0 else written + msCycles (d.conf .fbSettle)))

/-- The mean in kHz of what was measured of a laser's offset over the `FB_DWELL` that ends at an instant (R185). -/
def Dev.lasMean (d : Dev) (b t : Nat) : Int :=
  meanInt (((d.line.offs.getD b []).filter fun e => decide (t < e.1 + msCycles (d.conf .fbDwell) ∧ e.1 ≤ t)).map (·.2))

/-- LASER_CORRECTION_DUE: the accumulated correction changes and its write is queued, or it is only counted; none falls
due while one waits for the bus (R185) (DESIGN CHOICE, assumption 224). -/
def execLaserCorrectionDue (local' : Bool) (s : State) : Host.Outcome State Fault Refusal :=
  s.run fun d =>
    let b := if local' then 1 else 0
    let f := d.lasMean b (d.lasDueAt b)
    if d.line.state ≠ .locked ∨ d.tracking = [] ∨ !d.steers b ∨ f.natAbs ≤ 1000 * d.conf .fbThresh ∨ d.conv.correcting b then d else
    let d := d.at (d.lasDueAt b)
    let d := (d.modLine fun l => { l with corrections := (l.corrections + 1) % 2 ^ 16 }).count .line 3
    if !(d.lasDescribed b && d.conf .lasEnable b == 1) then d else
    let step := clampTo 250000 f
    let a := d.conv.lasAcc.getD b 0 + (if local' then step else -step)
    let lim : Int := 1000 * d.conf .lasLimit b
    let above := decide (a.natAbs > lim)
    let a := if a > lim then lim else if a < -lim then -lim else a
    let d := d.modConv fun v => { v with lasAcc := v.lasAcc.set b a }
    let d := if above then d.raiseLine .laserLimit b else d
    d.lasCorrect b a step

/-! ### Status reads (R194, R195) -/

/-- EQ.LINE_STATUS (R194). -/
def verbEqLineStatus : Verb where
  code := 0x1309
  role := .observer
  len := 0

/-- The code of a line state (R194). -/
def LineState.code : LineState → Nat
  | .idle => 0 | .noSignal => 1 | .freqAcq => 2 | .locked => 3

/-- The value of largest magnitude. -/
def largest (l : List Int) : Int := l.foldl (fun a b => if a.natAbs < b.natAbs then b else a) 0

/-- The results of `EQ.LINE_STATUS` (R194). -/
def eqLineStatus (v : Dev) : Res :=
  let l := v.line
  res 32 [at' 0 0 2 l.state.code, at' 0 2 2 l.cls, at' 0 4 1 (b2n l.scan.isSome), fieldAtS 2 32 l.cdApplied,
    fieldAt 6 16 ((l.freqOffset.map (unsigned 16)).getD 0x8000), fieldAt 8 32 ((l.rateOffset.map (unsigned 32)).getD 0x80000000),
    fieldAt 12 16 ((l.farReport.map (unsigned 16)).getD 0x8000), fieldAtS 14 8 l.iqGainX, fieldAtS 15 8 l.iqGainY,
    fieldAtS 16 8 l.iqPhaseX, fieldAtS 17 8 l.iqPhaseY, fieldAtS 18 16 (largest l.skews), fieldAtS 20 32 (v.conv.lasAcc.getD 1 0),
    fieldAtS 24 32 (v.conv.lasAcc.getD 0 0), fieldAt 28 16 l.corrections]

/-- EQ_LINE_STATUS (R194). -/
def execEqLineStatus (c : HostCall) (s : State) : Host.Outcome State Fault Refusal :=
  runVerb verbEqLineStatus (onView fun _ v => if v.wbAwake then .now .ok (eqLineStatus v) else .now .state) c s

/-- EQ.STATUS (R195). -/
def verbEqStatus : Verb where
  code := 0x130A
  role := .observer
  len := 4
  groups := true
  reads := true
  params := [⟨0, 0, 32, .patch [(.subcarrier, 0, 31)]⟩]

/-- The code of an equaliser state (R195). -/
def EqState.code : EqState → Nat
  | .off => 0 | .waitLine => 1 | .preconv => 2 | .grid => 3 | .track => 4

/-- The result fields of a subcarrier's equaliser (R195) (DESIGN CHOICE, assumption 64). -/
def eqFields (v : Dev) (n : Nat) : List RField :=
  let e := (v.sc n).eq
  [rf (.severe [1, 2, 3, 4, 0]) 0 0 3 e.state.code, rf .conf 0 3 1 (v.conf .sopMode n), rf (.severe [1, 0]) 0 4 1 (b2n e.sopAlarm),
    rf .minU 2 0 16 (sat 16 e.sopRate), rf .minU 4 0 16 e.dgd, rf .minU 6 0 16 e.pdl, rf .maxAbs 8 0 16 (satS 16 e.cdRes),
    rf .maxAbs 10 0 16 (satS 16 (roundDiv e.freqKhz 100)), rf .minS 12 0 16 (satS 16 (roundDiv e.rateFine 100000)), rf .sum 14 0 32 e.slips, rf .sum 18 0 32 e.count,
    rf .minU 22 0 16 e.time, rf .sum 24 0 16 (sat 16 e.attempt)]

/-- The meaning of `EQ.STATUS`: a group read leaves `OFF` members out; a read of one unit reports the state. -/
def bodyEqStatus : Body := readEach 26 fun c v n =>
  let isGroup := match c.patch 0 with | some r => r.group | none => false
  if isGroup && (v.sc n).eq.state == .off then none else some (eqFields v n)

/-- EQ_STATUS (R195). -/
def execEqStatus (c : HostCall) (s : State) : Host.Outcome State Fault Refusal := runVerb verbEqStatus bodyEqStatus c s

/-- EQ.SCAN_READ (R195). -/
def verbEqScanRead : Verb where
  code := 0x130B
  role := .observer
  len := 0

/-- EQ_SCAN_READ (R195). -/
def execEqScanRead (c : HostCall) (s : State) : Host.Outcome State Fault Refusal :=
  runVerb verbEqScanRead (onView fun _ v =>
    let l := v.line
    .now .ok (res 10 [fieldAtS 0 32 l.scanEst, at' 4 0 1 (b2n l.scanValid), at' 4 1 1 (b2n l.scan.isSome), fieldAt 6 16 l.scanPeak,
      fieldAt 8 16 l.scanCands])) c s

end Sys2Proof.Machine
end

