-- ==== Sys2Proof/Machine/Fec.lean ====
section
/-! DEFINITION. Soft-decision coding: the decoder's frames, statistics and degrade alarm (R198 to R218). -/

namespace Sys2Proof.Machine

/-! ### One frame (R210, R212 to R214) -/

/-- Iterations of a decoder (R207). -/
def iterations (fast : Bool) : Nat := if fast then 5 else 10

/-- An uncorrectable frame is counted, and the event raised at most once per second with those of the last second (R218). -/
def Dev.fecUncorr (d : Dev) (n : Nat) : Dev :=
  let r := (d.sc n).fec.uncorrSaid.add d.now 1
  let d := d.modFec n fun f => { f with uncorr := (f.uncorr + 1) % 2 ^ 64, uncorrSaid := r.2 }
  match r.1 with
  | some c => d.raiseSc .fecUncorr n (sat 16 c)
  | none => d

/-- Count a decoded frame's findings; one that R209 flags is uncorrectable whatever they are (R209, R213 to R215). -/
def Dev.fecCount (d : Dev) (n : Nat) (t : TakenFrame) : Dev :=
  let m := t.found
  let coded := codedBits (baseM t.plan.h)
  let good := !(m.bad || t.due)
  let d := d.modFec n fun f => { f with
    frames := (f.frames + 1) % 2 ^ 64, outerCorrected := (f.outerCorrected + m.outerCorr) % 2 ^ 64,
    outerFailed := (f.outerFailed + m.outerFail) % 2 ^ 64,
    coded := if good then (f.coded + coded) % 2 ^ 64 else f.coded,
    corrected := if good then (f.corrected + m.corrected) % 2 ^ 64 else f.corrected,
    winCoded := if good then f.winCoded + coded else f.winCoded,
    winCorrected := if good then f.winCorrected + m.corrected else f.winCorrected }
  let d := d.count (.sc n) 3 m.outerCorr
  if good then d.count (.sc n) 4 m.corrected else (d.count (.sc n) 2).fecUncorr n

/-- Nothing is decoded: the history is erased, and the next frame will be the first (R210). -/
def Dev.fecIdle (d : Dev) (n : Nat) : Dev :=
  d.modFec n fun f => { f with decoding := false, first := true, hist := [], tail := [] }

/-- A commit that sets fast mode waits for the subcarrier's receive frame boundary: the frame that ends there is flagged (R209). -/
def Dev.fastDue (d : Dev) (n : Nat) : Bool :=
  d.conf .fecFast n == 0 && d.cfg.commits.any fun c => match c.phase with
    | .partway rx _ => rx.contains n && staged? c.entries .fecFast n == some 1
    | _ => false

/-- Noise over signal power of a frame's pilots, X and Y, as the demapper takes it (R206). -/
def noiseOf (s : PilotSum × PilotSum) : (Nat × Nat) × (Nat × Nat) :=
  let x := s.1.ratio
  let y := s.2.ratio
  ((x.2, x.1), (y.2, y.1))

/-- The plan of the frame that follows the present one: the shadow plan where it switches there (R151). -/
def ScSt.planAfter (s : ScSt) (p : Plan) : Plan :=
  if s.rx.state = .armed ∧ s.fr.k = some 254 then s.rx.shadow else p

/-- The decoder's work on a frame's symbols: the noise is that of the frame before, of a first frame its own (R206, R207, assumption
206). -/
def Dev.decode (d : Dev) (n : Nat) (p : Plan) (out ahead : List Cx2) (own : (Nat × Nat) × (Nat × Nat)) : RxDecoded :=
  let s := d.sc n
  let nz := s.snr.noise.getD own
  let q := s.planAfter p
  decodeFrame p.h p.code q.h q.code (iterations (d.conf .fecFast n == 1)) s.fec.hist (demap p.h nz.1 nz.2 (dataOf out))
    (demap q.h nz.1 nz.2 (dataOf ahead))

/-- A decoded frame passes the statistics: the first after a start stays out of every one, and so does one delivered without a map (R210,
R213). -/
def Dev.fecFrame (d : Dev) (n : Nat) (t : TakenFrame) : Dev :=
  if t.first || (t.phase && t.plan.map.isNone) then d else d.fecCount n t

/-- Fast mode changes at a receive frame boundary (R209) (DESIGN CHOICE, assumption 91). -/
def Dev.fecFastChange (d : Dev) (n : Nat) (fast : Bool) : Dev := d.raiseSc .fecIterChanged n (iterations fast)

/-! ### The degrade alarm (R214) -/

/-- round(−1,000 × log10(c / n)) for c ≥ 1 (R215) (DESIGN CHOICE, assumption 89). -/
def berLog (c n : Nat) : Nat := (log10Floor (n ^ 2000 / c ^ 2000) 16 0 + 1) / 2

/-- A window ends: its BER against the threshold it started with; the next one starts with the committed threshold (R214,
R216). A window without an error has no stated `PRE_BER_LOG` (DESIGN CHOICE, assumption 89). -/
def Dev.berWindow (d : Dev) (n : Nat) : Dev :=
  let f := (d.sc n).fec
  let w := d.draw
  let log := if f.winCoded = 0 then 0xFFFF else if f.winCorrected = 0 then w.1 % 65535 else min 65534 (berLog f.winCorrected f.winCoded)
  let e := f.winCorrected * 10 ^ (f.winExp + 1)
  let above := decide (e > f.winMant * f.winCoded)
  let low := decide (10 * e ≤ 8 * f.winMant * f.winCoded)
  let k := if low then f.sdClear + 1 else 0
  let counted := decide (f.winCoded > 0)
  let set := counted && above && !f.sdAlarm
  let clr := counted && f.sdAlarm && decide (k ≥ 4)
  let d := (if f.winCoded > 0 ∧ f.winCorrected = 0 then w.2 else d).modFec n fun f => { f with
    ber := log, winCoded := 0, winCorrected := 0, winFrom := d.now, winMant := d.conf .sdMant n, winExp := d.conf .sdExp n,
    sdAlarm := if set then true else if clr then false else f.sdAlarm,
    sdClear := if !counted then f.sdClear else if set || clr then 0 else k }
  if set then d.raiseSc .fecSd n log else if clr then d.raiseSc .fecSdClear n log else d

/-- BER_WINDOW_END: 64 received multiframes (R214). -/
def execBerWindowEnd (sc : Nat) (s : State) : Host.Outcome State Fault Refusal :=
  s.run fun d => if d.liveScs.contains sc then (d.at ((d.sc sc).fec.winFrom + 4096000)).berWindow sc else d

/-! ### Commands (R215 to R217) -/

/-- FEC.MODE (R216). -/
def verbFecMode : Verb where
  code := 0x1401
  role := .operator
  len := 8
  groups := true
  params := [⟨0, 0, 32, .patch [(.subcarrier, 0, 31)]⟩, ⟨4, 1, 7, .rsv⟩, ⟨5, 0, 8, .range 10 99⟩, ⟨6, 0, 8, .range 1 6⟩,
    ⟨7, 0, 8, .rsv⟩]

/-- The meaning of `FEC.MODE`: a time-shared upstream takes none. -/
def bodyFecMode : Body := stageEach (fun _ d n => if d.rxShared n then some .state else none) fun c _ n =>
  [fv .fecFast n (c.p 4 0 1) 1, fv .sdMant n (c.p 5 0 8) 8, fv .sdExp n (c.p 6 0 8) 8]

/-- FEC_MODE (R216). -/
def execFecMode (c : HostCall) (s : State) : Host.Outcome State Fault Refusal := runVerb verbFecMode bodyFecMode c s

/-- FEC.INJECT (R217). -/
def verbFecInject : Verb where
  code := 0x1402
  role := .operator
  len := 8
  groups := true
  params := [⟨0, 0, 32, .patch [(.subcarrier, 0, 31)]⟩, ⟨4, 1, 7, .rsv⟩, ⟨7, 0, 8, .rsv⟩]
  ranges := fun c => decide (c.p 4 0 1 = 1 ∧ (c.p 5 0 8 < 10 ∨ c.p 5 0 8 > 99 ∨ c.p 6 0 8 < 1 ∨ c.p 6 0 8 > 12))

/-- The meaning of `FEC.INJECT`. -/
def bodyFecInject : Body := stageEach (fun _ _ _ => none) fun c _ n =>
  [fv .inject n (c.p 4 0 1) 1, fv .injMant n (c.p 5 0 8) 8, fv .injExp n (c.p 6 0 8) 8]

/-- FEC_INJECT (R217). -/
def execFecInject (c : HostCall) (s : State) : Host.Outcome State Fault Refusal := runVerb verbFecInject bodyFecInject c s

/-- FEC.STATUS (R215). -/
def verbFecStatus : Verb where
  code := 0x1403
  role := .observer
  len := 4
  groups := true
  reads := true
  params := [⟨0, 0, 32, .patch [(.subcarrier, 0, 31)]⟩]

/-- The result fields of a decoder (R215). -/
def fecFields (v : Dev) (n : Nat) : List RField :=
  let s := v.sc n
  let f := s.fec
  let fast := v.conf .fecFast n
  let code := (s.rx.plan.map (·.code)).getD 0
  [rf .conf 0 0 1 fast, rf .conf 0 1 1 code, rf (.severe [1, 0]) 0 2 1 (b2n f.sdAlarm), rf (.severe [1, 0]) 0 3 1 (fast * code),
    rf (.severe [0, 1]) 0 4 1 (b2n f.decoding), rf .conf 1 0 8 (iterations (fast == 1)), rf .minU 2 0 16 f.ber,
    rf .sum 4 0 64 f.coded, rf .sum 12 0 64 f.corrected, rf .sum 20 0 64 f.outerCorrected, rf .sum 28 0 64 f.outerFailed,
    rf .sum 36 0 64 f.uncorr, rf .sum 44 0 64 f.frames]

/-- The meaning of `FEC.STATUS`. -/
def bodyFecStatus : Body := readEach 56 fun _ v n => if v.runs (.sc n) then some (fecFields v n) else none

/-- FEC_STATUS (R215). -/
def execFecStatus (c : HostCall) (s : State) : Host.Outcome State Fault Refusal := runVerb verbFecStatus bodyFecStatus c s

end Sys2Proof.Machine
end

