-- ==== Sys2Proof/Machine/Overhead.lean ====
section
/-! DEFINITION. Overhead monitoring: traces, parity, labels, section and path defects, performance seconds (R249 to R263, R269 to
R273). -/

namespace Sys2Proof.Machine

/-! ### Access -/

/-- What is kept of a subcarrier's section. -/
def Dev.sec (d : Dev) (n : Nat) : SecSt := d.ohd.secs.get (fun _ => {}) n

/-- Change a section. -/
def Dev.modSec (d : Dev) (n : Nat) (f : SecSt → SecSt) : Dev :=
  d.modOver fun o => { o with secs := o.secs.modify (fun _ => {}) n f }

/-- What is kept of a path: by container, or 1,024 + stitch identifier. -/
def Dev.path (d : Dev) (k : Nat) : PathSt := d.ohd.paths.get (fun _ => {}) k

/-- Change a path. -/
def Dev.modPath (d : Dev) (k : Nat) (f : PathSt → PathSt) : Dev :=
  d.modOver fun o => { o with paths := o.paths.modify (fun _ => {}) k f }

/-- The slots of a container in a slot map. -/
def mapSlots (m : List Nat) (c : Nat) : Nat := (m.filter fun e => entryCont e == some c).length

/-- The subcarriers whose receive map carries a container. -/
def Dev.rxCarriers (d : Dev) (c : Nat) : List Nat :=
  d.liveScs.filter fun n => mapSlots (((d.sc n).rx.plan.bind (·.map)).getD []) c != 0

/-- The subcarriers whose transmit map carries a container. -/
def Dev.txCarriers (d : Dev) (c : Nat) : List Nat :=
  d.liveScs.filter fun n => mapSlots ((d.sc n).tx.plan.map.getD []) c != 0

/-- The slots of a container in the maps in force, 0 where it is not mapped (R246) (DESIGN CHOICE, assumption 100). -/
def Dev.contK (d : Dev) (rx : Bool) (c : Nat) : Nat :=
  if rx then match d.rxCarriers c with
    | n :: _ => mapSlots (((d.sc n).rx.plan.bind (·.map)).getD []) c
    | [] => 0
  else match d.txCarriers c with
    | n :: _ => mapSlots ((d.sc n).tx.plan.map.getD []) c
    | [] => 0

/-! ### Section defects (R257) -/

/-- Some section failure in a set of defect bits: dLOS, dLOF, dPLM, and dTIM under `TIM_ACT`. -/
def Dev.secFailed (d : Dev) (n : Nat) : Bool :=
  let x := (d.sec n).defects
  bit x 0 || bit x 1 || bit x 4 || (bit x 3 && d.conf .timAct n == 1)

/-- A section defect takes a value; a change raises its event, unless `quiet` (R257) (DESIGN CHOICE, assumption 95). -/
def Dev.secDefect (d : Dev) (n b : Nat) (on : Bool) (quiet : Bool := false) : Dev :=
  let x := (d.sec n).defects
  if bit x b = on then d else
  let lg := b2n (decide (b ≤ 1) && bit x 2)
  let d := d.modSec n fun s => { s with defects := if on then x + 2 ^ b else x - 2 ^ b }
  if quiet then d else d.raiseSc (if on then .secDefectSet else .secDefectClear) n (if on then b + 8 * lg else b)

/-- The parts of a trace that `TIM_MODE` compares (R250, R269). -/
def traceParts (mode : Nat) (t : List Byte) : List Byte :=
  (if bit mode 0 then slice t 0 16 else []) ++ (if bit mode 1 then slice t 16 16 else [])

/-- The accepted trace does not match what is expected (R257). -/
def Dev.traceWrong (d : Dev) (n : Nat) : Bool :=
  let s := d.sec n
  let m := d.conf .timMode n
  s.hasTrace && traceParts m s.accepted != traceParts m (beBytes 64 (d.conf .ttiExp n))

/-- The accepted label mismatches (R255) (DESIGN CHOICE, assumption 170). -/
def Dev.labelWrong (d : Dev) (n : Nat) : Bool :=
  let e := d.conf .expLabel n
  match (d.sec n).label with
  | none => false
  | some l => l != e && e != 0xFF && !(l == 1 && (e == 0x07 || e == 0x2C))

/-- Evaluate the section defects of a subcarrier (R257). -/
def Dev.secEval (d : Dev) (n : Nat) : Dev :=
  let fr := (d.sc n).fr
  let d := if !d.line.signal then (d.secDefect n 0 true).secDefect n 1 true true
    else
      let d := d.secDefect n 0 false
      match fr.inSince with
      | some t => if d.now ≥ t + 75000 then d.secDefect n 1 false else d
      | none => if fr.state ≠ .inFrame ∧ d.now ≥ fr.outSince + 75000 then d.secDefect n 1 true else d
  let x := (d.sec n).defects
  let d := if bit x 1 then d.secDefect n 2 false
    else
      let s := d.sec n
      let d := if s.lgRun ≥ 3 then d.secDefect n 2 true
        else if s.lgRun = 0 ∧ d.now ≥ s.lgLast + msCycles 100 then d.secDefect n 2 false else d
      let d := (d.secDefect n 3 (d.traceWrong n)).secDefect n 4 (d.labelWrong n)
      if s.bdiOn ≥ 5 then d.secDefect n 5 true else if s.bdiOff ≥ 5 then d.secDefect n 5 false else d
  if d.secFailed n then d.modSec n fun s => { s with pm := { s.pm with defect := true } } else d

/-- Evaluate every awake subcarrier's section. -/
def Dev.secEvalAll (d : Dev) : Dev := (d.contScs).foldl Dev.secEval d

/-- DLG_CLEAR_TIMEOUT: 100 ms of good overheads without `LAST_GASP` (R257). -/
def execDlgClearTimeout (sc : Nat) (s : State) : Host.Outcome State Fault Refusal :=
  s.run fun d =>
    if d.contScs.contains sc && bit (d.sec sc).defects 2 && (d.sec sc).lgRun == 0 then
      (d.at ((d.sec sc).lgLast + msCycles 100)).secEval sc
    else d

/-! ### Section overhead (R250 to R252, R255) -/

/-- The bits in which two bytes differ. -/
def diffBits (a b : BitVec 8) : Nat := ((List.range 8).filter fun i => bit (a ^^^ b).toNat i).length

/-- Bit-interleaved parity over bytes (R251). -/
def bip8 (l : List Byte) : BitVec 8 := l.foldl (· ^^^ ·) 0

/-- A frame without a good overhead, or one that is not delivered: the trace block in progress lacks its byte (R250). -/
def Dev.traceGap (d : Dev) (n : Nat) : Dev := d.modSec n fun s => { s with block := [] }

/-- One byte of the section trace, of the frame with index k (R250) (DESIGN CHOICE, assumption 95). -/
def SecSt.traceByte (s : SecSt) (k : Nat) (b : Byte) : Bool × SecSt :=
  let block := if k % 64 = 0 then [b] else if s.block.length = k % 64 then s.block ++ [b] else []
  let s := { s with block := block }
  if block.length < 64 then (false, s) else
  let run := if block = s.trace then s.traceRun + 1 else 1
  let s := { s with block := [], trace := block, traceRun := min run 3 }
  if run ≥ 3 ∧ (!s.hasTrace ∨ s.accepted ≠ block) then (true, { s with accepted := block, hasTrace := true }) else (false, s)

/-- A received label: accepted after 5 equal ones (R255). -/
def SecSt.labelByte (s : SecSt) (v : Nat) : Bool × SecSt :=
  let run := if v = s.labelVal then min 5 (s.labelRun + 1) else 1
  let s := { s with labelVal := v, labelRun := run }
  if run ≥ 5 ∧ s.label ≠ some v then (true, { s with label := some v }) else (false, s)

/-- A frame's section fields from a good overhead: trace, label, last gasp, backward indications, parity of the frame before
(R250 to R252, R255, R257) (DESIGN CHOICE, assumption 97). -/
def Dev.secOverhead (d : Dev) (n k : Nat) (oh : List Byte) : Dev :=
  let f := fun i => (oh.getD i 0).toNat
  let s := d.sec n
  let t := s.traceByte k (oh.getD 176 0)
  let l := t.2.labelByte (f 156)
  let lg := bit (f 5) 7
  let bdi := bit (f 178) 3
  let viol := match s.bip with
    | some b => diffBits b (oh.getD 177 0)
    | none => 0
  let s' : SecSt := { l.2 with
    lgRun := if lg then min 3 (s.lgRun + 1) else 0, lgLast := if lg then d.now else s.lgLast,
    bdiOn := if bdi then min 5 (s.bdiOn + 1) else 0, bdiOff := if bdi then 0 else min 5 (s.bdiOff + 1),
    beiAcc := s.beiAcc + viol, bipErr := (s.bipErr + viol) % 2 ^ 32,
    pm := { s.pm.late (if viol > 0 ∧ !s.lastBad then 1 else 0) with
      farErrored := s.pm.farErrored + (if bits (f 178) 4 4 > 0 then 1 else 0), farDefect := s.pm.farDefect || bdi } }
  let d := d.modSec n fun _ => s'
  let d := if t.1 then d.raiseSc .ttiChanged n 0 else d
  if l.1 then d.raiseSc .labelChanged n (f 156) else d

/-- A received frame as a section block: whether it is uncorrectable, and the parity of its payload area where the next overhead
is to be compared with it (R251, R260) (DESIGN CHOICE, assumption 97). -/
def Dev.secBlock (d : Dev) (n : Nat) (uncorr : Bool) (bip : Option (BitVec 8)) : Dev :=
  d.modSec n fun s => { s with
    bip := bip, lastBad := uncorr,
    pm := { s.pm with blocks := s.pm.blocks + 1, errored := s.pm.errored + b2n uncorr } }

/-! ### Chunks (R229) -/

/-- `PFN`. -/
def Chunk.pfn (c : Chunk) : Nat := beNat (slice c.head 0 2)

/-- `CONTAINER_ID`. -/
def Chunk.cid (c : Chunk) : Nat := beNat (slice c.head 2 2) / 64

/-- `CI`. -/
def Chunk.ci (c : Chunk) : Nat := bits (beNat (slice c.head 2 2)) 4 2

/-- `K`. -/
def Chunk.k (c : Chunk) : Nat := beNat (slice c.head 4 3) / 2 ^ 19

/-- `FIRST_PKT`. -/
def Chunk.first (c : Chunk) : Nat := bits (beNat (slice c.head 4 3)) 2 17

/-- `CHUNK_CRC` is right. -/
def Chunk.ok (c : Chunk) : Bool := crc8 (c.head.take 7) == (c.head.getD 7 0).toNat

/-- The bytes of a chunk. -/
def Chunk.bytes (c : Chunk) : List Byte := c.head ++ c.payload

/-- The header of a chunk: `PFN`, container, `CI`, `K` and `FIRST_PKT` (R229). -/
def chunkHeader (pfn cid ci k first : Nat) : List Byte :=
  let h := beBytes 2 pfn ++ beBytes 2 (cid * 64 + ci * 16) ++ beBytes 3 (k * 2 ^ 19 + first * 4)
  h ++ [BitVec.ofNat 8 (crc8 h)]

/-- Read a chunk from its bytes, with the positions of the marked ones counted from its first byte (R229, R233). -/
def Chunk.read (b : List Byte) (marks : List Nat) (pm : Option Nat) : Chunk := ⟨b.take 8, b.drop 8, marks, pm, none⟩

/-- Parity of a chunk as its path entry gives it (R253). -/
def bip4 (c : Chunk) : Nat := let b := (bip8 c.bytes).toNat; (b / 16) ^^^ (b % 16)

/-! ### Path defects (R258) -/

/-- Some path failure. -/
def PathSt.failed (p : PathSt) : Bool := bit p.defects 0 || bit p.defects 1 || bit p.defects 2 || bit p.defects 3

/-- The members of receive groups, of a configuration given by its values (R258, R264). -/
def groupKeys (val : Fld → Nat → Nat) : List Nat :=
  (List.range 80).flatMap fun g =>
    let i := 2 * g + 1
    if val .grpEn i = 1 then [val .grpW i, (if val .grpStitch i = 1 then 1024 else 0) + val .grpP i] else []

/-- The receive containers that the device terminates here, and the members of its receive groups (R258). -/
def Dev.pathKeys (d : Dev) : List Nat :=
  let bound := (d.listed .contBind).filterMap fun i => if i % 2 = 1 ∧ d.conf .contBind i = 1 then some (i / 2) else none
  (bound ++ groupKeys fun f i => d.conf f i).eraseDups

/-- A path defect takes a value; a change raises its event unless `quiet`. -/
def Dev.pathDefect (d : Dev) (k b : Nat) (on : Bool) (quiet : Bool := false) : Dev :=
  let x := (d.path k).defects
  if bit x b = on then d else
  let d := d.modPath k fun p => { p with defects := if on then x + 2 ^ b else x - 2 ^ b }
  if quiet then d else d.raiseLine (if on then .pathDefectSet else .pathDefectClear) (k % 1024 + 1024 * b)

/-- The container of a leaf's bursts whose section fails: the leaf has `dLOB` (R292, R309). -/
def Dev.leafFails (d : Dev) (k : Nat) : Bool :=
  d.role == .hub && d.ohd.hub.leaves.any fun e =>
    (e.2.state == .ranging || e.2.state == .lost) && d.conf .leafDed e.1 == 0 && d.conf .leafCont e.1 == k

/-- The section failure of a path: on a subcarrier that carries it, or of the leaf whose bursts do, or, for a stitch member, of the stitch
lanes (R258). -/
def Dev.pathServerFails (d : Dev) (k : Nat) : Bool :=
  if k < 1024 then (d.rxCarriers k).any d.secFailed || d.leafFails k else d.stitchFails

/-- Evaluate a path's defects from its runs (R258). -/
def Dev.pathEval (d : Dev) (k : Nat) : Dev :=
  let d := d.pathDefect k 0 (d.pathServerFails k)
  let p := d.path k
  let d := if bit p.defects 0 then d else
    let d := if p.ciOn ≥ 3 then d.pathDefect k 1 true else if p.ciOff ≥ 3 then d.pathDefect k 1 false else d
    let d := if p.noGood ≥ 3 then d.pathDefect k 2 true else if p.good ≥ 3 then d.pathDefect k 2 false else d
    let d := if !(groupKeys fun f i => d.conf f i).contains k then d.pathDefect k 3 false
      else if p.late ≥ 3 then d.pathDefect k 3 true else if p.onTime ≥ 3 then d.pathDefect k 3 false else d
    let m := d.conf .degM k
    let d := if p.degOn ≥ m then d.pathDefect k 4 true else if p.degOff ≥ m then d.pathDefect k 4 false else d
    if p.bdiOn ≥ 5 then d.pathDefect k 5 true else if p.bdiOff ≥ 5 then d.pathDefect k 5 false else d
  if (d.path k).failed then d.modPath k fun p => { p with pm := { p.pm with defect := true } } else d

/-- The events of a second that ended, about a patch (R261). -/
def Dev.uasEvents (d : Dev) (p : Patch) (what : Nat) (r : Option Bool × Option Bool) : Dev :=
  let one := fun (d : Dev) (x : Option Bool) (far : Nat) => match x with
    | some true => d.raiseAt .uasStart p (what + 1024 * far)
    | some false => d.raiseAt .uasEnd p (what + 1024 * far)
    | none => d
  one (one d r.1 0) r.2 1

/-- A path's second that has ended is judged: `dDEG` counts it (R258, R260, R261). -/
def Dev.pathJudge (d : Dev) (k : Nat) : Dev :=
  match (d.path k).pm.ended with
  | none => d
  | some e =>
    let r := (d.path k).pm.judge
    let bad := e.any fun x => decide (x.errored ≥ d.conf .degThr k)
    let d := d.modPath k fun p => { p with pm := r.2.2 }
    let d := if e.isNone then d else d.modPath k fun p => { p with
      degOn := if bad then min 10 (p.degOn + 1) else 0, degOff := if bad then 0 else min 10 (p.degOff + 1) }
    d.uasEvents ⟨.line, 0⟩ (k % 1024) (r.1, r.2.1)

/-- A chunk of a path arrives: whether it is good (R233), the parity violations of the chunk before it, by the entry that came with this
one, unless the numbers of both say that one between them is missing, its backward indications, and its runs (R253, R258, R260) (DESIGN
CHOICE, assumption 97). -/
def Dev.pathChunk (d : Dev) (k : Nat) (c : Chunk) (good : Bool) : Dev :=
  let p := d.path k
  let follows := !c.ok || p.nextPfn.all (· == c.pfn)
  let viol := match c.pm, p.bip4, follows with
    | some e, some b, true => ((List.range 4).filter fun i => bit (b ^^^ bits e 4 4) i).length
    | _, _, _ => 0
  let bdi := c.pm.map fun e => bit e 0
  let bei := decide ((c.pm.map fun e => bits e 1 3).getD 0 > 0)
  let marked := !c.marks.isEmpty
  let p' : PathSt := { p with
    gotGood := p.gotGood || good, good := if good then min 3 (p.good + 1) else 0,
    ciOn := if c.ok && c.ci == 1 then min 3 (p.ciOn + 1) else 0, ciOff := if good then min 3 (p.ciOff + 1) else 0,
    bdiOn := match bdi with | some true => min 5 (p.bdiOn + 1) | some false => 0 | none => p.bdiOn,
    bdiOff := match bdi with | some true => 0 | some false => min 5 (p.bdiOff + 1) | none => p.bdiOff,
    bip4 := some (bip4 c), nextPfn := if c.ok then some ((c.pfn + 1) % 65536) else p.nextPfn.map fun n => (n + 1) % 65536,
    beiAcc := p.beiAcc + viol, lastBad := marked,
    pm := { p.pm.late (if viol > 0 ∧ !p.lastBad then 1 else 0) with farErrored := p.pm.farErrored + b2n bei,
                                                                     farDefect := p.pm.farDefect || bdi.getD false } }
  let d := (d.modPath k fun _ => p').pathJudge k
  (d.modPath k fun p => { p with pm := { p.pm with blocks := p.pm.blocks + 1, errored := p.pm.errored + b2n marked } }).pathEval k

/-- A burst of the container of a leaf that terminates here, in place of a chunk: good, or bad (R258, R260, R292) (DEDUCED, assumption 225). -/
def Dev.pathBurst (d : Dev) (k : Nat) (good marked : Bool) : Dev :=
  if !d.pathKeys.contains k then d else
  (d.modPath k fun p => { p with
    gotGood := p.gotGood || good, good := if good then min 3 (p.good + 1) else 0, ciOn := 0,
    ciOff := if good then min 3 (p.ciOff + 1) else 0,
    pm := { p.pm with blocks := p.pm.blocks + 1, errored := p.pm.errored + b2n marked } }).pathEval k

/-- A chunk of a path did not come: the next one's entry has nothing to be compared with (R253) (DESIGN CHOICE, assumption 97). -/
def Dev.pathGap (d : Dev) (k : Nat) : Dev :=
  if d.ohd.paths.any (·.1 == k) then (d.modPath k fun p => { p with bip4 := none, nextPfn := none }).pathJudge k else d

/-- A device frame of a path ends: with or without a good chunk (R258). -/
def Dev.pathFrame (d : Dev) (k : Nat) : Dev :=
  let d := if (d.path k).pm.overdue d.now then d.pathJudge k else d
  (d.modPath k fun p => { p with
    gotGood := false, noGood := if p.gotGood then 0 else min 3 (p.noGood + 1), good := if p.gotGood then p.good else 0 }).pathEval k

/-! ### Seconds and intervals (R260 to R263) -/

/-- When an entity's running second ends (R260): at the next whole second of device time, or one second of device frame boundaries
after it began. -/
def Dev.secondEnds (d : Dev) (m : PmSt) : Nat :=
  if m.byTime then
    let t := d.time.timeAt m.from' 0
    max (m.from' + 1) (d.time.countAt (((t / 65536000000000 + 1) * 65536000000000).toNat))
  else d.frameStart (d.frameNo m.from' + 100000)

/-- A subcarrier's second that has ended is judged (R260, R261). -/
def Dev.secJudge (d : Dev) (n : Nat) : Dev :=
  if (d.sec n).pm.ended.isNone then d else
  let r := (d.sec n).pm.judge
  (d.modSec n fun s => { s with pm := r.2.2 }).uasEvents ⟨.subcarrier, n⟩ 0x3FF (r.1, r.2.1)

/-- A subcarrier's second ends: it is judged with the next frame, which tells the parity of its last one. -/
def Dev.secSecond (d : Dev) (n : Nat) : Dev :=
  if d.secondEnds (d.sec n).pm > d.now then d else
  let d := (d.secJudge n).modSec n fun s => { s with pm := s.pm.endSecond d.now }
  if (d.sec n).bip.isSome then d else d.secJudge n

/-- A second whose last frame's parity comes no more is judged as it stands. -/
def Dev.secOverdue (d : Dev) (n : Nat) : Dev := if (d.sec n).pm.overdue d.now then d.secJudge n else d

/-- A path's second ends: it is judged with the next chunk, which tells the parity of its last one (R258, R260). -/
def Dev.pathSecond (d : Dev) (k : Nat) : Dev :=
  if d.secondEnds (d.path k).pm > d.now then d else
  let d := (d.pathJudge k).modPath k fun p => { p with pm := p.pm.endSecond d.now }
  (if (d.path k).bip4.isSome then d else d.pathJudge k).pathEval k

/-- A leaf at the hub. -/
def Dev.leafAt (d : Dev) (n : Nat) : LeafAt := d.ohd.hub.leaves.get (fun _ => {}) n

/-- Change the hub's tree. -/
def Dev.modHub (d : Dev) (f : HubSt → HubSt) : Dev := d.modOver fun o => { o with hub := f o.hub }

/-- Change a leaf at the hub. -/
def Dev.modLeaf (d : Dev) (n : Nat) (f : LeafAt → LeafAt) : Dev :=
  d.modHub fun h => { h with leaves := h.leaves.modify (fun _ => {}) n f }

/-- A leaf's second that has ended is judged (R260, R261, R309). -/
def Dev.leafJudge (d : Dev) (n : Nat) : Dev :=
  if (d.leafAt n).pm.ended.isNone then d else
  let r := (d.leafAt n).pm.judge
  (d.modLeaf n fun l => { l with pm := r.2.2 }).uasEvents ⟨.leaf, n⟩ 0x3FF (r.1, r.2.1)

/-- A leaf's second ends: it is judged with the next burst, which tells the parity of its last one (R309). -/
def Dev.leafSecond (d : Dev) (n : Nat) : Dev :=
  if d.secondEnds (d.leafAt n).pm > d.now then d else
  let d := (d.leafJudge n).modLeaf n fun l =>
    { l with pm := { l.pm.endSecond d.now with defect := l.state == .ranging || l.state == .lost } }
  if (d.leafAt n).bip.isSome then d else d.leafJudge n

/-- The leaves that are admitted. -/
def Dev.hubLeaves (d : Dev) : List Nat := (d.ohd.hub.leaves.filter fun e => e.2.state != .free).map (·.1)

/-- PERFORMANCE_SECOND: the next second that ends, of every entity whose second ends then (R260, R261). -/
def execPerformanceSecond (s : State) : Host.Outcome State Fault Refusal :=
  s.run fun d =>
    let ends := (d.contScs.map fun n => d.secondEnds (d.sec n).pm) ++ (d.pathKeys.map fun k => d.secondEnds (d.path k).pm) ++
      (d.hubLeaves.map fun n => d.secondEnds (d.leafAt n).pm)
    match ends with
    | [] => d
    | e :: r =>
      let d := d.at (r.foldl min e)
      let d := d.contScs.foldl (fun d n => (d.secSecond n).secEval n) d
      let d := d.pathKeys.foldl Dev.pathSecond d
      d.hubLeaves.foldl Dev.leafSecond d

/-- PM_INTERVAL_END: the next multiple of 900 s of device time; every monitored entity's interval closes (R263). -/
def execPmIntervalEnd (s : State) : Host.Outcome State Fault Refusal :=
  s.run fun d =>
    let due := (d.ohd.interval + 1) * 900 * 65536000000000
    let nowIv := d.intervalNo
    let d := if nowIv > d.ohd.interval then d else d.at (d.time.countAt due)
    let d := d.modOver fun o => { o.mapPm (·.interval d.time.established) with interval := max nowIv (o.interval + 1) }
    let d := d.contScs.foldl (fun d n => d.raiseSc .pmInterval n 1) d
    let d := d.pathKeys.foldl (fun d _ => d.raiseLine .pmInterval 1) d
    d.hubLeaves.foldl (fun d n => d.raiseAt .pmInterval ⟨.leaf, n⟩ 1) d

/-! ### Commands (R269 to R273) -/

/-- OH.SECTION_SET (R269). -/
def verbOhSectionSet : Verb where
  code := 0x1601
  role := .operator
  len := 8
  groups := true
  params := [⟨0, 0, 32, .patch [(.subcarrier, 0, 31)]⟩, ⟨4, 4, 4, .rsv⟩, ⟨6, 0, 16, .rsv⟩]

/-- The meaning of `OH.SECTION_SET`. -/
def bodyOhSectionSet : Body := stageEach (fun _ _ _ => none) fun c _ n =>
  [fv .timMode n (c.p 4 0 2) 2, fv .timAct n (c.p 4 2 1) 1, fv .labelMode n (c.p 4 3 1) 1, fv .expLabel n (c.p 5 0 8) 8]

/-- OH_SECTION_SET (R269). -/
def execOhSectionSet (c : HostCall) (s : State) : Host.Outcome State Fault Refusal := runVerb verbOhSectionSet bodyOhSectionSet c s

/-- OH.TTI_SET (R270) (DESIGN CHOICE, assumption 216). -/
def verbOhTtiSet : Verb where
  code := 0x1602
  role := .operator
  len := 5
  ext := .always
  size := .bytes 64
  groups := true
  params := [⟨16, 0, 32, .patch [(.subcarrier, 0, 31)]⟩, ⟨20, 1, 7, .rsv⟩]

/-- The meaning of `OH.TTI_SET`. -/
def bodyOhTtiSet : Body := onDev fun c d =>
  d.stageAns c ((c.insts d 16).map fun n =>
    ((⟨.subcarrier, n⟩ : Patch), [fv (if c.p 20 0 1 = 1 then .ttiExp else .ttiTx) n (beNat c.bytes) 512]))

/-- OH_TTI_SET (R270). -/
def execOhTtiSet (c : HostCall) (s : State) : Host.Outcome State Fault Refusal := runVerb verbOhTtiSet bodyOhTtiSet c s

/-- OH.PATH_SET (R271). -/
def verbOhPathSet : Verb where
  code := 0x1603
  role := .operator
  len := 12
  params := [⟨0, 10, 6, .rsv⟩, ⟨2, 10, 5, .rsv⟩, ⟨4, 0, 17, .range 1 100000⟩, ⟨4, 17, 15, .rsv⟩, ⟨8, 0, 4, .range 2 10⟩,
    ⟨8, 4, 4, .rsv⟩, ⟨9, 0, 24, .rsv⟩]

/-- OH_PATH_SET (R271). -/
def execOhPathSet (c : HostCall) (s : State) : Host.Outcome State Fault Refusal :=
  runVerb verbOhPathSet (stageOn ⟨.line, 0⟩
    (fun c d =>
      if d.seen c.slot .contBind (2 * c.p 0 0 10 + 1) = 0 ∧ !(groupKeys fun f i => d.seen c.slot f i).contains (c.p 0 0 10) then
        some .containerUndefined
      else none)
    fun c _ =>
      let k := c.p 0 0 10
      [fv .returnId k (c.p 2 0 10) 10, fv .returnEn k (c.p 2 15 1) 1, fv .degThr k (c.p 4 0 17) 17, fv .degM k (c.p 8 0 4) 4]) c s

/-- The patches that name a monitored entity: a subcarrier, a group of them, or the line for a container. -/
def pmPatch : Param := ⟨0, 0, 32, .patch [(.subcarrier, 0, 31), (.line, 0, 0)]⟩

/-- OH.PM_READ (R272). -/
def verbOhPmRead : Verb where
  code := 0x1604
  role := .observer
  len := 7
  groups := true
  reads := true
  params := [pmPatch, ⟨4, 0, 16, .range 0 1023⟩, ⟨6, 0, 8, .enum [0, 1, 2]⟩]

/-- The counter set that a read names. -/
def PmEnd.set (e : PmEnd) (n : Nat) : PmCnt := if n = 0 then e.cur else if n = 1 then e.prev else e.tot

/-- The result fields of an entity's seconds (R272). -/
def pmFields (m : PmSt) (set : Nat) : List RField :=
  let four := fun (o : Nat) (c : PmCnt) =>
    [rf .sum o 0 32 c.es, rf .sum (o + 4) 0 32 c.ses, rf .sum (o + 8) 0 32 c.uas, rf .sum (o + 12) 0 32 c.bbe]
  four 0 (m.near.set set) ++ four 16 (m.far.set set) ++
  [rf .maxU 32 0 4 m.near.pending.length, rf (.severe [1, 0]) 32 4 1 (b2n m.near.unavail), rf (.severe [1, 0]) 32 5 1 (b2n m.far.unavail),
    rf (.severe [1, 0]) 32 6 1 (b2n (if set = 1 then m.prevSuspect else m.suspect))]

/-- The meaning of `OH.PM_READ` (DESIGN CHOICE, assumption 94). -/
def bodyOhPmRead : Body := readEach 36 fun c v n =>
  if c.cls = .line then
    (if v.pathKeys.contains (c.p 4 0 16) then some (pmFields (v.path (c.p 4 0 16)).pm (c.p 6 0 8)) else none)
  else if v.runs (.sc n) then some (pmFields (v.sec n).pm (c.p 6 0 8)) else none

/-- OH_PM_READ (R272). -/
def execOhPmRead (c : HostCall) (s : State) : Host.Outcome State Fault Refusal := runVerb verbOhPmRead bodyOhPmRead c s

/-- OH.DEFECT_READ (R273). -/
def verbOhDefectRead : Verb where
  code := 0x1605
  role := .observer
  len := 6
  ext := .either
  size := .bytes 64
  shift := true
  groups := true
  reads := true
  params := [pmPatch, ⟨4, 0, 16, .range 0 1023⟩]

/-- The severity of the most severe defect of a set, 0 for none (R257, R258) (DESIGN CHOICE, assumption 94). -/
def topDefect (x : Nat) : Nat := (((List.range 6).find? fun b => bit x b).map (· + 1)).getD 0

/-- The result fields of an entity's defects (R273). -/
def defectFields (x label bipErr : Nat) : List RField :=
  [rf .or 0 0 8 x, rf (.severe [1, 2, 3, 4, 5, 6, 0]) 1 0 8 (topDefect x), rf .conf 2 0 8 label, rf .sum 4 0 32 bipErr]

/-- The meaning of `OH.DEFECT_READ`; with a buffer the accepted trace of the lowest-numbered unit is written to it. -/
def bodyOhDefectRead : Body := fun c s =>
  let v := s.view c.slot
  let r := readEach 8 (fun c v n =>
    if c.cls = .line then
      (if v.pathKeys.contains (c.p 4 0 16) then some (defectFields (v.path (c.p 4 0 16)).defects 0 0) else none)
    else if v.runs (.sc n) then
      let x := v.sec n
      some (defectFields x.defects (x.label.getD 0) x.bipErr)
    else none) c s
  match r.1 with
  | .now .ok res =>
    if c.ext then (.wrote (match (c.insts v).find? fun n => v.runs (.sc n) with
      | some n => (v.sec n).accepted
      | none => List.replicate 64 0) res, r.2)
    else r
  | _ => r

/-- OH_DEFECT_READ (R273). -/
def execOhDefectRead (c : HostCall) (s : State) : Host.Outcome State Fault Refusal := runVerb verbOhDefectRead bodyOhDefectRead c s

end Sys2Proof.Machine
end

