-- ==== Sys2Proof/Machine/Words.lean ====
section
/-! DEFINITION. The memories' counters and remaps, and what a reader's meeting with a word in error does (R437 to R443). -/

namespace Sys2Proof.Machine

/-- Change the memories. -/
def Dev.modMem (d : Dev) (f : MemAll → MemAll) : Dev := { d with mem := f d.mem }

/-- A memory: 0, 1 HBM stacks; 2 + n `sram[n]`. -/
def Dev.memSt (d : Dev) (m : Nat) : MemSt := d.mem.mems.get (fun _ => {}) m

/-- Change a memory. -/
def Dev.modMemSt (d : Dev) (m : Nat) (f : MemSt → MemSt) : Dev :=
  d.modMem fun a => { a with mems := a.mems.modify (fun _ => {}) m f }

/-- The patch of a memory (R64). -/
def memPatch (m : Nat) : Patch := if m < 2 then ⟨.hbm, m⟩ else ⟨.sram, m - 2⟩

/-- The remap entries of a memory (R443). -/
def remapCount (m : Nat) : Nat := if m < 2 then 16 else 8

/-- The lowest free remap entry (R443). -/
def MemSt.freeEntry (s : MemSt) (m : Nat) : Option Nat := (List.range (remapCount m)).find? fun e => (s.remap.get (fun _ => none) e).isNone

/-- A line or word is to be remapped by the device (R442, R443) (DESIGN CHOICE, assumption 163). -/
def Dev.autoRemap (d : Dev) (m a : Nat) : Dev :=
  let s := d.memSt m
  if d.conf .scrubAuto m = 0 ∨ s.remap.any (fun e => e.2.any (·.addr == a)) then d else
  match s.freeEntry m with
  | none => d.raiseAt .memRemapFull (memPatch m) 0
  | some e => d.modMemSt m fun s => { s with remap := s.remap.set (fun _ => none) e (some ⟨a, false⟩) }

/-- A reader meets a line or word in error: counted and reported; corrected in two passes in succession, or twice within one, its
remap is advised (R437, R439, R442). `info` says who read: 0 scrubber, 1 datapath, 2 host, 3 a refused read-modify-write. -/
def Dev.memHit (d : Dev) (h : MemHit) (info : Nat) : Dev :=
  let m := h.mem
  let s := d.memSt m
  if h.uncorr then
    let d := d.modMemSt m fun s => { s with uncorr := (s.uncorr + 1) % 2 ^ 32, lastAddr := h.addr }
    (if m < 2 then d.count (.hbm m) 4 else d).raiseAt .memUncorrectable (memPatch m) info
  else
    let twice := s.fixed.contains h.addr || s.before.contains h.addr
    let d := d.modMemSt m fun s => { s with
      corrected := (s.corrected + 1) % 2 ^ 64, lastAddr := h.addr,
      fixed := if s.fixed.contains h.addr then s.fixed else s.fixed ++ [h.addr] }
    let d := if m < 2 then d.count (.hbm m) 3 else d
    let d := d.perSecond (5 * 2 ^ 20 + m) 1 fun d n => d.raiseAt .memCorrected (memPatch m) (sat 16 n)
    if twice then (d.raiseAt .memRemapAdvised (memPatch m) 0).autoRemap m h.addr else d

end Sys2Proof.Machine
end

