-- ==== Sys2Proof/Machine/Prot.lean ====
section
/-! DEFINITION. Protection groups: stores, release, requests and their commands (R264 to R268, R274 to R276). -/

namespace Sys2Proof.Machine

/-! ### Access -/

/-- A receive group's state. -/
def Dev.prot (d : Dev) (g : Nat) : ProtSt := d.ohd.groups.get (fun _ => {}) g

/-- Change a receive group. -/
def Dev.modProt (d : Dev) (g : Nat) (f : ProtSt → ProtSt) : Dev :=
  d.modOver fun o => { o with groups := o.groups.modify (fun _ => {}) g f }

/-- The configuration index of a group in a direction: 1 receive. -/
def grpIdx (g : Nat) (rx : Bool) : Nat := 2 * g + b2n rx

/-- The receive groups that exist, ascending. -/
def Dev.rxGroups (d : Dev) : List Nat := (List.range 80).filter fun g => d.conf .grpEn (grpIdx g true) == 1

/-- The transmit groups that exist. -/
def Dev.txGroups (d : Dev) : List Nat := (List.range 80).filter fun g => d.conf .grpEn (grpIdx g false) == 1

/-- The path keys of a receive group's members (R258). -/
def Dev.wKey (d : Dev) (g : Nat) : Nat := d.conf .grpW (grpIdx g true)
/-- The path key of P. -/
def Dev.pKey (d : Dev) (g : Nat) : Nat :=
  (if d.conf .grpStitch (grpIdx g true) = 1 then 1024 else 0) + d.conf .grpP (grpIdx g true)

/-- The receive group of which a path is a member, and whether it is P. -/
def Dev.memberOf (d : Dev) (k : Nat) : Option (Nat × Bool) :=
  d.rxGroups.findSome? fun g => if d.wKey g = k then some (g, false) else if d.pKey g = k then some (g, true) else none

/-- Raise an event about a group. -/
def Dev.raiseProt (d : Dev) (ev : Ev) (g info : Nat) : Dev := d.raiseAt ev ⟨.protection, g⟩ info

/-! ### Requests (R267) -/

/-- The highest of a set of requests; 0 is `NR`. -/
def topReq (x : Nat) : Nat := (((List.range 11).map fun i => 10 - i).find? fun b => b != 0 && bit x b).getD 0

/-- The copy that a request makes active: true P (R267). -/
def reqActive (r : Nat) : Bool := r == 1 || r == 2 || r == 4 || r == 5 || r == 7 || r == 8

/-- Set or clear a request (DESIGN CHOICE, assumption 101). -/
def setReq (x b : Nat) (on : Bool) : Nat := if bit x b = on then x else if on then x + 2 ^ b else x - 2 ^ b

/-- The path of a key has a failure, or a degradation, for the requests (R267). -/
def Dev.protSd (d : Dev) (k : Nat) : Bool :=
  bit (d.path k).defects 4 || (decide (k < 1024) && (d.rxCarriers k).any fun n => (d.sc n).fec.sdAlarm)

/-- A condition that has lasted the hold-off is a request. -/
def Dev.heldOff (d : Dev) (g : Nat) (since : Option Nat) : Bool :=
  match since with
  | some t => decide (d.now ≥ t + msCycles 100 * d.conf .grpHold (grpIdx g true))
  | none => false

/-- The requests of a group after its conditions and what follows from them: manual requests fall before a request of code 5 or
above, `WTR` or `DNR` follow SF_W or SD_W, and any request above `WTR` ends it (R267). -/
def Dev.protEval (d : Dev) (g : Nat) : Dev :=
  let x := d.prot g
  let track := fun (old : Option Nat) (on : Bool) => if on then some (old.getD d.now) else none
  let sf := [track (x.sf.getD 0 none) (d.path (d.wKey g)).failed, track (x.sf.getD 1 none) (d.path (d.pKey g)).failed]
  let sd := [track (x.sd.getD 0 none) (d.protSd (d.wKey g)), track (x.sd.getD 1 none) (d.protSd (d.pKey g))]
  let old := x.reqs
  let r := setReq (setReq (setReq (setReq old 5 (d.heldOff g (sd.getD 0 none))) 6 (d.heldOff g (sd.getD 1 none))) 7
    (d.heldOff g (sf.getD 0 none))) 9 (d.heldOff g (sf.getD 1 none))
  let fresh := [5, 6, 7, 9].any fun b => bit r b && !bit old b
  let r := if fresh then setReq (setReq r 3 false) 4 false else r
  let was := topReq old
  let top := topReq r
  let falls := (was == 5 || was == 7) && decide (top ≤ 2) && x.active
  let rev := d.conf .grpRev (grpIdx g true) == 1
  let r := if top ≥ 3 then setReq (setReq r 2 false) 1 false
    else if falls then (if rev then setReq r 2 true else setReq r 1 true) else r
  let wtr := if bit r 2 then some (if falls then d.now else x.wtr.getD d.now) else none
  let act := reqActive (topReq r)
  let d := d.modProt g fun x => { x with
    sf := sf, sd := sd, reqs := r, wtr := wtr, active := act, switches := (x.switches + b2n (act != x.active)) % 2 ^ 32 }
  if act = x.active then d else d.raiseProt .protSwitch g (topReq r + 16 * b2n act)

/-- Evaluate every receive group. -/
def Dev.protEvalAll (d : Dev) : Dev := d.rxGroups.foldl Dev.protEval d

/-- HOLD_OFF_EXPIRY: the earliest SF or SD condition that has not yet lasted its hold-off becomes a request (R267). -/
def execHoldOffExpiry (g : Nat) (s : State) : Host.Outcome State Fault Refusal :=
  s.run fun d =>
    if !d.rxGroups.contains g then d else
    let x := d.prot g
    let h := msCycles 100 * d.conf .grpHold (grpIdx g true)
    let due := ((x.sf ++ x.sd).filterMap id).map (· + h)
    match due.filter (· ≥ d.now) with
    | [] => d.protEval g
    | e :: r => (d.at (r.foldl min e)).protEval g

/-- PROT_WTR_EXPIRY: a running `WTR` gives way to `NR` (R267). -/
def execProtWtrExpiry (g : Nat) (s : State) : Host.Outcome State Fault Refusal :=
  s.run fun d =>
    match d.rxGroups.contains g, (d.prot g).wtr with
    | true, some t =>
      let d := d.at (t + secCycles (d.conf .grpWtr (grpIdx g true)))
      (d.modProt g fun x => { x with wtr := none, reqs := setReq x.reqs 2 false }).protEval g
    | _, _ => d

/-- A host request takes effect at its commit: 0 clears the host's requests, a running `WTR` and a `DNR` (R275) (DESIGN CHOICE, assumption 101). -/
def Dev.protHost (d : Dev) (g req : Nat) : Dev :=
  if !d.rxGroups.contains g then d else
  let d := d.modProt g fun x => { x with
    reqs := if req = 0 then [1, 2, 3, 4, 8, 10].foldl (fun r b => setReq r b false) x.reqs else
      let r := setReq x.reqs req true
      if req ≥ 5 then setReq (setReq r 3 false) 4 false else r
    wtr := if req = 0 then none else x.wtr }
  d.protEval g

/-! ### The store (R264 to R266) -/

/-- How far a path frame number lies ahead of another, modulo 2^16. -/
def pfnAhead (x y : Nat) : Nat := (x + 65536 - y % 65536) % 65536

/-- A chunk is good for a container (R233, R258): header, `CI` 0, its own number where it is named, and no marked byte. -/
def Chunk.good (c : Chunk) (cid : Option Nat) : Bool :=
  c.ok && c.ci == 0 && c.marks.isEmpty && (match cid with | some n => c.cid == n | none => true)

/-- A copy's chunk arrives after its release, or in time: the run that decides `dDSK` (R258, R265). -/
def Dev.protLate (d : Dev) (g : Nat) (p late : Bool) : Dev :=
  let k := if p then d.pKey g else d.wKey g
  let was := bit (d.path k).defects 3
  let d := (d.modPath k fun x => { x with
    late := if late then min 3 (x.late + 1) else 0, onTime := if late then 0 else min 3 (x.onTime + 1) }).pathEval k
  if bit (d.path k).defects 3 && !was then d.raiseProt .protDeskew g (b2n p) else d

/-- A copy's chunk is good: both copies carry W's number (R233, R268). -/
def Dev.memberGood (d : Dev) (g : Nat) (c : Chunk) : Bool := c.good (some (d.wKey g))

/-- A copy's chunk arrives: it anchors the releases if it may, is stored, and shows the drift of the anchoring copy (R265) (DESIGN CHOICE, assumption 99). -/
def Dev.protArrive (d : Dev) (g : Nat) (p : Bool) (c : Chunk) : Dev :=
  let x := d.prot g
  let good := d.memberGood g c
  let wait := d.conf .grpDiff (grpIdx g true) + 2
  let d := d.modProt g fun x => if p then { x with pAt := some (c.pfn, d.now) } else { x with wAt := some (c.pfn, d.now) }
  match x.next with
  | none =>
    if good && p == x.anchorP then
      let r := d.frameUp d.now + wait
      d.modProt g fun x => { x with
        next := some (c.pfn, r), lead := d.frameStart r - d.now, slip := 0,
        w := if p then x.w else [c], p := if p then x.p ++ [c] else x.p }
    else d.modProt g fun x => if p then { x with p := x.p ++ [c] } else x
  | some (y, t) =>
    let ahead := pfnAhead c.pfn y
    if ahead ≥ 32768 then d.protLate g p true
    else
      let due := d.frameStart (t + ahead)
      let drift : Int := (due : Int) - d.now - x.lead
      let d := d.modProt g fun x => { x with
        slip := if p == x.anchorP then (if drift ≥ 250 then 1 else if drift ≤ -250 then -1 else x.slip) else x.slip,
        w := if p then x.w else x.w ++ [c], p := if p then x.p ++ [c] else x.p }
      d.protLate g p false

/-- ANCHOR_TIMEOUT: 100 ms without a good chunk of W; the releases anchor to P, at once where P's chunks have come (R265). -/
def execAnchorTimeout (g : Nat) (s : State) : Host.Outcome State Fault Refusal :=
  s.run fun d =>
    let x := d.prot g
    if !d.rxGroups.contains g || x.next.isSome || x.anchorP then d else
    (d.at (x.from' + msCycles 100)).modProt g fun x => { x with anchorP := true }

/-- A chunk that stands in for one (R234, R265, R266) (DESIGN CHOICE, assumption 35). -/
def substitute (pfn cid k ci : Nat) : Chunk :=
  ⟨chunkHeader pfn cid ci k 0x1FFFF, List.replicate (k * 6250 - 8) 0, [], none, none⟩

/-- A relay store's chunk is read: one that a word in error makes uncorrectable leaves as a substitute (R440). -/
def Dev.readChunk (d : Dev) (ch : Chunk) (cid k : Nat) : Chunk × Dev :=
  match ch.hit with
  | none => (ch, d)
  | some h => (if h.uncorr then { substitute ch.pfn cid k 1 with pm := ch.pm } else ch, d.memHit h 1)

/-- A copy is read from a group's store, and whether it is good for selection there (R266, R439). -/
def Dev.readCopy (d : Dev) (g : Nat) (c : Option Chunk) : Bool × Dev :=
  match c with
  | none => (false, d)
  | some c => (d.memberGood g c && !c.hit.any (·.uncorr), match c.hit with
    | some h => d.memHit h 1
    | none => d)

/-- A group's running second of device time has ended: rescues in it raise the event with their number (R249, R277, assumption 100). -/
def Dev.rescueSecond (d : Dev) (g : Nat) : Dev :=
  let x := d.prot g
  let no := d.secondNo
  if no = x.resNo then d else
  let d := d.modProt g fun x => { x with resNo := no, resSec := 0, resLast := if no = x.resNo + 1 then x.resSec else 0 }
  if x.resSec = 0 then d else d.raiseProt .protRescue g (sat 16 x.resSec)

/-- A rescued chunk is counted, in the running second of device time too (R249, R266). -/
def Dev.protRescued (d : Dev) (g : Nat) : Dev :=
  (d.rescueSecond g).modProt g fun x => { x with rescued := (x.rescued + 1) % 2 ^ 32, resSec := x.resSec + 1 }

/-- `PS_RESCUED`: the chunks rescued in the last completed second of device time. -/
def Dev.psRescued (d : Dev) (g : Nat) : Nat :=
  let x := d.prot g
  let no := d.secondNo
  sat 16 (if no = x.resNo then x.resLast else if no = x.resNo + 1 then x.resSec else 0)

/-- The copies that the release may take: W and P; `FS` and `LO` exclude while they are the highest request (R266, R275). -/
def Dev.eligible (d : Dev) (g : Nat) : Bool × Bool :=
  let r := topReq (d.prot g).reqs
  (!bit (d.path (d.wKey g)).defects 3 && r != 8, !bit (d.path (d.pKey g)).defects 3 && r != 10)

/-- The release of a group at a device frame boundary: the chunk that goes on to W's sink, none while nothing is due (R265,
R266). -/
def Dev.protRelease (d : Dev) (g : Nat) : Option Chunk × Dev :=
  let x := d.prot g
  match x.next with
  | none => (none, d)
  | some (y, t) =>
    if d.frameNo d.now < t then (none, d) else
    let cid := d.wKey g
    let k := d.contK true cid
    if x.slip < 0 then
      let d := d.modProt g fun x => { x with slip := 0, slips := (x.slips + 1) % 2 ^ 32, next := some (y, t + 1) }
      (some (substitute y cid k 2), d.raiseProt .protSlip g 2)
    else
      let skip := decide (x.slip > 0)
      let y := if skip then (y + 1) % 65536 else y
      let d := if skip then
          (d.modProt g fun x => { x with slip := 0, slips := (x.slips + 1) % 2 ^ 32 }).raiseProt .protSlip g 1
        else d
      let find := fun (l : List Chunk) => l.find? fun c => c.pfn == y
      let e := d.eligible g
      let act := if x.active then (find x.p, e.2) else (find x.w, e.1)
      let oth := if x.active then (find x.w, e.1) else (find x.p, e.2)
      let drop := fun (l : List Chunk) => l.filter fun c => pfnAhead c.pfn y < 32768 && c.pfn != y
      let d := d.modProt g fun x => { x with next := some ((y + 1) % 65536, t + 1), w := drop x.w, p := drop x.p }
      let a := d.readCopy g act.1
      if act.2 && a.1 then (act.1, a.2) else
      let b := a.2.readCopy g oth.1
      if oth.2 && b.1 then (oth.1, b.2.protRescued g)
      else (some (act.1.getD (substitute y cid k 1)), b.2)

/-! ### What a commit does (R265, R274) -/

/-- A group is committed: its store starts afresh and its counters count from now; a deleted group is gone. -/
def Dev.protCommit (d : Dev) (es : List Entry) : Dev :=
  let members := groupKeys fun f i => d.conf f i
  let d := ((d.ohd.paths.map (·.1)).filter fun k => !members.contains k).foldl (fun d k =>
    d.modPath k fun p => { p with late := 0, onTime := 0 }) d
  let d := (stagedAll es .grpEn).foldl (fun d e =>
    if e.1 % 2 = 0 then d
    else if e.2 = 0 then d.modProt (e.1 / 2) fun _ => {}
    else d.modProt (e.1 / 2) fun x => { from' := d.now, reqs := x.reqs, sf := x.sf, sd := x.sd, wtr := x.wtr, active := x.active,
                                        farPs := x.farPs }) d
  let d := (stagedAll es .protReskew).foldl (fun d e =>
    if d.rxGroups.contains e.1 then
      d.modProt e.1 fun x => { x with from' := d.now, next := none, slip := 0, anchorP := false, w := [], p := [] }
    else d) d
  (stagedAll es .protReq).foldl (fun d e => d.protHost e.1 e.2) d

/-- The slots of a line container at its source: in the receive map in force, or in the transmit maps that the commit leaves; 0 where it is
not mapped (R229). -/
def Dev.lineK (d : Dev) (es : List Entry) (rx : Bool) (c : Nat) : Nat :=
  if rx then d.contK true c else ((List.range 32).map fun n => mapSlots (d.mapAfter es n) c).foldl max 0

/-- The slots of a group's P at its source: a line container's, a stitch ingress container's in the sibling's map, or W's, whose chunks a
stitch egress container sends (R264, R268, R387). -/
def Dev.copyK (d : Dev) (es : List Entry) (rx : Bool) (w p : Nat) : Nat :=
  if p < 1024 then d.lineK es rx p
  else if rx then (d.lane.stitch.map.filter fun e => bit e 15 && bits e 0 10 == p - 1024).length
  else d.lineK es rx w

/-- Validation of groups at a commit (R274): capacity, then members; a line member P keeps `BIND` 0 at later commits too (DESIGN CHOICE,
assumption 100). -/
def validateProt (d new : Dev) (es : List Entry) : Option Status :=
  let bound := fun (dir : Bool) (g : Nat) => new.conf .grpStitch (grpIdx g dir) == 0 &&
    new.conf .contBind (2 * new.conf .grpP (grpIdx g dir) + b2n dir) != 0
  if (stagedAll es .grpEn).isEmpty then
    if !(stagedAll es .contBind).isEmpty && (new.rxGroups.any (bound true) || new.txGroups.any (bound false)) then some .protMember
    else none
  else
  let rx := new.rxGroups
  let members := fun (dir : Bool) (g : Nat) =>
    [new.conf .grpW (grpIdx g dir), (if new.conf .grpStitch (grpIdx g dir) = 1 then 1024 else 0) + new.conf .grpP (grpIdx g dir)]
  let rxM := rx.flatMap (members true)
  let txM := new.txGroups.flatMap (members false)
  let differ := fun (dir : Bool) (g : Nat) => match members dir g with
    | [w, p] => d.lineK es dir w != d.copyK es dir w p
    | _ => false
  firstOf [
    (decide ((rx.map fun g => d.contK true (new.wKey g)).sum > 80), .protCapacity),
    (rxM.length != rxM.eraseDups.length || txM.length != txM.eraseDups.length ||
      rx.any (differ true) || new.txGroups.any (differ false) ||
      rx.any (bound true) || new.txGroups.any (bound false) ||
      (new.conf .stitchUse == 0 && (rxM ++ txM).any (· ≥ 1024)), .protMember)]

/-! ### Commands (R274 to R276) -/

/-- PROT.GROUP (R274) (DESIGN CHOICE, assumption 216). -/
def verbProtGroup : Verb where
  code := 0x1701
  role := .operator
  len := 12
  params := [⟨0, 0, 7, .range 0 79⟩, ⟨1, 3, 5, .rsv⟩, ⟨6, 0, 9, .range 0 256⟩, ⟨8, 0, 16, .range 5 900⟩, ⟨10, 0, 7, .range 0 100⟩,
    ⟨10, 7, 1, .rsv⟩, ⟨11, 0, 8, .rsv⟩]

/-- PROT_GROUP (R274): an instance is a group of one direction, so that setting it in one deletes it in the other (DEDUCED, assumption 100). -/
def execProtGroup (c : HostCall) (s : State) : Host.Outcome State Fault Refusal :=
  runVerb verbProtGroup (stageAt (fun c => ⟨.protection, c.p 0 0 7⟩) (fun _ _ => none) fun c _ =>
    let i := 2 * c.p 0 0 7 + c.p 0 7 1
    [fv .grpEn (2 * c.p 0 0 7 + (1 - c.p 0 7 1)) 0 1, fv .grpEn i (c.p 1 0 1) 1, fv .grpStitch i (c.p 1 1 1) 1, fv .grpRev i (c.p 1 2 1) 1, fv .grpW i (c.p 2 0 10) 10,
      fv .grpP i (c.p 4 0 10) 10, fv .grpDiff i (c.p 6 0 9) 9, fv .grpWtr i (c.p 8 0 16) 16, fv .grpHold i (c.p 10 0 7) 7]) c s

/-- PROT.REQUEST (R275). -/
def verbProtRequest : Verb where
  code := 0x1702
  role := .operator
  len := 2
  params := [⟨0, 0, 8, .range 0 79⟩, ⟨1, 0, 8, .enum [0, 3, 4, 8, 10]⟩]

/-- PROT_REQUEST (R275). -/
def execProtRequest (c : HostCall) (s : State) : Host.Outcome State Fault Refusal :=
  runVerb verbProtRequest (stageAt (fun c => ⟨.protection, c.p 0 0 8⟩) (fun _ _ => none) fun c _ =>
    [fv .protReq (c.p 0 0 8) (c.p 1 0 8) 8]) c s

/-- PROT.RESKEW (R275). -/
def verbProtReskew : Verb where
  code := 0x1704
  role := .operator
  len := 1
  params := [⟨0, 0, 8, .range 0 79⟩]

/-- PROT_RESKEW (R275). -/
def execProtReskew (c : HostCall) (s : State) : Host.Outcome State Fault Refusal :=
  runVerb verbProtReskew (stageAt (fun c => ⟨.protection, c.p 0 0 8⟩) (fun _ _ => none) fun c _ =>
    [fv .protReskew (c.p 0 0 8) 1 1]) c s

/-- PROT.STATUS (R276). -/
def verbProtStatus : Verb where
  code := 0x1703
  role := .observer
  len := 1
  params := [⟨0, 0, 8, .range 0 79⟩]

/-- The measured differential of a group in frames, positive when P arrives later (R276) (DESIGN CHOICE, assumption 99). -/
def ProtSt.differential (x : ProtSt) : Int :=
  match x.wAt, x.pAt with
  | some (a, s), some (b, t) =>
    let lag := pfnAhead b a
    let n : Int := if lag < 32768 then lag else (lag : Int) - 65536
    roundDiv ((t : Int) - s - 250 * n) 250
  | _, _ => 0

/-- The results of `PROT.STATUS` (R276) (DESIGN CHOICE, assumption 98). -/
def protStatus (v : Dev) (g : Nat) : Res :=
  let x := v.prot g
  let e := v.eligible g
  let wtr := match x.wtr with
    | some t => (t + secCycles (v.conf .grpWtr (grpIdx g true)) - v.now) / 25000000
    | none => 0
  res 22 [at' 0 0 4 (topReq x.reqs), at' 0 4 1 (b2n x.active), at' 0 5 1 (b2n x.anchorP), at' 0 6 1 (b2n e.1), at' 0 7 1 (b2n e.2),
    fieldAt 1 8 (v.path (v.wKey g)).defects, fieldAt 2 8 (v.path (v.pKey g)).defects, fieldAtS 3 16 x.differential,
    fieldAt 5 16 wtr, fieldAt 8 32 x.rescued, fieldAt 12 32 x.slips, fieldAt 16 32 x.switches, fieldAt 20 16 x.farPs]

/-- PROT_STATUS (R276): a group that does not exist gives `STATE`. -/
def execProtStatus (c : HostCall) (s : State) : Host.Outcome State Fault Refusal :=
  runVerb verbProtStatus (onView fun c v =>
    if v.rxGroups.contains (c.p 0 0 8) then .now .ok (protStatus v (c.p 0 0 8)) else .now .state) c s

end Sys2Proof.Machine
end

