-- ==== Sys2Proof/Machine/Mem.lean ====
section
/-! DEFINITION. HBM regions, stored lines and their check codes, fills, scrubbing, remapping and the `MEM` commands (R431 to R451). -/

namespace Sys2Proof.Machine

/-! ### Memories -/

/-- The memory that a patch names. -/
def memOf (cls : PClass) (i : Nat) : Nat := if cls = .hbm then i else 2 + i

/-- The words of an on-die store (R440) (DESIGN CHOICE, assumption 162). -/
def sramWords (n : Nat) : Nat := 131072 * [12, 8, 6, 2, 8, 1, 1, 4].getD n 0

/-- A queue. -/
def Dev.queue (d : Dev) (q : Nat) : QueueSt := d.pkt.queues.get (fun _ => {}) q

/-- Change a queue. -/
def Dev.modQueue (d : Dev) (q : Nat) (f : QueueSt → QueueSt) : Dev :=
  d.modPkt fun p => { p with queues := p.queues.modify (fun _ => {}) q f }

/-- The length of a packet in a queue. -/
def QPkt.len (p : QPkt) : Nat := p.pkt.frame.length

/-- Bytes held. -/
def QueueSt.occ (q : QueueSt) : Nat := (q.items.map (·.len)).sum

/-- The occupancy at which a queue is high, in hundredths of a byte (R430). -/
def Dev.highMark (d : Dev) (q : Nat) : Nat := d.conf .qHigh q * d.conf .qMax q * 1024

/-- A queue that reaches `HIGH_PCT` says so; it may again below half of that (R430). -/
def Dev.checkHigh (d : Dev) (q : Nat) : Dev :=
  let x := d.queue q
  let occ := 100 * x.occ
  if !x.high ∧ occ ≥ d.highMark q then (d.modQueue q fun x => { x with high := true }).raiseAt .queueHigh ⟨.queue, q⟩ q
  else if x.high ∧ 2 * occ < d.highMark q then d.modQueue q fun x => { x with high := false }
  else d

/-- n drops of a queue count towards the one report a second (R430). -/
def Dev.qDropped (d : Dev) (q n : Nat) : Dev :=
  if n = 0 then d else d.perSecond (6 * 2 ^ 20) n fun d _ => d.raiseAt .queueDrop ⟨.queue, q⟩ q

/-- The packets of a queue in HBM, or all. -/
def QueueSt.part (q : QueueSt) (all : Bool) : List QPkt := q.items.filter fun i => all || i.hbm

/-- Packets of a queue are gone, counted in `DROP_OTHER`: those in HBM, or all (R425, R439, R440) (DESIGN CHOICE, assumption 46). -/
def QueueSt.lose (q : QueueSt) (all : Bool) : QueueSt :=
  { q with items := q.items.filter fun i => !(all || i.hbm), drained := 0, pages := [],
           dropOther := if q.on then (q.dropOther + (q.part all).length) % 2 ^ 32 else q.dropOther }

/-- A queue loses packets, each a drop (R425, R430). -/
def Dev.qLose (d : Dev) (q : Nat) (all : Bool) : Dev :=
  let n := if (d.queue q).on then ((d.queue q).part all).length else 0
  ((d.modQueue q fun x => x.lose all).qDropped q n).checkHigh q

/-- A queue's content is lost to a memory error (R439, R440). -/
def Dev.queueLost (d : Dev) (q : Nat) (all : Bool) : Dev := (d.qLose q all).raiseAt .queueLost ⟨.queue, q⟩ q

/-! ### Regions (R432, R433, R448) -/

/-- A region is enabled. -/
def Dev.rgOn (d : Dev) (r : Nat) : Bool := d.conf .rgEn r == 1

/-- The stack of a region. -/
def Dev.rgStack (d : Dev) (r : Nat) : Nat := d.conf .rgBase r / 16384

/-- First MiB and end of a region. -/
def Dev.rgSpan (d : Dev) (r : Nat) : Nat × Nat := (d.conf .rgBase r, d.conf .rgBase r + d.conf .rgSize r)

/-- The enabled regions of a kind. -/
def Dev.regions (d : Dev) (kind : Nat) : List Nat := (List.range 32).filter fun r => d.rgOn r && d.conf .rgKind r == kind

/-- The region that holds a byte address. -/
def Dev.regionAt (d : Dev) (a : Nat) : Option Nat :=
  (List.range 32).find? fun r => d.rgOn r && decide ((d.rgSpan r).1 * 2 ^ 20 ≤ a ∧ a < (d.rgSpan r).2 * 2 ^ 20)

/-- The regions that cover an address range, none where part of it lies in no region. At most n of them. -/
def Dev.cover (d : Dev) : Nat → Nat → Nat → Option (List Nat)
  | 0, _, len => if len = 0 then some [] else none
  | n + 1, a, len =>
    if len = 0 then some [] else
    match d.regionAt a with
    | none => none
    | some r =>
      let k := min len ((d.rgSpan r).2 * 2 ^ 20 - a)
      (d.cover n (a + k) (len - k)).map (r :: ·)

/-- A region is filled (R433). -/
def Dev.rgFilled (d : Dev) (r : Nat) : Bool := d.mem.filled.contains r

/-- Set or clear `FILLED`. -/
def Dev.setFilled (d : Dev) (r : Nat) (on : Bool) : Dev :=
  d.modMem fun a => { a with filled := if on then (if a.filled.contains r then a.filled else a.filled ++ [r]) else a.filled.filter (· != r) }

/-! ### Lines (R437) -/

/-- The line of a fill. -/
def FillSpan.line (f : FillSpan) (n : Nat) : MemLine :=
  if f.pattern < 2 ^ 64 then ⟨(List.range 8).foldl (fun a k => a + f.pattern * 2 ^ (64 * k)) 0, .own⟩
  else ⟨Config.freeValue (f.pattern + n) % 2 ^ 512, .own⟩

/-- What fills leave in a line, the latest first; none where nothing was ever written (R434). -/
def plainOf : List FillSpan → Nat → Option MemLine
  | [], _ => none
  | f :: r, n => if f.first ≤ n ∧ n < f.first + f.count then some (f.line n) else plainOf r n

/-- What a line reads as where no write changed it. -/
def MemAll.plain (a : MemAll) (n : Nat) : Option MemLine := plainOf a.fills n

/-- The canonical form of the stored lines: keys strictly rising, no line listed that reads as the fills left it. -/
def MemAll.wf (a : MemAll) : Bool := a.lines.wf a.plain

/-- A fill without what it left in a stack. -/
def FillSpan.without (f : FillSpan) (m : Nat) : List FillSpan :=
  let e := f.first + f.count
  let hi := max f.first ((m + 1) * 2 ^ 28)
  [{ f with count := min e (m * 2 ^ 28) - f.first }, { f with first := hi, count := e - hi }]

/-- A stack's lines are lost (R19). -/
def MemAll.loseStack (a : MemAll) (m : Nat) : MemAll :=
  { a with lines := a.lines.filter fun e => e.1 / 2 ^ 28 != m, fills := a.fills.flatMap fun f => f.without m }

/-- A stored line (DESIGN CHOICE, assumption 157). -/
def Dev.hbmLine (d : Dev) (n : Nat) : Option MemLine := d.mem.lines.get d.mem.plain n

/-- Store a line. -/
def Dev.setLine (d : Dev) (n : Nat) (l : MemLine) : Dev := d.modMem fun a => { a with lines := a.lines.set a.plain n (some l) }

/-- One word of w data bits with its check bits: corrected data and whether it was corrected, none where it is uncorrectable
(R437). -/
def secded (check : Nat → BitVec 8) (w data : Nat) (c : BitVec 8) : Option (Nat × Bool) :=
  if check data = c then some (data, false) else
  match (List.range w).find? fun i => check (data ^^^ 2 ^ i) == c with
  | some i => some (data ^^^ 2 ^ i, true)
  | none => if (List.range 8).any fun i => check data == c ^^^ BitVec.ofNat 8 (2 ^ i) then some (data, true) else none

/-- What a read of a line or word gives: its data, whether it was corrected, and whether it is uncorrectable. -/
structure LineRead where
  data : Nat
  fixed : Bool
  bad : Bool
deriving DecidableEq, Repr

/-- Read a stored line of HBM: four words of 128 bits (R437) (DESIGN CHOICE, assumption 158). -/
def MemLine.read (l : MemLine) : LineRead :=
  match l.check with
  | .own => ⟨l.data, false, false⟩
  | .bad => ⟨l.data, false, true⟩
  | .given c =>
    let ws := (List.range 4).map fun k => secded Config.hbmCheck 128 (bits l.data (128 * k) 128) (BitVec.ofNat 8 (bits c (8 * k) 8))
    if ws.any (·.isNone) then ⟨l.data, false, true⟩
    else ⟨pack (ws.mapIdx fun k x => ⟨128 * k, 128, (x.getD (0, false)).1⟩), ws.any fun x => (x.getD (0, false)).2, false⟩

/-- Read a test word of an on-die store (R437). -/
def MemLine.readWord (l : MemLine) : LineRead :=
  match l.check with
  | .own => ⟨l.data, false, false⟩
  | .bad => ⟨l.data, false, true⟩
  | .given c => match secded Config.sramCheck 64 l.data (BitVec.ofNat 8 c) with
    | some x => ⟨x.1, x.2, false⟩
    | none => ⟨l.data, false, true⟩

/-- A memory's line or word is remapped (R443). -/
def MemSt.remapped (m : MemSt) (a : Nat) : Bool := m.remap.any fun e => match e.2 with
  | some x => x.addr == a && x.done
  | none => false

/-- Read a line of HBM: one that was never written gives open data and may read as uncorrectable (R434, assumption 1) (DESIGN CHOICE, assumption 157). -/
def Dev.readLine (d : Dev) (n info : Nat) : LineRead × Dev :=
  let m := n / 2 ^ 28
  let d := d.count (.hbm m) 1
  let d := if (d.memSt m).remapped n then d.count (.hbm m) 8 else d
  match d.hbmLine n with
  | some l =>
    let r := l.read
    (r, if r.fixed || r.bad then d.memHit ⟨m, n, r.bad⟩ info else d)
  | none =>
    let x := d.draw
    let y := x.2.draw
    let bad := y.1 % 2 == 1
    (⟨x.1 % 2 ^ 512, false, bad⟩, if bad then y.2.memHit ⟨m, n, true⟩ info else y.2)

/-- Read a line in which errors have arisen: one that only they correct counts too (R437). -/
def Dev.readHit (d : Dev) (n info : Nat) (hits : List MemHit) : LineRead × Dev :=
  let y := d.readLine n info
  let z := hits.any fun h => h.addr == n && !h.uncorr && h.mem == n / 2 ^ 28 && !y.1.fixed && !y.1.bad
  if z then ({ y.1 with fixed := true }, y.2.memHit ⟨n / 2 ^ 28, n, false⟩ info) else y

/-- Errors that have arisen in lines: an uncorrectable one shows until the line is written (R437) (DESIGN CHOICE, assumption 158). -/
def Dev.arise (d : Dev) (hits : List MemHit) : Dev :=
  hits.foldl (fun d h =>
    if h.mem < 2 ∧ h.uncorr then match d.hbmLine h.addr with
      | some l => let x := d.draw; x.2.setLine h.addr ⟨(l.data ^^^ x.1) % 2 ^ 512, .bad⟩
      | none => d
    else d) d

/-- Write a line with fresh check bits, by the device or the host. -/
def Dev.writeLine (d : Dev) (n data : Nat) : Dev := (d.setLine n ⟨data, .own⟩).count (.hbm (n / 2 ^ 28)) 2

/-! ### MEM.READ and MEM.WRITE (R438, R451) -/

/-- MEM.READ (R451). -/
def verbMemRead : Verb where
  code := 0x3404
  role := .operator
  len := 12
  ext := .always
  params := [⟨24, 0, 32, .range 0 16777216⟩]
  codes := fun c => c.p 16 0 64 % 64 != 0 || c.p 24 0 32 % 64 != 0

/-- What refuses a read or a write of an address range: outside every region, or a region of a kind that does not allow it; a
sleeping stack holds nothing (R432, R451). -/
def Dev.refusesRange (d : Dev) (a len : Nat) (kindOk : Nat → Bool) : Option Status :=
  match d.cover 64 a len with
  | none => some .outOfRange
  | some l =>
    if l.any fun r => !kindOk (d.conf .rgKind r) then some .denied
    else if l.any fun r => !d.runs (.hbm (d.rgStack r)) then some .state else none

/-- Host reads: the lines' data, and how many were corrected and uncorrectable with the first of these. -/
structure MemReadAcc where
  bytes : List Byte := []
  fixed : Nat := 0
  bad : Nat := 0
  first : Option Nat := none
deriving DecidableEq, Repr

/-- The meaning of `MEM.READ`, with the errors that have arisen in the lines. -/
def bodyMemRead (hits : List MemHit) : Body := onDev fun c d =>
  let a := c.p 16 0 64
  let len := c.p 24 0 32
  if c.extLen < len then (.now .outOfRange, d)
  else match d.refusesRange a len fun k => k == 0 || decide (k ≥ 5) with
    | some st => (.now st, d)
    | none =>
      let r := (List.range (len / 64)).foldl (fun (x : MemReadAcc × Dev) k =>
        let n := a / 64 + k
        let y := x.2.readHit n 2 hits
        ({ bytes := x.1.bytes ++ leBytes 64 y.1.data, fixed := x.1.fixed + b2n y.1.fixed, bad := x.1.bad + b2n y.1.bad,
           first := if y.1.bad && x.1.first.isNone then some (64 * n) else x.1.first }, y.2)) (({} : MemReadAcc), d.arise hits)
      (.wrote r.1.bytes (res 16 [fieldAt 0 32 r.1.fixed, fieldAt 4 32 r.1.bad, fieldAt 8 64 (r.1.first.getD 0)]), r.2)

/-- MEM_READ (R432, R437, R451). -/
def execMemRead (c : HostCall) (hits : List MemHit) (s : State) : Host.Outcome State Fault Refusal :=
  runVerb verbMemRead (bodyMemRead hits) c s

/-- MEM.WRITE (R451). -/
def verbMemWrite : Verb where
  code := 0x3405
  role := .operator
  len := 8
  ext := .always

/-- Write bytes from an address on, line by line, at most n lines: a line that is covered in part is read, corrected and rewritten; one
that is uncorrectable stays and refuses the write (R438) (DESIGN CHOICE, assumption 159). -/
def Dev.writeBytes (hits : List MemHit) : Nat → Nat → List Byte → Dev → Status × Dev
  | 0, _, _, d => (.ok, d)
  | n + 1, a, b, d =>
    if b.isEmpty then (.ok, d) else
    let o := a % 64
    let k := min (64 - o) b.length
    let line := a / 64
    if k = 64 then Dev.writeBytes hits n (a + 64) (b.drop 64) (d.writeLine line (leNat (b.take 64)))
    else
      let m := line / 2 ^ 28
      let r := d.readHit line 3 hits
      let d := (r.2.modMemSt m fun s => { s with rmw := (s.rmw + 1) % 2 ^ 64 }).count (.hbm m) 5
      if r.1.bad then (.memUncorrectable, d)
      else
        let old := leBytes 64 r.1.data
        Dev.writeBytes hits n (a + k) (b.drop k) (d.writeLine line (leNat (old.take o ++ b.take k ++ old.drop (o + k))))

/-- The meaning of `MEM.WRITE`, with the errors that have arisen in the lines (DESIGN CHOICE, assumption 159). -/
def bodyMemWrite (hits : List MemHit) : Body := onDev fun c d =>
  let a := c.p 16 0 64
  if c.extLen > 16777216 then (.now .outOfRange, d) else
  match d.refusesRange a c.extLen (· == 0) with
  | some st => (.now st, d)
  | none => let r := Dev.writeBytes hits 262146 a c.bytes (d.arise hits); (.now r.1, r.2)

/-- MEM_WRITE (R438, R451). -/
def execMemWrite (c : HostCall) (hits : List MemHit) (s : State) : Host.Outcome State Fault Refusal :=
  runVerb verbMemWrite (bodyMemWrite hits) c s

/-- The patches of memories that commands name; instances 8 to 15 of `sram[n]` are not fitted (R440). -/
def memPatches : List (PClass × Nat × Nat) := [(.hbm, 0, 1), (.sram, 0, 7)]

/-- MEM.TEST_WRITE (R444). -/
def verbMemTestWrite : Verb where
  code := 0x3407
  role := .privileged
  len := 12
  ext := .always
  params := [⟨16, 0, 32, .patch memPatches⟩]

/-- The meaning of `MEM.TEST_WRITE`: a whole line of a general region, or a test word; never of the crypto-context store (R444,
R460). -/
def bodyMemTestWrite : Body := onDev fun c d =>
  let i := ((c.patch 16).map (·.inst)).getD 0
  let a := c.p 20 0 64
  if c.cls 16 = .hbm then
    let ok := a % 64 == 0 && c.extLen == 68 && a / 2 ^ 34 == i && (match d.regionAt a with
      | some r => d.conf .rgKind r == 0
      | none => false)
    if !ok then (.now .badParameter, d)
    else if !d.runs (.hbm i) then (.now .state, d)
    else (.now .ok, (d.setLine (a / 64) ⟨leNat (c.bytes.take 64), .given (leNat (slice c.bytes 64 4))⟩).count (.hbm i) 2)
  else if i = 1 then (.now .denied, d)
  else if a > 7 ∨ c.extLen ≠ 9 then (.now .badParameter, d)
  else (.now .ok, d.modMem fun m => { m with
    words := m.words.set (fun _ => ⟨0, .own⟩) (8 * i + a) ⟨leNat (c.bytes.take 8), .given (leNat (slice c.bytes 8 1))⟩ })

/-- MEM_TEST_WRITE (R444, R460). -/
def execMemTestWrite (c : HostCall) (s : State) : Host.Outcome State Fault Refusal := runVerb verbMemTestWrite bodyMemTestWrite c s

/-! ### Regions and shares (R435, R448, R449) -/

/-- Committed configuration uses a region's memory: a buffered queue, a receive group, a verified release, a capture run, a dump
destination, a trap queue (R26, R448). -/
def Dev.rgUsed (d : Dev) (r : Nat) : Bool :=
  let queue := fun (p : Nat → Bool) => (List.range 16384).any fun q => d.conf .qEn q == 1 && p q
  d.rgOn r && match d.conf .rgKind r with
    | 1 => queue fun q => d.conf .qBuf q == 1 && d.conf .qKind q == 0
    | 2 => queue fun q => d.conf .qBuf q == 1 && d.conf .qKind q != 0
    | 3 => !d.rxGroups.isEmpty
    | 4 => d.pkt.active.acts.any fun e => e.2.verified
    | 5 => d.mon.capt.isSome
    | 6 => d.conf .dumpDest == 2
    | 7 => queue fun q => d.conf .qKind q == 2
    | _ => false

/-- MEM.REGION (R448). -/
def verbMemRegion : Verb where
  code := 0x3401
  role := .operator
  len := 12
  params := [⟨0, 7, 1, .rsv⟩, ⟨1, 3, 5, .rsv⟩, ⟨2, 0, 16, .rsv⟩, ⟨4, 0, 15, .range 0 32766⟩, ⟨4, 15, 17, .rsv⟩, ⟨8, 0, 15, .range 1 16383⟩,
    ⟨8, 15, 17, .rsv⟩]

/-- What refuses a region (R26, R432, R448). -/
def memRegionCheck (c : Call) (d : Dev) : Option Status :=
  let r := c.p 0 0 5
  let on := c.p 0 5 1 == 1
  let kind := c.p 1 0 3
  let base := c.p 4 0 15
  let size := c.p 8 0 15
  let others := (List.range 32).filter fun k => k != r && d.seen c.slot .rgEn k == 1
  let clash := others.any fun k =>
    let b := d.seen c.slot .rgBase k
    decide (base < b + d.seen c.slot .rgSize k ∧ b < base + size)
  let same := (others.filter fun k => d.seen c.slot .rgKind k == kind).map fun k => d.seen c.slot .rgBase k / 16384
  let many := if kind = 1 ∨ kind = 2 then same.contains (base / 16384) else kind != 0 && !same.isEmpty
  firstOf [
    (d.rgUsed r && (!on || base != d.conf .rgBase r || size != d.conf .rgSize r), .state),
    (on && (clash || decide (base % 16384 + size > 16383) || many || (kind == 5 && decide (size > 256))), .memRegion),
    (on && d.lacks (.hbm (base / 16384)), .state)]

/-- The meaning of `MEM.REGION`: it is held on the region's stack, and on the one it moves from (R567). -/
def bodyMemRegion : Body := onDev fun c d =>
  match memRegionCheck c d with
  | some st => (.now st, d)
  | none =>
    let r := c.p 0 0 5
    let base := c.p 4 0 15
    let vals := [fv .rgEn r (c.p 0 5 1) 1, fv .rgFilled r (c.p 0 6 1) 1, fv .rgKind r (c.p 1 0 3) 3, fv .rgBase r base 15,
      fv .rgSize r (c.p 8 0 15) 15]
    let old := if d.rgOn r && d.rgStack r != base / 16384 then [((⟨.hbm, d.rgStack r⟩ : Patch), ([] : List FieldVal))] else []
    d.stageAns c ((⟨.hbm, base / 16384⟩, vals) :: old)

/-- MEM_REGION (R432, R448). -/
def execMemRegion (c : HostCall) (s : State) : Host.Outcome State Fault Refusal := runVerb verbMemRegion bodyMemRegion c s

/-- MEM.BUDGET (R449). -/
def verbMemBudget : Verb where
  code := 0x3402
  role := .operator
  len := 12
  params := [⟨0, 0, 16, .range 0 1100⟩, ⟨2, 0, 16, .range 0 1100⟩, ⟨4, 0, 16, .range 0 1100⟩, ⟨6, 0, 16, .range 0 1100⟩,
    ⟨8, 0, 16, .range 4 200⟩, ⟨10, 0, 16, .rsv⟩]

/-- The meaning of `MEM.BUDGET`: it is held on both stacks (R567). -/
def bodyMemBudget : Body := onDev fun c d =>
  d.stageAns c [(⟨.hbm, 0⟩, [fv .bwTx 0 (c.p 0 0 16) 16, fv .bwRx 0 (c.p 2 0 16) 16, fv .bwVerify 0 (c.p 4 0 16) 16,
    fv .bwCapture 0 (c.p 6 0 16) 16, fv .bwMaint 0 (c.p 8 0 16) 16]), (⟨.hbm, 1⟩, [])]

/-- MEM_BUDGET (R449). -/
def execMemBudget (c : HostCall) (s : State) : Host.Outcome State Fault Refusal := runVerb verbMemBudget bodyMemBudget c s

/-- The W slots of all receive groups (R435). -/
def Dev.wSlots (d : Dev) : Nat := (d.rxGroups.map fun g => d.contK true (d.wKey g)).sum

/-- The protection share in MB/s (R435) (DESIGN CHOICE, assumption 164). -/
def Dev.protShare (d : Dev) : Nat := 1875 * d.wSlots

/-- A share of MB/s on a stack, of a user whose regions are of one kind: half on each where both stacks have one (R435). -/
def Dev.onStack (d : Dev) (share kind stack : Nat) : Nat :=
  let on := (d.regions kind).map d.rgStack
  if on.contains 0 && on.contains 1 then share / 2 else if on.contains stack then share else 0

/-- The shares exceed what the stacks carry (R435). -/
def Dev.sharesExceed (d : Dev) : Bool :=
  let gb := fun (f : Fld) => 1000 * d.conf f
  let stack := fun (s : Nat) =>
    d.onStack (gb .bwTx) 1 s + d.onStack (gb .bwRx) 2 s + d.onStack d.protShare 3 s + d.onStack (gb .bwVerify) 4 s +
      d.onStack (gb .bwCapture) 5 s + gb .bwMaint / 2
  decide (gb .bwTx + gb .bwRx + gb .bwVerify + gb .bwCapture + gb .bwMaint + d.protShare > 1100000) ||
  decide (stack 0 > 550000) || decide (stack 1 > 550000)

/-- A user's share in bytes in a window of 1 µs, by its place in R435. -/
def Dev.share (d : Dev) (user : Nat) : Nat :=
  if user = 2 then d.protShare else 1000 * d.conf ([Fld.bwTx, .bwRx, .bwRx, .bwVerify, .bwCapture, .bwMaint].getD user .bwMaint)

/-- The window of 1 µs so many packet cycles from now begins, unless it runs (R435) (DESIGN CHOICE, assumption 228). -/
def Dev.bwWindow (d : Dev) (late : Nat) : Dev :=
  let w := d.pktCycle late / 1250
  if w ≤ d.mem.window then d else d.modMem fun a => { a with window := w, taken := [] }

/-- What a user takes in the running window. -/
def Dev.bwTake (d : Dev) (user n : Nat) : Dev := d.modMem fun a => { a with taken := a.taken.modify (fun _ => 0) user (· + n) }

/-- A user may take n bytes in the running window: always up to its share; beyond it while the shares together are not used up, if the
window's other demand leaves it a loan, which what is still to come in the window decides (R436) (DESIGN CHOICE, assumption 228). -/
def Dev.bwAllows (d : Dev) (user n : Nat) (loan : Bool) : Bool :=
  decide (d.mem.taken.get (fun _ => 0) user + n ≤ d.share user) ||
  (loan && decide ((d.mem.taken.map (·.2)).sum + n ≤ ((List.range 6).map d.share).sum))

/-- The bytes that the protection stores take (R264). -/
def Dev.protBytes (d : Dev) : Nat :=
  (d.rxGroups.map fun g => 2 * (2 * d.conf .grpDiff (grpIdx g true) + 4) * d.contK true (d.wKey g) * 6250).sum

/-- A region of a kind that would stand after a commit is not filled (R433). -/
def Dev.unfilled (old new : Dev) (es : List Entry) (kind : Nat) : Bool :=
  (new.regions kind).any fun r =>
    let kept := old.rgFilled r && old.rgOn r && old.rgSpan r == new.rgSpan r
    !(kept || staged? es .rgFilled r == some 1)

/-- Validation of regions, shares and stores at a commit, with the generation of rules it makes active (R432, R433, R435, R466). -/
def validateMem (d new : Dev) (es : List Entry) (rules : Option RuleGen) : Option Status :=
  let some' := fun (f : Fld) => !(stagedAll es f).isEmpty
  let shares := some' .bwTx || some' .rgEn || some' .grpEn
  let newGroup := (stagedAll es .grpEn).any fun e => e.2 == 1 && e.1 % 2 == 1
  let buffered := fun (kind : Nat) => (stagedAll es .qBuf).any fun e =>
    e.2 == 1 && new.conf .qEn e.1 == 1 && (if kind = 1 then new.conf .qKind e.1 == 0 else new.conf .qKind e.1 != 0)
  let trap := (stagedAll es .qKind).any fun e => e.2 == 2 && new.conf .qEn e.1 == 1
  let verified := match rules with
    | some g => g.acts.any fun e => e.2.verified
    | none => false
  let room := fun (kind : Nat) => ((new.regions kind).map fun r => new.conf .rgSize r * 2 ^ 20).sum
  firstOf [
    (newGroup && decide (new.protBytes > room 3), .memRegion),
    (verified && decide (room 4 < 32 * 2 ^ 20), .memRegion),
    (shares && new.sharesExceed, .memBandwidth),
    ((newGroup && d.unfilled new es 3) || (verified && d.unfilled new es 4) || (buffered 1 && d.unfilled new es 1) ||
      (buffered 2 && d.unfilled new es 2) || (trap && d.unfilled new es 7) || (new.conf .dumpDest == 2 && some' .dumpDest && d.unfilled new es 6),
      .memNotFilled)]

/-! ### Fills (R441, R451) -/

/-- MEM.FILL (R451) (DESIGN CHOICE, assumption 216). -/
def verbMemFill : Verb where
  code := 0x3403
  role := .operator
  len := 16
  params := [⟨0, 5, 3, .rsv⟩, ⟨1, 0, 56, .rsv⟩]

/-- The meaning of `MEM.FILL`: each burst requests leave (R451, R484) (DESIGN CHOICE, assumption 160). -/
def bodyMemFill : Body := onDev fun c d =>
  let r := c.p 0 0 5
  if !d.rgOn r || !d.runs (.hbm (d.rgStack r)) || d.mem.fill.isSome then (.now .state, d) else
  let q := d.request .fill 1200
  if !q.1 then (.ended .noLeave, q.2)
  else
    let f : FillSt := ⟨r, c.p 8 0 64, (d.rgSpan r).1, (d.rgSpan r).2, c.slot, (d.slot c.slot).serial, c.seq, none⟩
    (.accept, (q.2.setFilled r false).modMem fun a => { a with fill := some f })

/-- MEM_FILL (R451). -/
def execMemFill (c : HostCall) (s : State) : Host.Outcome State Fault Refusal := runVerb verbMemFill bodyMemFill c s

/-- The bursts in progress move on: they share the maintenance share equally, which carries 40 bytes a GB/s in an AC cycle (R441). -/
def MemAll.progress (a : MemAll) (now share : Nat) : MemAll :=
  { a with bursts := a.bursts.map fun b => (b.1, b.2 - (now - a.burstAt) * (240 * share / a.bursts.length)), burstAt := now }

/-- A burst of so many MiB starts beside those in progress (R441). -/
def Dev.burstAdd (d : Dev) (key mib : Nat) : Dev :=
  d.modMem fun a => let a := a.progress d.now (d.conf .bwMaint); { a with bursts := a.bursts ++ [(key, 6 * mib * 2 ^ 20)] }

/-- A burst is over. -/
def Dev.burstGone (d : Dev) (key : Nat) : Dev :=
  d.modMem fun a => let a := a.progress d.now (d.conf .bwMaint); { a with bursts := a.bursts.filter (·.1 != key) }

/-- When a burst in progress ends, as things stand (R441). -/
def Dev.burstEnd (d : Dev) (key : Nat) : Nat :=
  let left := ((d.mem.bursts.find? (·.1 == key)).map (·.2)).getD 0
  d.mem.burstAt + ceilDiv left (240 * d.conf .bwMaint / max 1 d.mem.bursts.length)

/-- A fill ends with a status. -/
def Dev.fillOver (d : Dev) (st : Status) : Dev :=
  match d.mem.fill with
  | none => d
  | some f =>
    let d := (((d.withdraw .fill).giveBack .fill).burstGone 2).modMem fun a => { a with fill := none }
    (if st = .ok then d.setFilled f.region true else d).endOp f.slot f.serial f.seq st

/-- Leave for a fill's burst is granted. -/
def Dev.fillStart (d : Dev) : Dev :=
  match d.mem.fill with
  | none => d
  | some f => (d.burstAdd 2 (min 4 (f.last - f.next))).modMem fun a => { a with fill := some { f with started := some d.now } }

/-- Lines from n on are filled with a pattern. -/
def MemAll.fillLines (a : MemAll) (n count pattern : Nat) : MemAll :=
  let keep := fun (k : Nat) => decide (k < n ∨ n + count ≤ k)
  { a with
    lines := a.lines.filter fun e => keep e.1,
    fills := match a.fills with
      | f :: r => if f.pattern = pattern ∧ f.first + f.count = n then { f with count := f.count + count } :: r
          else ⟨n, count, pattern⟩ :: a.fills
      | [] => [⟨n, count, pattern⟩] }

/-- FILL_BURST_END: a burst of 4 MiB ends; the next requests leave, or the fill is done (R441, R451). -/
def execFillBurstEnd (s : State) : Host.Outcome State Fault Refusal :=
  s.run fun d =>
    match d.mem.fill with
    | none => d
    | some f =>
      match f.started with
      | none => d
      | some _ =>
        let n := min 4 (f.last - f.next)
        let d := ((d.at (d.burstEnd 2)).burstGone 2).giveBack .fill
        let d := d.modMem fun a => a.fillLines (f.next * 16384) (n * 16384) f.pattern
        let d := d.count (.hbm (f.next / 16384)) 2 (n * 16384)
        if f.next + n ≥ f.last then d.fillOver .ok
        else
          let d := d.modMem fun a => { a with fill := some { f with next := f.next + n, started := none } }
          let q := d.request .fill 1200
          if q.1 then q.2 else q.2.fillOver .noLeave

/-! ### Scrubbing and remapping (R441 to R443) -/

/-- A burst of a stack holds a line. -/
def burstHas (m burst n : Nat) : Bool := n / 65536 == 4096 * m + burst

/-- A stack's burst visits a line of a filled region, or a spare in use, which is visited where the line lies that it stands for (R434, R441)
(DESIGN CHOICE, assumption 161). -/
def Dev.visits (d : Dev) (m burst : Nat) : Bool :=
  (d.mem.filled.any fun r =>
    let s := d.rgSpan r
    decide (s.1 < 16384 * m + 4 * burst + 4 ∧ 16384 * m + 4 * burst < s.2)) ||
  (d.memSt m).remap.any fun e => e.2.any fun x => x.done && burstHas m burst x.addr

/-- The time between two bursts of a stack: 4,096 of them in a period (R441). -/
def Dev.burstGap (d : Dev) (m : Nat) : Nat := secCycles (60 * d.conf .scrubPeriod m) / 4096

/-- A scrub pass ends (R441). -/
def Dev.passOver (d : Dev) (m : Nat) : Dev :=
  let n := ((d.memSt m).passes + 1) % 2 ^ 32
  (d.modMemSt m fun s => { s with
    passes := n, running := false, burst := 0, passFrom := max d.now (s.passFrom + secCycles (60 * d.conf .scrubPeriod m)),
    before := s.fixed, fixed := [] }).raiseAt .scrubPass (memPatch m) (n % 2 ^ 16)

/-- A stack's scrubber goes on to its next burst (DESIGN CHOICE, assumption 161). -/
def Dev.nextBurst (d : Dev) (m : Nat) : Dev :=
  if (d.memSt m).burst ≥ 4095 then d.passOver m else d.modMemSt m fun s => { s with burst := s.burst + 1 }

/-- SCRUB_BURST_START: a stack's next burst falls due; it requests leave, or passes where it visits nothing (R441, R484). -/
def execScrubBurstStart (mem : Nat) (s : State) : Host.Outcome State Fault Refusal :=
  s.run fun d =>
    let x := d.memSt mem
    if mem ≥ 2 ∨ !d.runs (.hbm mem) ∨ d.conf .scrubEn mem = 0 ∨ x.waiting ∨ x.refused then d else
    let d := d.at (x.passFrom + x.burst * d.burstGap mem)
    let d := d.modMemSt mem fun s => { s with running := true }
    if !d.visits mem x.burst then d.nextBurst mem else
    let q := d.request (.scrub mem) 300
    if q.1 then q.2.modMemSt mem fun s => { s with waiting := true } else q.2.modMemSt mem fun s => { s with refused := true }

/-- A stack's scrubber reads the stored lines of its burst: a corrected line is written back, an uncorrectable one is not (R441) (DESIGN CHOICE, assumption 161). -/
def Dev.scrubLines (d : Dev) (m burst : Nat) : Dev :=
  let l := d.mem.lines.filter fun e => burstHas m burst e.1 && ((d.memSt m).remapped e.1 || (d.regionAt (64 * e.1)).any d.rgFilled)
  l.foldl (fun d e => match e.2 with
    | none => d
    | some x =>
      let r := x.read
      let d := if r.fixed || r.bad then d.memHit ⟨m, e.1, r.bad⟩ 0 else d
      if r.fixed then d.setLine e.1 ⟨r.data, .own⟩ else d) d

/-- The test words of an on-die store are read like its other words (R440). -/
def Dev.scrubWords (d : Dev) (n : Nat) : Dev :=
  (d.mem.words.filter fun e => e.1 / 8 == n).foldl (fun d e =>
    let r := e.2.readWord
    let d := if r.fixed || r.bad then d.memHit ⟨2 + n, sramWords n + e.1 % 8, r.bad⟩ 0 else d
    if r.fixed then d.modMem fun a => { a with words := a.words.set (fun _ => ⟨0, .own⟩) e.1 ⟨r.data, .own⟩ } else d) d

/-- What an uncorrectable word of an on-die store costs where it holds state of the model: a context of 16 words, a leaf's entry of
192, a queue's descriptor of 16 (R440, R470). -/
def Dev.wordLost (d : Dev) (h : MemHit) : Dev :=
  if !h.uncorr then d
  else if h.mem = 3 then (if h.addr / 16 < 65536 then d.contextLost (h.addr / 16) else d)
  else if h.mem = 4 then
    { d with ohd := { d.ohd with hub := { d.ohd.hub with
        lem := d.ohd.hub.lem.set (fun _ => none) (h.addr / 192) none } } }
  else if h.mem = 5 then (if h.addr / 16 < 16384 then d.queueLost (h.addr / 16) true else d)
  else d

/-- Errors that a scrubber meets. -/
def Dev.scrubHits (d : Dev) (m : Nat) (hits : List MemHit) : Dev :=
  (hits.filter (·.mem == m)).foldl (fun d h => (d.memHit h 0).wordLost h) d

/-- A stack's burst with leave ends, or an on-die store's pass does; the errors it met are corrected or reported (R440, R441). -/
def Dev.scrubEnd (d : Dev) (mem : Nat) (hits : List MemHit) : Dev :=
  let x := d.memSt mem
  if mem < 2 then
    match d.power.held.find? (·.op == .scrub mem) with
    | none => d
    | some _ =>
      let d := (((d.at (d.burstEnd mem)).burstGone mem).giveBack (.scrub mem)).modMemSt mem fun s => { s with waiting := false }
      let d := (d.scrubLines mem x.burst).count (.hbm mem) 6 65536
      ((d.scrubHits mem hits).arise (hits.filter (·.mem == mem))).nextBurst mem
  else if mem > 9 ∨ d.conf .scrubEn mem = 0 then d
  else
    let d := d.at (x.passFrom + secCycles (60 * d.conf .scrubPeriod mem))
    ((d.scrubWords (mem - 2)).scrubHits mem hits).passOver mem

/-- REMAP_COPY_DONE: a line's copy to its spare, with correction, is done and later accesses are redirected (R443). -/
def execRemapCopyDone (mem entry : Nat) (s : State) : Host.Outcome State Fault Refusal :=
  s.run fun d =>
    match (d.memSt mem).remap.get (fun _ => none) entry with
    | some e =>
      if e.done then d else
      let d := if mem < 2 then match d.hbmLine e.addr with
          | some l => if l.read.fixed then d.setLine e.addr ⟨l.read.data, .own⟩ else d
          | none => d
        else d
      (d.modMemSt mem fun s => { s with remap := s.remap.set (fun _ => none) entry (some { e with done := true }) }).raiseAt
        .memRemapped (memPatch mem) entry
    | none => d

/-- MEM.SCRUB_SET (R450). -/
def verbMemScrubSet : Verb where
  code := 0x3406
  role := .operator
  len := 8
  groups := true
  params := [⟨0, 0, 32, .patch memPatches⟩, ⟨4, 0, 16, .range 60 10080⟩, ⟨6, 2, 6, .rsv⟩, ⟨7, 0, 8, .rsv⟩]

/-- A memory that is not fitted (R440). -/
def notFitted (c : Call) (i : Nat) : Option Status := if c.cls = .sram ∧ i > 7 then some .badParameter else none

/-- The meaning of `MEM.SCRUB_SET`. -/
def bodyMemScrubSet : Body := stageEach (fun c _ i => notFitted c i) fun c _ i =>
  let m := memOf c.cls i
  [fv .scrubPeriod m (c.p 4 0 16) 16, fv .scrubEn m (c.p 6 0 1) 1, fv .scrubAuto m (c.p 6 1 1) 1]

/-- MEM_SCRUB_SET (R450). -/
def execMemScrubSet (c : HostCall) (s : State) : Host.Outcome State Fault Refusal := runVerb verbMemScrubSet bodyMemScrubSet c s

/-- MEM.REMAP (R443) (DESIGN CHOICE, assumption 216). -/
def verbMemRemap : Verb where
  code := 0x3408
  role := .privileged
  len := 16
  params := [⟨0, 0, 32, .patch memPatches⟩, ⟨4, 4, 3, .rsv⟩, ⟨5, 0, 24, .rsv⟩]
  ranges := fun c =>
    let i := ((c.patch 0).map (·.inst)).getD 0
    if c.cls = .hbm then c.p 8 0 64 / 2 ^ 34 != i else decide (c.p 8 0 64 ≥ sramWords i)

/-- The line or word that a `MEM.REMAP` names. -/
def remapAddr (c : Call) : Nat := if c.cls = .hbm then c.p 8 0 64 / 64 else c.p 8 0 64

/-- What refuses a remap (R443). -/
def memRemapCheck (c : Call) (_ : Dev) (i : Nat) : Option Status :=
  firstOf [
    (c.cls == .hbm && c.p 8 0 64 % 64 != 0, .badParameter),
    (decide (c.p 4 0 4 ≥ remapCount (memOf c.cls i)), .limitReached)]

/-- The meaning of `MEM.REMAP`. -/
def bodyMemRemap : Body := stageEach memRemapCheck fun c _ i =>
  [fv .remapSet (16 * memOf c.cls i + c.p 4 0 4) (if c.p 4 7 1 = 1 then 1 + 2 * remapAddr c else 0) 64]

/-- MEM_REMAP (R443). -/
def execMemRemap (c : HostCall) (s : State) : Host.Outcome State Fault Refusal := runVerb verbMemRemap bodyMemRemap c s

/-! ### Commits, sleep and wakes (R19, R433, R434, R440, R443) -/

/-- A commit's regions, remaps and budget take effect (DESIGN CHOICE, assumption 163). -/
def Dev.memCommit (d : Dev) (old : Dev) (es : List Entry) : Dev :=
  let d := if old.conf .bwMaint = d.conf .bwMaint then d else d.modMem fun a => a.progress d.now (old.conf .bwMaint)
  let moved := fun (r : Nat) => !d.rgOn r || !old.rgOn r || old.rgSpan r != d.rgSpan r
  let d := (stagedAll es .rgEn).foldl (fun d e => if moved e.1 then d.setFilled e.1 false else d) d
  let d := match d.mem.fill with
    | some f => if (stagedAll es .rgEn).any (fun e => e.1 == f.region) && moved f.region then d.fillOver .aborted else d
    | none => d
  let d := (stagedAll es .rgFilled).foldl (fun d e => if e.2 = 1 ∧ d.rgOn e.1 then d.setFilled e.1 true else d) d
  let d := (stagedAll es .remapSet).foldl (fun d e => d.modMemSt (e.1 / 16) fun s => { s with
    remap := s.remap.set (fun _ => none) (e.1 % 16) (if e.2 = 0 then none else some ⟨e.2 / 2, false⟩) }) d
  if (staged? es .budget 0).isSome then [0, 1].foldl (fun d m => d.modMemSt m fun s => { s with refused := false }) d else d

/-- A stack sleeps: its contents are lost, and with them a fill in progress and what queues hold there (R19, R433) (DESIGN CHOICE, assumption 46). -/
def Dev.hbmSlept (d : Dev) (m : Nat) : Dev :=
  let kinds := (List.range 32).filter fun r => d.rgOn r && d.rgStack r == m
  let dirs := kinds.map fun r => d.conf .rgKind r
  let d := match d.mem.fill with
    | some f => if d.rgStack f.region = m then d.fillOver .aborted else d
    | none => d
  let d := (((d.withdraw (.scrub m)).giveBack (.scrub m)).burstGone m).modMem fun a => { a.loseStack m with
    filled := a.filled.filter fun r => !kinds.contains r }
  let d := d.modMemSt m fun s => { s with running := false, burst := 0, waiting := false, refused := false, fixed := [], before := [] }
  let d := d.modPkt fun p => { p with held := if dirs.contains 4 then [] else p.held }
  d.pkt.queues.foldl (fun d e =>
    if e.2.items.any (·.hbm) ∧ dirs.contains (if d.conf .qKind e.1 = 0 then 1 else 2) then d.qLose e.1 false else d) d

/-- A stack wakes: its scrubber's next pass begins. -/
def Dev.hbmWoke (d : Dev) (m : Nat) : Dev := d.modMemSt m fun s => { s with passFrom := d.now }

/-- The leaf equaliser memory wakes with zeros in its test words (R440) (DESIGN CHOICE, assumption 47). -/
def Dev.lemWoke (d : Dev) : Dev := d.modMem fun a => { a with words := a.words.filter fun e => e.1 / 8 != 2 }

/-! ### Reads (R451) -/

/-- MEM.ERR_READ (R451). -/
def verbMemErrRead : Verb where
  code := 0x3409
  role := .observer
  len := 4
  groups := true
  reads := true
  params := [⟨0, 0, 32, .patch memPatches⟩]

/-- The result fields of a memory's errors (R451). -/
def errFields (v : Dev) (m : Nat) : List RField :=
  let s := v.memSt m
  let on := s.running || (decide (m ≥ 2) && v.conf .scrubEn m == 1)
  [rf .sum 0 0 64 s.corrected, rf .sum 8 0 32 s.uncorr, rf .conf 12 0 64 (if m < 2 then 64 * s.lastAddr else s.lastAddr),
    rf .sum 20 0 5 (s.remap.filter (·.2.isSome)).length, rf .or 21 0 1 (b2n on), rf .sum 24 0 32 s.passes,
    rf .maxU 28 0 32 (if on then (v.now - s.passFrom) / 25000000 else 0), rf .sum 32 0 64 s.rmw]

/-- The meaning of `MEM.ERR_READ`. -/
def bodyMemErrRead : Body := readEach 40 fun c v i => if c.cls = .sram ∧ i > 7 then none else some (errFields v (memOf c.cls i))

/-- MEM_ERR_READ (R451). -/
def execMemErrRead (c : HostCall) (s : State) : Host.Outcome State Fault Refusal := runVerb verbMemErrRead bodyMemErrRead c s

/-- MEM.STATUS (R451). -/
def verbMemStatus : Verb where
  code := 0x340A
  role := .observer
  len := 0

/-- The results of `MEM.STATUS` (R451), with the measured use of the six users. -/
def memStatus (v : Dev) (use : List Nat) : Res :=
  let mask := fun (p : Nat → Bool) => (List.range 32).foldl (fun a r => a + b2n (p r) * 2 ^ r) 0
  let trap := match v.regions 7 with
    | r :: _ => (v.rgSpan r).1 * 2 ^ 20 + v.mem.trapOff % (v.conf .rgSize r * 2 ^ 20)
    | [] => 0
  res 34 ([fieldAt 0 32 (mask v.rgOn), fieldAt 4 32 (mask v.rgFilled), fieldAt 8 16 (ceilDiv v.protShare 1000),
    fieldAt 22 64 trap, fieldAt 30 32 v.mem.trapSeq] ++ use.mapIdx fun k x => fieldAt (10 + 2 * k) 16 x)

/-- The measured use of the memories: no rule says over what it is measured (assumption 1). -/
def Dev.drawUse (d : Dev) : List Nat × Dev :=
  (List.range 6).foldl (fun x _ => let y := x.2.draw; (x.1 ++ [y.1], y.2)) ([], d)

/-- MEM_STATUS (R451). -/
def execMemStatus (c : HostCall) (s : State) : Host.Outcome State Fault Refusal :=
  runVerb verbMemStatus (fun c s => let u := s.dev.drawUse; (.now .ok (memStatus (s.view c.slot) u.1), { s with dev := u.2 })) c s

end Sys2Proof.Machine
end

