-- ==== Sys2Proof/Machine/Mailbox.lean ====
section
/-! DEFINITION. BAR0: its words as they read, slot claims, the command bobbin, the consumer operations and the interrupt words
(R29 to R44, R49). -/

namespace Sys2Proof.Machine

/-! ### What the words of BAR0 read as -/

/-- A bobbin the host consumes. -/
def Dev.bobbin (d : Dev) : Bob → Bobbin
  | .slot n => (d.slot n).rsp
  | .event => d.ctl.evt.bob
  | .stamp => d.ctl.stamp.bob

/-- Change a bobbin. -/
def Dev.modBobbin (d : Dev) (b : Bob) (f : Bobbin → Bobbin) : Dev :=
  match b with
  | .slot n => d.modSlot n fun s => { s with rsp := f s.rsp }
  | .event => { d with ctl := { d.ctl with evt := { d.ctl.evt with bob := f d.ctl.evt.bob } } }
  | .stamp => { d with ctl := { d.ctl with stamp := { d.ctl.stamp with bob := f d.ctl.stamp.bob } } }

/-- The host may consume from the bobbin: a slot's always; the event and time-stamp bobbins while claimed (R33). -/
def Dev.consumable (d : Dev) : Bob → Bool
  | .slot n => n < 8
  | .event => d.ctl.evt.owner.isSome
  | .stamp => d.ctl.stamp.owner.isSome

/-- Credits held by commands of a slot: waiting, taken, or answered with the response not released (R40). -/
def Slot.creditsHeld (s : Slot) : Nat := s.cmds.length + (if s.taken.isSome then 1 else 0) + s.rsp.used

/-- `CREDITS_FREE` (R31, R40). -/
def Slot.creditsFree (s : Slot) : Nat := s.credits - s.creditsHeld

/-- A word of the presented item of a bobbin; zero, as the idle item, where none is presented (R37). -/
def Bobbin.word (b : Bobbin) (k : Nat) : Nat :=
  match b.item with
  | some i => bits i.bits.toNat (32 * k) 32
  | none => 0

/-- A word of the device block (R30). -/
def Dev.deviceWord (d : Dev) (o : Nat) : Nat :=
  if o = 0x0000 then pack [⟨0, 16, 0x2400⟩, ⟨16, 4, 2⟩, ⟨20, 4, d.otp.grade⟩]
  else if o = 0x0004 then d.boot.fwVersion
  else if o = 0x0008 then
    pack [⟨0, 2, d.boot.stage⟩, ⟨2, 2, d.powerState.code⟩, ⟨4, 1, b2n d.otp.secure⟩,
      ⟨8, 8, (List.range 8).foldl (fun a n => a + b2n ((d.slot n).state == .opened) * 2 ^ n) 0⟩]
  else if o = 0x000C then d.ctl.evt.lost
  else if o = 0x0010 then d.ctl.stamp.lost
  else if o = 0x0014 then d.ctl.irq.attn.toNat
  else if o = 0x0018 then d.srcPending
  else 0

/-- A word of a session slot block (R31). -/
def Slot.word (s : Slot) (o : Nat) : Nat :=
  if o = 0x000 then pack [⟨0, 16, s.tag.toNat⟩, ⟨16, 3, s.state.code⟩, ⟨19, 2, s.role.code⟩]
  else if o = 0x004 then pack [⟨0, 6, s.credits⟩, ⟨8, 6, s.creditsFree⟩, ⟨16, 1, b2n s.releaseErr⟩,
    ⟨17, 1, b2n s.doorbellLost⟩]
  else if o = 0x008 then s.closeReason
  else if 0x040 ≤ o ∧ o < 0x080 then bits s.cmdItem.toNat (8 * (o - 0x040)) 32
  else if 0x100 ≤ o ∧ o < 0x140 then s.rsp.word ((o - 0x100) / 4)
  else if o = 0x144 then pack [⟨0, 6, s.rsp.unread.length⟩, ⟨8, 6, s.rsp.log.length⟩]
  else 0

/-- A word of the event or time-stamp block (R32, R33). -/
def bobBlockWord (owner : Option Nat) (b : Bobbin) (o : Nat) : Nat :=
  if o = 0x000 then pack [⟨0, 3, owner.getD 0⟩, ⟨3, 1, b2n owner.isSome⟩]
  else if 0x010 ≤ o ∧ o < 0x020 then (if owner.isSome then b.word ((o - 0x010) / 4) else 0)
  else if o = 0x024 then pack [⟨0, 9, b.unread.length⟩, ⟨16, 9, b.log.length⟩]
  else 0

/-- What a word of BAR0 reads as, without the presentation that a read of word 0 makes (R29 to R34). -/
def Dev.bar0 (d : Dev) (door : Door) (a : Nat) : Word32 :=
  if a % 4 ≠ 0 ∨ a ≥ 0x10000 then 0 else
  BitVec.ofNat 32 <|
  if a < 0x1000 then d.deviceWord a
  else if a < 0x9000 then (d.slot (a / 0x1000 - 1)).word (a % 0x1000)
  else if a < 0xA000 then bobBlockWord d.ctl.evt.owner d.ctl.evt.bob (a % 0x1000)
  else if a < 0xB000 then bobBlockWord d.ctl.stamp.owner d.ctl.stamp.bob (a % 0x1000)
  else if door = .spi then 0
  else if 0xC000 ≤ a ∧ a < 0xC100 then d.ctl.irq.tableWord ((a - 0xC000) / 4)
  else if a = 0xC800 then d.ctl.irq.pba.toNat
  else 0

/-! ### The operations of the words -/

/-- A write of `TAG` (R44); while the boot ROM runs, slots 1 to 7 stay free (R523). -/
def Dev.tagWrite (d : Dev) (n : Nat) (tag : BitVec 16) : Dev :=
  let s := d.slot n
  if n ≥ 8 ∨ (¬d.fwRuns ∧ n ≠ 0) then d
  else if tag ≠ 0 ∧ s.state = .free then
    d.modSlot n fun s => { s with
      tag := tag, state := .claimed, credits := if d.fwRuns then 1 else 32, claimedAt := d.now, lastRing := d.now,
      rung := false }
  else if tag = 0 ∧ s.state = .closed then d.freeSlot n
  else d

/-- Some earlier command of the slot that carries this `SEQ` still holds a credit (R52). -/
def Slot.seqHeld (s : Slot) (q : Nat) : Bool :=
  s.cmds.any (fun e => Item.seq e.item == q) || s.taken.any (fun t => Item.seq t.item == q) ||
  s.rsp.unread.any (fun i => i.seq == q) || s.rsp.log.any (fun i => i.seq == q)

/-- A write of `RING`: the item falls to the command bobbin's tail and takes a credit; without one the session closes; without a
claimed, challenged or open slot the doorbell is lost (R31, R40, R41). Commands that no row serves are answered (R55). -/
def Dev.ring (d : Dev) (n : Nat) : Dev :=
  let s := d.slot n
  if n ≥ 8 then d
  else if s.state = .free ∨ s.state = .closed then d.modSlot n fun s => { s with doorbellLost := true }
  else if s.creditsFree = 0 then (d.close n .creditExceeded).settle 256
  else
    (d.modSlot n fun s => { s with cmds := s.cmds ++ [⟨s.cmdItem, s.seqHeld (Item.seq s.cmdItem)⟩], lastRing := d.now,
                                   rung := true }).settle 256

/-- `NEXT`, `MARK` and `REWIND` of a bobbin (R33, R38). -/
def Dev.consume (d : Dev) (b : Bob) (f : Bobbin → Bobbin) : Dev := if d.consumable b then d.modBobbin b f else d

/-- `RELEASE`: items freed end an overflow episode (R62, R332); none found sets a slot's `RELEASE_ERR` (R38) (DESIGN CHOICE, assumption 24). -/
def Dev.release (d : Dev) (b : Bob) (seq : Nat) : Dev :=
  if !d.consumable b then d else
  match (d.bobbin b).release seq with
  | none =>
    match b with
    | .slot n => d.modSlot n fun s => { s with releaseErr := true }
    | _ => d
  | some (nb, freed) =>
    let d := d.modBobbin b fun _ => nb
    match b with
    | .slot _ => d
    | .event =>
      let e := d.ctl.evt
      let lasting := e.overflow.bind fun q => if freed.any (fun i => i.seq == q) then none else some q
      { d with ctl := { d.ctl with evt := { e with overflow := lasting } } }
    | .stamp =>
      let t := d.ctl.stamp
      { d with ctl := { d.ctl with stamp := { t with overflow := t.overflow && decide (64 - t.bob.used < 16) } } }

/-- A complete read of word 0 of a presentation window (R37). -/
def Dev.presentRead (d : Dev) (b : Bob) : Dev := d.consume b Bobbin.present

/-- Arm vectors; arming vector 0 takes the present `STAGE` as its reference (R42, R43) (DESIGN CHOICE, assumption 23). -/
def Dev.arm (d : Dev) (v : BitVec 16) : Dev :=
  d.modIrq fun q => { q with armed := q.armed ||| (v &&& 0x0FFF#16),
                             stageChanged := q.stageChanged && !(bit v.toNat 0) }

/-- A write of an `OP` word (R31, R32). -/
def Dev.opWrite (d : Dev) (b : Bob) (w : Nat) : Dev :=
  let op := bits w 0 2
  if op = 0 then d.consume b Bobbin.next
  else if op = 1 then d.consume b Bobbin.setMark
  else if op = 2 then d.consume b Bobbin.rewind
  else d.release b (bits w 16 16)

/-- A write to a word of a slot block (R31). -/
def Dev.slotWrite (d : Dev) (n o w : Nat) : Dev :=
  if o = 0x000 then d.tagWrite n (BitVec.ofNat 16 w)
  else if o = 0x004 then
    d.modSlot n fun s => { s with releaseErr := s.releaseErr && !bit w 16, doorbellLost := s.doorbellLost && !bit w 17 }
  else if 0x040 ≤ o ∧ o < 0x080 then
    d.modSlot n fun s =>
      let k := 8 * (o - 0x040)
      { s with cmdItem := (s.cmdItem &&& ~~~(BitVec.ofNat 512 (0xFFFFFFFF * 2 ^ k))) ||| BitVec.ofNat 512 (w * 2 ^ k) }
  else if o = 0x080 then (if bit w 0 then d.ring n else d)
  else if o = 0x140 then d.opWrite (.slot n) w
  else d

/-- A write to a BAR0 word, whichever it is; words and bits without an effect ignore it (R29 to R32, R34). -/
def Dev.writeWord (d : Dev) (door : Door) (a : Nat) (v : Word32) : Dev :=
  let w := v.toNat
  if a % 4 ≠ 0 ∨ a ≥ 0x10000 then d
  else if a = 0x0014 then d.modIrq fun q => { q with attn := v &&& 0xFFFF003F#32 }
  else if a = 0x001C then d.arm (BitVec.ofNat 16 w)
  else if a < 0x1000 then d
  else if a < 0x9000 then d.slotWrite (a / 0x1000 - 1) (a % 0x1000) w
  else if a = 0x9020 then d.opWrite .event w
  else if a = 0xA020 then d.opWrite .stamp w
  else if door = .pcie ∧ 0xC000 ≤ a ∧ a < 0xC100 then
    d.modIrq fun q => { q with table := q.table.set (fun k => if k % 4 = 3 then 1#32 else 0#32) ((a - 0xC000) / 4) v }
  else d

/-! ### Accesses over PCIe and SPI (R29, R34, R37) -/

/-- The bobbin whose presentation window has its word 0 at an offset (R31, R32). -/
def windowOf (a : Nat) : Option Bob :=
  if a = 0x9010 then some .event
  else if a = 0xA010 then some .stamp
  else if 0x1000 ≤ a ∧ a < 0x9000 ∧ a % 0x1000 = 0x100 then some (.slot (a / 0x1000 - 1))
  else none

/-- What a complete read of the word at an offset leaves: an item presented, where it is word 0 of a presentation window (R37). -/
def Dev.readTouch (d : Dev) (a : Nat) : Dev :=
  match windowOf a with
  | some b => d.presentRead b
  | none => d

/-- A complete read of one word: its bytes, the lowest-addressed first, and what it leaves. -/
def Dev.readWord (d : Dev) (door : Door) (a : Nat) : List Byte × Dev :=
  let d := d.readTouch a
  (leBytes 4 (d.bar0 door a).toNat, d)

/-- Words read over SPI from an offset on, n bytes of them: a word that is cut short shows the bytes that a complete read would show, and
leaves nothing (R34). -/
def Dev.spiRead : Nat → Nat → Nat → Dev → List Byte × Dev
  | 0, _, _, d => ([], d)
  | f + 1, a, n, d =>
    if n = 0 then ([], d) else
    let r := d.readWord .spi a
    if n < 4 then (r.1.take n, d)
    else
      let x := Dev.spiRead f (a + 4) (n - 4) r.2
      (r.1 ++ x.1, x.2)

/-- Words written over SPI from an offset on; a word that is cut short is not written (R34). -/
def Dev.spiWrite : Nat → Nat → List Byte → Dev → Dev
  | 0, _, _, d => d
  | f + 1, a, b, d =>
    if b.length < 4 then d
    else Dev.spiWrite f (a + 4) (b.drop 4) (d.writeWord .spi a (BitVec.ofNat 32 (leNat (b.take 4))))

/-- A transfer on the SPI target, by the bytes on `SPI_MOSI` while `SPI_CS_N` is low: opcode, address, and for a read a dummy byte and as
many bytes as are shifted out; any other opcode is ignored (R34). An address that is not a multiple of 4 reaches no word (DEDUCED,
assumption 195). -/
def Dev.spiTransfer (d : Dev) (mosi : List Byte) : Dev :=
  let a := beNat (slice mosi 1 3)
  if mosi.length < 4 then d
  else if mosi.headD 0 = 0x0B#8 then
    let r := d.spiRead mosi.length a (mosi.length - 5)
    if r.1.isEmpty then d else r.2.emit (.busRead r.1)
  else if mosi.headD 0 = 0x02#8 then d.spiWrite mosi.length a (mosi.drop 4)
  else d

/-- A read access: over PCIe a word where it is of 4 bytes and aligned, zeros otherwise (R29). -/
def Dev.readAccess (d : Dev) : Access → Dev
  | .pcie a n _ =>
    if n = 4 ∧ a % 4 = 0 then let r := d.readWord .pcie a; r.2.emit (.busRead r.1) else d.emit (.busRead (List.replicate n 0))
  | .spi mosi => d.spiTransfer mosi

/-- A write access: over PCIe a word where it is of 4 bytes and aligned; any other is ignored (R29). -/
def Dev.writeAccess (d : Dev) : Access → Dev
  | .pcie a n v => if n = 4 then d.writeWord .pcie a (BitVec.ofNat 32 v) else d
  | .spi mosi => d.spiTransfer mosi

/-! ### The meanings -/

/-- TAG_WRITE (R44). -/
def execTagWrite (slot : Nat) (tag : BitVec 16) (s : State) : Host.Outcome State Fault Refusal :=
  s.run fun d => d.tagWrite slot tag

/-- RING (R40, R41, R52, R55). -/
def execRing (slot : Nat) (s : State) : Host.Outcome State Fault Refusal := s.run fun d => d.ring slot

/-- NEXT (R38). -/
def execNext (b : Bob) (s : State) : Host.Outcome State Fault Refusal := s.run fun d => d.consume b Bobbin.next

/-- MARK (R38). -/
def execMark (b : Bob) (s : State) : Host.Outcome State Fault Refusal := s.run fun d => d.consume b Bobbin.setMark

/-- REWIND (R38). -/
def execRewind (b : Bob) (s : State) : Host.Outcome State Fault Refusal := s.run fun d => d.consume b Bobbin.rewind

/-- RELEASE (R38). -/
def execRelease (b : Bob) (seq : BitVec 16) (s : State) : Host.Outcome State Fault Refusal :=
  s.run fun d => d.release b seq.toNat

/-- PRESENTATION_READ: a read of the words of BAR0 (R29, R34, R37). -/
def execPresentationRead (r : Access) (s : State) : Host.Outcome State Fault Refusal := s.runAccess r fun d => d.readAccess r

/-- IRQ_ARM_WRITE (R30, R43). -/
def execIrqArmWrite (v : BitVec 16) (s : State) : Host.Outcome State Fault Refusal := s.run fun d => d.arm v

/-- REGISTER_WRITE: a write of the words of BAR0 (R29 to R34). -/
def execRegisterWrite (w : Access) (s : State) : Host.Outcome State Fault Refusal := s.runAccess w fun d => d.writeAccess w

/-- CLAIM_TIMEOUT: a claimed slot with no `RING` within 1 s becomes free (R44). -/
def execClaimTimeout (slot : Nat) (s : State) : Host.Outcome State Fault Refusal :=
  s.run fun d =>
    let x := d.slot slot
    if x.state = .claimed ∧ ¬x.rung then (d.at (x.claimedAt + secCycles 1)).freeSlot slot else d

/-- CLOSED_SLOT_TIMEOUT: a closed slot becomes free after 10 s (R44). -/
def execClosedSlotTimeout (slot : Nat) (s : State) : Host.Outcome State Fault Refusal :=
  s.run fun d =>
    let x := d.slot slot
    if x.state = .closed then (d.at (x.closedAt + secCycles 10)).freeSlot slot else d

/-- IDLE_TIMEOUT: no `RING` for `IDLE_TIMEOUT` seconds closes the session (R49). -/
def execIdleTimeout (slot : Nat) (s : State) : Host.Outcome State Fault Refusal :=
  s.run fun d =>
    let x := d.slot slot
    if x.state = .opened ∧ x.idleTimeout ≠ 0 then
      ((d.at (x.lastRing + secCycles x.idleTimeout)).close slot .idleTimeout).settle 256
    else d

end Sys2Proof.Machine
end

