-- ==== Sys2Proof/Machine/Session.lean ====
section
/-! DEFINITION. The `SESSION` verbs but for `SESSION.CRED_SET`, the role, event and boot verbs of `SYS`, and the proofs of R46
(R23, R24, R44 to R49, R57, R61, R531). -/

namespace Sys2Proof.Machine

/-! ### Opening and proving -/

/-- SESSION.OPEN (R57). -/
def verbSessionOpen : Verb where
  code := 0x0101
  role := .none
  len := 56
  params := [⟨0, 0, 8, .enum [1, 2, 3]⟩, ⟨1, 0, 8, .range 1 32⟩, ⟨2, 0, 16, .range 0 3600⟩, ⟨4, 0, 128, .any⟩,
    ⟨20, 0, 288, .rsv⟩]

/-- A claimed slot becomes challenged with a device nonce the spec leaves open; without a credential for the role the open is
refused and the slot closes (R45, R57) (DESIGN CHOICE, assumption 31). -/
def sessionOpen (c : Call) (d : Dev) : Ans × Dev :=
  let r := SessRole.ofCode (c.p 0 0 8)
  match d.credential r with
  | none => (.gone, (d.respond c.slot c.item .denied).close c.slot .denied)
  | some k =>
    let (n, d) := d.draw
    let nonce := n % 2 ^ 128
    let d := d.modSlot c.slot fun s => { s with
      state := .challenged, openedAt := d.now, devNonce := BitVec.ofNat 128 nonce,
      hostNonce := BitVec.ofNat 128 (c.p 4 0 128), reqRole := r, key := k, reqCredits := c.p 1 0 8, idleTimeout := c.p 2 0 16 }
    (.now .ok (res 17 [fieldAt 0 128 nonce, at' 16 0 3 c.slot]), d)

/-- SESSION_OPEN (R57). -/
def execSessionOpen (c : HostCall) (s : State) : Host.Outcome State Fault Refusal :=
  runVerb verbSessionOpen (onDev sessionOpen) c s

/-- The bytes under the session proofs after their label (R46). -/
def Slot.proofTail (s : Slot) (n : Nat) : List Byte :=
  leBytes 16 s.devNonce.toNat ++ leBytes 16 s.hostNonce.toNat ++
  [BitVec.ofNat 8 n, BitVec.ofNat 8 s.reqRole.code, BitVec.ofNat 8 s.reqCredits] ++ leBytes 2 s.idleTimeout

/-- A session proof: HMAC-SHA-256 under K over a label and the tail (R46). -/
def sessionProof (k : List Byte) (label : String) (s : Slot) (n : Nat) : List Byte :=
  hmacSha256 k (ascii label ++ s.proofTail n)

/-- The wait after n consecutive failures: min(n, 16) × 100 ms (R47). -/
def proveWait (n : Nat) : Nat := msCycles (100 * min n 16)

/-- Some other slot holds an open privileged session (R48). -/
def Dev.otherPrivileged (d : Dev) (slot : Nat) : Bool :=
  (List.range 8).any fun n => n != slot && (d.slot n).state == .opened && (d.slot n).role == .privileged

/-- Evaluate a proof under the K that `SESSION.OPEN` took, and answer: wrong, the slot closes; right for a second privileged session, the slot stays challenged; right,
the session opens (R46 to R48, R57). -/
def Dev.evalProof (d : Dev) (n : Nat) (item : Item) : Dev :=
  let s := d.slot n
  if leBytes 32 (Item.field item 8 0 256) ≠ sessionProof s.key "LULON-HS" s n then
    let f := d.ctl.authFails + 1
    let d := { d with ctl := { d.ctl with authFails := f, lastFail := d.now } }
    (((d.respond n item .authFailed).raise .authFailed d.self f (some n)).close n .authFailed).authAlarm f
  else if s.reqRole = .privileged ∧ d.otherPrivileged n then
    d.respond n item .limitReached
  else
    let serial := d.ctl.serial + 1
    let d := { d with ctl := { d.ctl with authFails := 0, serial := serial } }
    let d := d.modSlot n fun s => { s with
      state := .opened, role := s.reqRole, credits := s.reqCredits, serial := serial, ops := [], groupRec := {} }
    let r := res 34 [fieldAt 0 256 (leNat (sessionProof s.key "LULON-DV" s n)), fieldAt 32 8 s.reqCredits,
      fieldAt 33 8 s.reqRole.code]
    (d.respond n item .ok r).raise .sessionOpened d.self s.reqRole.code (some n)

/-- SESSION.PROVE (R57). -/
def verbSessionProve : Verb where
  code := 0x0102
  role := .none
  len := 56
  params := [⟨0, 0, 256, .any⟩, ⟨32, 0, 192, .rsv⟩]

/-- Prove: late or without a challenge, `NO_CHALLENGE`; after failures it waits; else it is evaluated (R47) (DESIGN CHOICE, assumption 21). -/
def sessionProve (c : Call) (d : Dev) : Ans × Dev :=
  let s := d.slot c.slot
  if s.state = .opened then (.now .noChallenge, d)
  else if s.lastRing > s.openedAt + secCycles 1 then
    (.gone, (d.respond c.slot c.item .noChallenge).close c.slot .noChallenge)
  else if d.ctl.authFails > 0 ∧ d.now < d.ctl.lastFail + proveWait d.ctl.authFails then (.wait .prove, d)
  else (.gone, d.evalProof c.slot c.item)

/-- SESSION_PROVE (R47). -/
def execSessionProve (c : HostCall) (s : State) : Host.Outcome State Fault Refusal :=
  runVerb verbSessionProve (onDev sessionProve) c s

/-- The slot whose `SESSION.PROVE` waits, the lowest of them (DESIGN CHOICE, assumption 25). -/
def Dev.waitingProve (d : Dev) : Option (Nat × Taken) :=
  (List.range 8).findSome? fun n =>
    match (d.slot n).taken with
    | some t => if t.why = .prove then some (n, t) else none
    | none => none

/-- PROVE_WAIT_END: the wait ends and the proof is evaluated (R47). -/
def execProveWaitEnd (s : State) : Host.Outcome State Fault Refusal :=
  s.run fun d =>
    match d.waitingProve with
    | none => d
    | some (n, t) =>
      let d := d.at (d.ctl.lastFail + proveWait d.ctl.authFails)
      let d := d.modSlot n fun s => { s with taken := none }
      (d.evalProof n t.item).settle 256

/-! ### Closing, claims and results -/

/-- SESSION.CLOSE (R57). -/
def verbSessionClose : Verb where
  code := 0x0103
  role := .observer
  len := 0

/-- SESSION_CLOSE (R49). -/
def execSessionClose (c : HostCall) (s : State) : Host.Outcome State Fault Refusal :=
  runVerb verbSessionClose (onDev fun c d => (.gone, (d.respond c.slot c.item .ok).close c.slot .ok)) c s

/-- SESSION.EVICT (R57). -/
def verbSessionEvict : Verb where
  code := 0x0104
  role := .privileged
  len := 56
  params := [⟨0, 3, 5, .rsv⟩, ⟨1, 0, 440, .rsv⟩]

/-- Evict another open session (R49, R57). -/
def sessionEvict (c : Call) (d : Dev) : Ans × Dev :=
  let n := c.p 0 0 3
  if n = c.slot ∨ (d.slot n).state ≠ .opened then (.now .badParameter, d) else (.now .ok, d.close n .denied)

/-- SESSION_EVICT (R57). -/
def execSessionEvict (c : HostCall) (s : State) : Host.Outcome State Fault Refusal :=
  runVerb verbSessionEvict (onDev sessionEvict) c s

/-- SESSION.CLAIM (R57); the time-stamp bobbin needs an operator (R48). -/
def verbSessionClaim : Verb where
  code := 0x0105
  role := .observer
  len := 1
  roleBit := some (1, .operator)
  params := [⟨0, 2, 6, .rsv⟩]

/-- The owner of the event or time-stamp bobbin after a claim, none where the claim is refused (R57). -/
def claimOwner (owner : Option Nat) (slot : Nat) (take : Bool) : Option (Option Nat) :=
  if take then (if owner = none ∨ owner = some slot then some (some slot) else none)
  else if owner = some slot then some none else none

/-- Take or give up a claim (R57). -/
def sessionClaim (c : Call) (d : Dev) : Ans × Dev :=
  let take := c.p 0 0 1 == 1
  if c.p 0 1 1 = 0 then
    match claimOwner d.ctl.evt.owner c.slot take with
    | none => (.now .state, d)
    | some o => (.now .ok, { d with ctl := { d.ctl with evt := { d.ctl.evt with owner := o } } })
  else
    match claimOwner d.ctl.stamp.owner c.slot take with
    | none => (.now .state, d)
    | some o => (.now .ok, { d with ctl := { d.ctl with stamp := { d.ctl.stamp with owner := o } } })

/-- SESSION_CLAIM (R57). -/
def execSessionClaim (c : HostCall) (s : State) : Host.Outcome State Fault Refusal :=
  runVerb verbSessionClaim (onDev sessionClaim) c s

/-- SESSION.OP_RESULT (R57). -/
def verbSessionOpResult : Verb where
  code := 0x0107
  role := .observer
  len := 2

/-- The status of one of the session's 32 most recent accepted operations (R57). -/
def sessionOpResult (c : Call) (d : Dev) : Ans × Dev :=
  match (d.slot c.slot).ops.find? (·.seq == c.p 0 0 16) with
  | none => (.now .badParameter, d)
  | some o => (.now .ok (res 4 [fieldAt 0 16 o.status.code, fieldAt 2 16 o.code]), d)

/-- SESSION_OP_RESULT (R57). -/
def execSessionOpResult (c : HostCall) (s : State) : Host.Outcome State Fault Refusal :=
  runVerb verbSessionOpResult (onDev sessionOpResult) c s

/-! ### SYS -/

/-- SYS.ROLE (R23). -/
def verbSysRole : Verb where
  code := 0x0210
  role := .operator
  len := 8
  params := [⟨0, 0, 8, .enum [1, 2, 3]⟩, ⟨1, 0, 8, .enum [0, 1]⟩, ⟨2, 0, 48, .rsv⟩]

/-- SYS_ROLE: stages the role while the device is DORMANT (R23). -/
def execSysRole (c : HostCall) (s : State) : Host.Outcome State Fault Refusal :=
  runVerb verbSysRole (stageOn ⟨.device, 0⟩
    (fun _ d => if d.powerState = .dormant then none else some .state)
    (fun c _ => [fv .role 0 (c.p 0 0 8) 8, fv .stitchUse 0 (c.p 1 0 8) 8])) c s

/-- SYS.ROLE_READ (R24). -/
def verbSysRoleRead : Verb where
  code := 0x0211
  role := .observer
  len := 0

/-- The role that some session has staged and no commit has applied yet, 0 for none (R24). -/
def Dev.stagedRole (d : Dev) : Nat :=
  ((d.cfg.staged ++ (d.cfg.commits.filter (·.phase == .waiting)).flatMap (·.entries)).findSome? fun e =>
    (e.vals.find? fun v => v.fld == .role).map (·.val)).getD 0

/-- SYS_ROLE_READ (R24): committed values and the power state of the view; the staged role is the present one. -/
def execSysRoleRead (c : HostCall) (s : State) : Host.Outcome State Fault Refusal :=
  runVerb verbSysRoleRead (fun c s =>
    let v := s.view c.slot
    (.now .ok (res 8 [fieldAt 0 8 v.role.code, fieldAt 1 8 (v.conf .stitchUse), fieldAt 2 8 s.dev.stagedRole,
      fieldAt 3 8 v.powerState.code]), s)) c s

/-- SYS.EVENT_SET (R61). -/
def verbSysEventSet : Verb where
  code := 0x0220
  role := .operator
  len := 5
  params := [⟨0, 0, 9, .range 0 0x17F⟩, ⟨0, 9, 7, .rsv⟩, ⟨2, 0, 16, .range 1 384⟩, ⟨4, 4, 4, .rsv⟩]
  ranges := fun c => decide (c.p 0 0 9 + c.p 2 0 16 > 384)

/-- The run must spare `EV_EVENT_OVERFLOW` (R61) (DEDUCED, assumption 29). -/
def eventSetCheck (c : Call) (_ : Dev) : Option Status :=
  let f := c.p 0 0 9
  let n := c.p 2 0 16
  if f ≤ Ev.eventOverflow.code ∧ Ev.eventOverflow.code < f + n then some .badParameter
  else none

/-- The enables, and the priorities unless they are kept, of the run's sources (R61). -/
def eventSetVals (c : Call) (_ : Dev) : List FieldVal :=
  (List.range (c.p 2 0 16)).flatMap fun k =>
    let e := c.p 0 0 9 + k
    fv .evtEnable e (c.p 4 0 1) 1 :: (if c.p 4 3 1 = 1 then [] else [fv .evtPriority e (c.p 4 1 2) 2])

/-- SYS_EVENT_SET (R61). -/
def execSysEventSet (c : HostCall) (s : State) : Host.Outcome State Fault Refusal :=
  runVerb verbSysEventSet (stageOn ⟨.device, 0⟩ eventSetCheck eventSetVals) c s

/-- SYS.BOOT_READ (R531). -/
def verbSysBootRead : Verb where
  code := 0x0231
  role := .observer
  len := 0

/-- The code of a reset cause (R531). -/
def ResetCause.code : ResetCause → Nat
  | .por => 1 | .warmKept => 2 | .warmLoaded => 3 | .watchdog => 4 | .memory => 5

/-- SYS_BOOT_READ (R531). -/
def execSysBootRead (c : HostCall) (s : State) : Host.Outcome State Fault Refusal :=
  runVerb verbSysBootRead (onView fun _ v =>
    .now .ok (res 12 [fieldAt 0 8 v.boot.cause.code, at' 1 0 1 (b2n v.otp.secure), at' 1 1 1 (b2n v.otp.fwCheck),
      fieldAt 2 16 v.boot.warm, fieldAt 4 64 v.boot.startCount])) c s

end Sys2Proof.Machine
end

