-- ==== Sys2Proof/Machine/Refs.lean ====
section
/-! DEFINITION. References, selection, switching, holdover and the oscillator model (R345 to R375). -/

namespace Sys2Proof.Machine

/-- Change the state of references. -/
def Dev.modRef (d : Dev) (f : RefSt → RefSt) : Dev := { d with ref := f d.ref }

/-- A reference. -/
def Dev.refIn (d : Dev) (r : Nat) : RefIn := d.ref.ins.get refDefault r

/-- Change a reference. -/
def Dev.modRefIn (d : Dev) (r : Nat) (f : RefIn → RefIn) : Dev :=
  d.modRef fun x => { x with ins := x.ins.modify refDefault r f }

/-- Raise an event about a reference. -/
def Dev.raiseRef (d : Dev) (ev : Ev) (r info : Nat) : Dev := d.raiseAt ev ⟨.reference, r⟩ info

/-- Raise an event about `time`. -/
def Dev.raiseTime (d : Dev) (ev : Ev) (info : Nat) : Dev := d.raiseAt ev ⟨.time, 0⟩ info

/-- A value held between two bounds (DESIGN CHOICE, assumption 115). -/
def clampInt (lo hi x : Int) : Int := if x < lo then lo else if x > hi then hi else x

/-! ### Inputs (R347 to R350) -/

/-- The time that a reference gives, as its time minus device time in 2^-16 ns, while it has one (R347). -/
def Dev.refTimeOf (d : Dev) (r : Nat) : Option Int :=
  let far := fun (t : TtSt) => if t.valid ∧ (t.far.map (·.timeValid)).getD false then some (-t.offset) else none
  let x := d.refIn r
  if x.state = .off ∨ x.state = .failed then none
  else if r ≤ 1 then (if d.todFmt r = 0 then none else x.time)
  else if r = 2 then (if d.role = .hub then none else far d.time.line)
  else if r = 3 then far d.time.stitch
  else if r = 4 then x.time
  else none

/-- A reference is time-capable (R347) (DEDUCED, assumption 116). -/
def Dev.timeCapable (d : Dev) (r : Nat) : Bool := (d.refTimeOf r).isSome

/-- The offset that the time loop takes from a reference: its time, or of a GNSS input without ToD the phase alone (R345, R348) (DESIGN CHOICE, assumption 119). -/
def Dev.loopOffset (d : Dev) (r : Nat) : Int :=
  match d.refTimeOf r with
  | some t => t
  | none => let x := d.refIn r
    if r ≤ 1 ∧ d.todFmt r = 0 ∧ x.state ≠ .off ∧ x.state ≠ .failed then x.time.getD 0 else 0

/-- A second and a microsecond of TC in 10^-15 TC. -/
def secTc : Int := 2500000000 * 1000000000000000
/-- A microsecond. -/
def usTc : Int := 2500 * 1000000000000000

/-- The frequency of a reference against TC in ppt; of `LINE` it is `RATE_OFFSET` (R179, R347). -/
def Dev.refFreq (d : Dev) (r : Nat) : Int :=
  if r = 2 then (d.line.rateOffset.map fun x => x / 10).getD 0 else (d.refIn r).freq

/-- Take in what the firmware has measured. -/
def Dev.refMeasure (d : Dev) (m : RefMeas) : Dev :=
  let d := (d.modRefIn 3 fun x => { x with freq := m.stitch }).modRefIn 4 fun x => { x with freq := m.ptp, time := some (ps16 m.ptpTime) }
  d.modRefIn 5 fun x => { x with freq := m.extf }

/-- Two seconds have passed at a GNSS input without an edge in its place (R347) (DESIGN CHOICE, assumption 117). -/
def Dev.edgesMissing (d : Dev) (r : Nat) : Bool :=
  let x := d.refIn r
  match x.grid, x.period with
  | some g, some p => decide (d.tcTotal d.now > g + 2 * p + usTc)
  | _, _ => decide (d.now > x.since + secCycles 2 + usCycles 1)

/-- A failure that the device itself sees on an input: edges that stay away of GNSS, no `RATE_OFFSET` on `LINE`, stitch lane 0 out of lock on
`STITCH`, or but for `PTP` a frequency outside `FREQ_RANGE` (R347). -/
def Dev.refBad (d : Dev) (r : Nat) : Option Nat :=
  if (r ≤ 1 ∧ d.edgesMissing r) ∨ (r = 2 ∧ d.line.rateOffset.isNone) ∨ (r = 3 ∧ !(d.lane.lanes.get (fun _ => {}) 16).locked) then some 1
  else if r < 6 ∧ r ≠ 4 ∧ (d.refFreq r).natAbs > 10000 * d.conf .refRange r then some 2 else none

/-- While the loops follow a reference the oscillator's error is measured over 1 s windows and kept for `HO_AVG_S`, at least 60 s (R347, R361, R362)
(DESIGN CHOICE, assumption 214). -/
def Dev.measureError (d : Dev) : Dev :=
  match d.ref.sync, d.ref.selected with
  | .acquiring, some r | .locked, some r =>
    if d.ref.errs.any fun e => decide (d.now < e.1 + secCycles 1) then d else
    d.modRef fun x => { x with
      errs := (d.now, -(x.s + 1000 * d.refFreq r)) :: x.errs.filter fun e => decide (d.now < e.1 + secCycles (max 60 (d.conf .hoAvg))) }
  | _, _ => d

/-! ### Loop states (R356, R357) -/

/-- The quality level of the output (R357); while no reference is selected it is that of holdover (DESIGN CHOICE, assumption 120). -/
def Dev.outQlNow (d : Dev) : Nat :=
  match d.ref.sync, d.ref.selected with
  | .freeRun, _ | .holdover, _ | _, none => d.conf .hoQl
  | _, some r => d.conf .refQl r

/-- Report a change of the output's quality level. -/
def Dev.checkQl (d : Dev) : Dev :=
  let q := d.outQlNow
  if q = d.ref.outQl then d else (d.modRef fun x => { x with outQl := q }).raiseTime .outQlChanged q

/-- The code of a loop state (R371). -/
def SyncState.code : SyncState → Nat
  | .freeRun => 0 | .acquiring => 1 | .locked => 2 | .switching => 3 | .holdover => 4

/-- A change of loop state (R356). -/
def Dev.syncGo (d : Dev) (st : SyncState) : Dev :=
  let was := d.ref.sync
  if was = st then d.checkQl else
  let d := d.modRef fun x => { x with
    sync := st, goodFrom := none,
    lockedFor := if was = .locked then d.now - x.lockedAt else if st = .locked then 0 else x.lockedFor,
    lockedAt := if st = .locked then d.now else x.lockedAt,
    learnAt := if st = .locked then d.now + secCycles 660 else x.learnAt,
    hoFrom := if st = .holdover then d.now else x.hoFrom,
    hoLast := if was = .holdover then d.now - x.hoFrom else x.hoLast }
  (d.raiseTime .syncState st.code).checkQl

/-- Holdover data is valid (R356). -/
def Dev.hoValid (d : Dev) : Bool :=
  let x := d.ref
  let stay := if x.sync = .locked then d.now - x.lockedAt else x.lockedFor
  x.model.valid || decide (stay ≥ secCycles (d.conf .hoAvg))

/-! ### The oscillator model (R360 to R362) -/

/-- AC cycles of a day. -/
def dayCycles : Nat := secCycles 86400

/-- `y_model` (R360), as a number of 1e-18 over 10,000 × the cycles of a day. -/
def OscModel.num (m : OscModel) (th dth : Int) (age : Nat) : Int :=
  let t := th - m.t0
  (m.c0 * 10000 + (m.c1 * t + m.c3 * dth) * 100 + m.c2 * t * t) * dayCycles + m.c4 * age * 10000

/-- Age of the model in AC cycles (R361). -/
def Dev.modelAge (d : Dev) : Nat := d.now - d.ref.model.c0From

/-- What the holdover prediction starts from, taken on leaving a locked loop or free-run: the mean error measured over the last `HO_AVG_S`,
which is open where none was measured (R362, assumption 1) (DESIGN CHOICE, assumption 214). -/
def Dev.takeEntry (d : Dev) : Dev :=
  let l := (d.ref.errs.filter fun e => decide (d.now < e.1 + secCycles (d.conf .hoAvg))).map (·.2)
  let (y, d) := if l.isEmpty then let (w, d) := d.draw; (signed 48 (w % 2 ^ 48), d) else (roundDiv l.sum l.length, d)
  d.modRef fun x => { x with entry := ⟨y, x.temp, x.dth, d.modelAge⟩ }

/-- `y_pred` in 1e-15 (R362) (DESIGN CHOICE, assumption 121). -/
def Dev.predicted (d : Dev) : Int :=
  let e := d.ref.entry
  let m := d.ref.model
  if m.valid then
    e.y + roundDiv (m.num d.ref.temp d.ref.dth d.modelAge - m.num e.th e.dth e.age) (10000 * 1000 * dayCycles)
  else e.y

/-! ### The two loops (R345, R346) -/

/-- 2π as a fraction with 48 decimals (DESIGN CHOICE, assumption 114). -/
def twoPiNum : Int := 6283185307179586476925286766559005768394338798750
/-- Its denominator (DESIGN CHOICE, assumption 114). -/
def twoPiDen : Int := 10 ^ 48

/-- Ten times the bandwidth of `LOOP_BW` in Hz (R358). -/
def loopBw (c : Nat) : Int := if c = 0 then 1 else if c = 1 then 10 else if c = 2 then 30 else 100

/-- The pull of an offset in 2^-16 ns, in 1e-15 (R345) (DESIGN CHOICE, assumption 115). -/
def pullOf (offset : Int) (bw : Nat) (limit : Nat) : Int :=
  let l : Int := limit * 1000000
  clampInt (-l) l (roundDiv (offset * twoPiNum * loopBw bw * 1000000) (65536 * 10 * twoPiDen))

/-- The loops take input from a reference. -/
def SyncState.tracks : SyncState → Bool
  | .acquiring | .locked => true
  | _ => false

/-- What the frequency loop adds to S in so many AC cycles: a loop of the first order, which takes 2π · `BW_HZ` of the selected reference's
frequency in a second and at most the whole of it (R345, R358) (DEDUCED, assumption 113). -/
def loopStep (freq : Int) (bw cycles : Nat) : Int :=
  let all := 1000 * freq
  let part := roundDiv (all * twoPiNum * loopBw bw * cycles) (25000000 * 10 * twoPiDen)
  if part.natAbs < all.natAbs then part else all

/-- S moves towards what the loop state asks for, by at most 1 ppm/s: the free-run trim, the prediction, or what drives the
reference's frequency to zero (R345, R356, R362) (DEDUCED, assumption 113). -/
def Dev.steerFreq (d : Dev) : Dev :=
  let x := d.ref
  let cap : Int := 40 * (d.now - x.sAt : Nat)
  let want := match x.sync with
    | .freeRun => signed 48 (d.conf .refTrim)
    | .switching | .holdover => -d.predicted
    | _ => x.s + (x.selected.map fun r => loopStep (d.refFreq r) (d.conf .refBw) (d.now - x.sAt)).getD 0
  let s := clampInt (-100000000000) 100000000000 (clampInt (x.s - cap) (x.s + cap) want)
  d.foldTc.modRef fun x => { x with s := s, sAt := d.now }

/-- The offset that the time loop sees, with the time build-out reduced towards zero (R345) (DESIGN CHOICE, assumption 113). -/
def Dev.steerTime (d : Dev) (cycles : Nat) : Dev :=
  let cut : Int := d.conf .refPull * 65536 * cycles / 25000000
  let d := d.modRef fun x => { x with buildTime := x.buildTime - clampInt (-cut) cut x.buildTime }
  if d.conf .refTimeMode = 0 then d else
  let pull := match d.ref.sync.tracks, d.ref.selected with
    | true, some r => if d.timeCapable r ∨ (r ≤ 1 ∧ d.todFmt r = 0) then
        pullOf (d.loopOffset r - d.ref.buildTime) (d.conf .refBw) (d.conf .refPull) else 0
    | _, _ => 0
  let rate := d.ref.s + pull
  if rate = d.time.rate then d else d.setRate rate

/-- The loops act. -/
def Dev.steer (d : Dev) : Dev :=
  let cycles := d.now - d.ref.sAt
  d.steerFreq.steerTime cycles

/-! ### Selection and switching (R353 to R356) -/

/-- The rank of a reference: lower is better, `LOCAL` last (R353). -/
def Dev.refRank (d : Dev) (r : Nat) : Nat :=
  (if r = 6 then 2 ^ 20 else 0) + (if d.conf .refQlEn = 1 then d.conf .refQl r * 2 ^ 10 else 0) + d.conf .refPrio r * 2 ^ 4 + r

/-- A reference at DNU under `QL_EN`. -/
def Dev.refDnu (d : Dev) (r : Nat) : Bool := d.conf .refQlEn == 1 && d.conf .refQl r == 15

/-- A reference is `AVAILABLE`, or in `WTR`. -/
def Dev.refUp (d : Dev) (r : Nat) (wtr : Bool) : Bool :=
  (d.refIn r).state == .available || (wtr && (d.refIn r).state == .wtr)

/-- The best of some references (DEDUCED, assumption 118). -/
def Dev.refBest (d : Dev) (l : List Nat) : Option Nat :=
  l.foldl (fun m r => match m with
    | none => some r
    | some b => if d.refRank r < d.refRank b then some r else some b) none

/-- The target of R353; `LOCAL` as target stands for none. -/
def Dev.refTarget (d : Dev) : Option Nat :=
  let mode := d.conf .refMode
  let f := d.conf .refForced
  let all := List.range 7
  let t := if mode = 1 then (if d.refUp f true then some f else none)
    else if mode ≥ 2 then none
    else match d.ref.selected with
      | none => d.refBest (all.filter fun r => d.refUp r true && !d.refDnu r)
      | some cur =>
        if (d.refIn cur).state = .failed ∨ d.refDnu cur then d.refBest (all.filter fun r => d.refUp r true && !d.refDnu r)
        else match d.refBest (all.filter fun r => d.refUp r false && !d.refDnu r && decide (d.refRank r < d.refRank cur)) with
          | none => some cur
          | some b =>
            if d.conf .refRevertive = 1 ∨ (d.conf .refQlEn = 1 ∧ d.conf .refQl b < d.conf .refQl cur) then some b else some cur
  if t = some 6 then none else t

/-- A switch starts: the loops run on the prediction from here (R354, R356) (DESIGN CHOICE, assumption 120). -/
def Dev.startSwitch (d : Dev) (t : Nat) : Dev :=
  let x := d.ref
  let old := x.selected
  let d := if x.sync = .freeRun ∨ x.sync.tracks then d.takeEntry else d
  let d := if x.sync.tracks then d.raiseRef .refSwitchStart t ((old.getD 15) + 16 * t)
    else if x.sync = .holdover then d.raiseTime .holdoverExit (sat 16 ((d.now - x.hoFrom) / secCycles 60)) else d
  (d.modRef fun x => { x with sw := some ⟨old, t, d.now⟩, alarm := false }).syncGo .switching

/-- The target is none while a reference is selected: holdover, or free-run without valid holdover data (R356). -/
def Dev.loseRefs (d : Dev) : Dev :=
  let ok := d.hoValid
  let d := if d.ref.sync.tracks then d.takeEntry else d
  let d := d.modRef fun x => { x with selected := none, alarm := false }
  if ok then (d.raiseTime .holdoverEnter (b2n d.ref.model.valid)).syncGo .holdover else d.syncGo .freeRun

/-- Selection is evaluated; not while a switch runs (R353) (DEDUCED, assumption 118). -/
def Dev.refEvaluate (d : Dev) : Dev :=
  let x := d.ref
  if x.sw.isSome then d else
  match d.refTarget with
  | some t => if x.sync.tracks ∧ x.selected = some t then d else d.startSwitch t
  | none => if x.sync = .freeRun ∨ x.sync = .holdover then d else d.loseRefs

/-- A time-capable reference whose offset exceeds `TIME_ALARM_NS` while time is established (R359) (DESIGN CHOICE, assumption 119). -/
def Dev.checkAlarm (d : Dev) : Dev :=
  match d.ref.sync.tracks, d.ref.selected with
  | true, some r =>
    match d.refTimeOf r with
    | some t =>
      let above := d.time.established && decide (t.natAbs > d.conf .refAlarm * 65536)
      let was := d.ref.alarm
      let d := d.modRef fun x => { x with alarm := above }
      if above && !was then d.raiseRef .refTimeAlarm r (satS 16 (t / 65536000)) else d
    | none => d.modRef fun x => { x with alarm := false }
  | _, _ => d

/-- The conditions for `LOCKED` at an evaluation: frequency below 1e-10, and the loop's offset below 100 ns (R356). -/
def Dev.checkGood (d : Dev) : Dev :=
  match d.ref.sync, d.ref.selected with
  | .acquiring, some r =>
    let good := decide ((d.refFreq r).natAbs < 100) && (d.conf .refTimeMode == 0 || !d.timeCapable r ||
      decide ((d.loopOffset r - d.ref.buildTime).natAbs < 100 * 65536))
    d.modRef fun x => { x with goodFrom := if good then some (x.goodFrom.getD d.now) else none }
  | _, _ => d

/-- A reference starts to qualify (R352). -/
def Dev.refQualify (d : Dev) (r : Nat) : Dev :=
  d.modRefIn r fun x => { x with state := .qualifying, due := d.now + msCycles (d.conf .refQualMs r) }

/-- A reference becomes available (R352). -/
def Dev.refAvail (d : Dev) (r : Nat) : Dev :=
  (d.modRefIn r fun x => { x with state := .available }).raiseRef .refAvailable r r

/-- A reference waits to restore (R352). -/
def Dev.refWait (d : Dev) (r : Nat) : Dev :=
  d.modRefIn r fun x => { x with state := .wtr, due := d.now + secCycles (d.conf .refWtr) }

/-- What changed settings do at once: an enable starts the qualification, a disable switches off, `MODE` 3 goes to free-run, and
steering taken up replaces a slew hold (R346, R352, R356). `old` is the device before. -/
def Dev.refSettled (d old : Dev) : Dev :=
  let d := (List.range 6).foldl (fun d r =>
    let on := d.conf .refEnable r == 1
    if on && (d.refIn r).state == .off then (d.modRefIn r fun x => { x with failed := false, since := d.now }).refQualify r
    else if !on && (d.refIn r).state != .off then
      d.modRefIn r fun x => { failures := x.failures, todErrors := x.todErrors, cause := x.cause }
    else d) d
  let d := if d.conf .refTimeMode = 1 ∧ old.conf .refTimeMode = 0 then d.modTime fun x => { x with hold := none } else d
  let d := if d.conf .refMode = 3 ∧ d.ref.sync ≠ .freeRun then
      (d.modRef fun x => { x with selected := none, alarm := false }).syncGo .freeRun else d
  d.checkQl

/-- A switch is over: commits of selection and inputs that waited for it apply (R355, R368). -/
def Dev.refRelease (d : Dev) : Dev :=
  let l := d.ref.held
  if l.isEmpty then d else
  let new := l.foldl (fun d v => d.setConf v.fld v.idx v.val) (d.modRef fun x => { x with held := [], heldBy := [] })
  d.ref.heldBy.foldl (fun d id => d.busOver id 2) (new.refSettled d)

/-- SWITCH_COMPLETE: build-outs are loaded and the loops take the new reference; then selection is evaluated (R354 to R356). -/
def execSwitchComplete (phase : Int) (m : RefMeas) (s : State) : Host.Outcome State Fault Refusal :=
  s.run fun d =>
    match d.ref.sw with
    | none => d
    | some w =>
      let d := ((d.at (w.start + msCycles 10)).refMeasure m).steer
      let cap := d.timeCapable w.new
      let d := d.modRef fun x => { x with
        sw := none, selected := some w.new, buildFreq := phase, buildTime := if cap then d.loopOffset w.new else 0,
        switches := (x.switches + 1) % 2 ^ 32 }
      let d := d.raiseRef .refSwitchDone w.new (w.old.getD 15 + 16 * w.new)
      let d := d.syncGo (if (1000 * d.refFreq w.new + d.ref.s + d.predicted).natAbs ≤ 1000000 then .locked else .acquiring)
      d.refRelease.refEvaluate

/-- REFERENCE_TIME_STEP: the time-capable reference from which the loops take input steps time while it is not established, under `TIME_STEER`; a
pending `TIME.STEP` ends with `STATE` (R321, R359) (DEDUCED, assumption 214). -/
def execReferenceTimeStep (m : RefMeas) (s : State) : Host.Outcome State Fault Refusal :=
  s.run fun d =>
    let d := d.refMeasure m
    match d.ref.sync.tracks && !d.time.established && d.conf .refTimeMode == 1, d.ref.selected.bind d.refTimeOf with
    | true, some t =>
      let d := match d.time.step with
        | some p => d.endOp p.slot p.serial p.seq .state
        | none => d
      d.stepTime d.now 0 (d.time16 + t) 1
    | _, _ => d

/-- ACQUIRE_LOCKED: 10 s within the limits (R356). -/
def execAcquireLocked (s : State) : Host.Outcome State Fault Refusal :=
  s.run fun d =>
    match d.ref.sync, d.ref.goodFrom with
    | .acquiring, some t => (d.at (t + secCycles 10)).syncGo .locked
    | _, _ => d

/-! ### Reference states (R352) -/

/-- A reference fails: the loss starts; a switch to it is abandoned and selection evaluated (R347, R352, R355) (DESIGN CHOICE, assumption 117). -/
def Dev.refFail (d : Dev) (r cause : Nat) : Dev :=
  let x := d.refIn r
  if r ≥ 6 ∨ x.state = .off ∨ x.state = .failed then d else
  let d := d.modRefIn r fun x => { x with
    state := .failed, cause := cause, lossStart := d.now, failed := true, failures := (x.failures + 1) % 2 ^ 32,
    time := none, todLast := none, todNext := none, gotMsg := false, noMsg := 0, misplaced := 0, grid := none, period := none }
  let d := d.raiseRef .refFailed r cause
  match d.ref.sw with
  | some w =>
    if w.new = r then
      ((d.modRef fun x => { x with sw := none }).raiseRef .refSwitchAbandoned r r).refRelease.refEvaluate
    else d
  | none => d

/-- The inputs on which the device sees a failure fail (R347). -/
def Dev.refWatch (d : Dev) : Dev :=
  (List.range 6).foldl (fun d r => match d.refBad r with
    | some c => d.refFail r c
    | none => d) d

/-- Every 1 ms the loops act and selection is evaluated (R345, R353, R359). -/
def Dev.selectionEvaluation (d : Dev) (m : RefMeas) : Dev :=
  let d := (d.at d.ref.evalAt).refMeasure m
  let d := d.modRef fun x => { x with evalAt := d.now + msCycles 1 }
  d.refWatch.steer.measureError.checkAlarm.checkGood.refEvaluate

/-- The causes for which an input can fail (R347, R372). -/
def refCauses (r : Nat) : List Nat :=
  if r ≤ 1 then [1, 2, 3, 4, 5] else if r ≤ 3 then [1, 2, 6] else if r = 4 then [1, 5] else if r = 5 then [1, 2] else []

/-- REF_FAILURE (R347, R352). -/
def execRefFailure (r cause : Nat) (s : State) : Host.Outcome State Fault Refusal :=
  s.run fun d => if (refCauses r).contains cause then d.refFail r cause else d

/-- REF_FAILURE_CLEARS: a loss of 10 ms or less keeps the qualification (R352); not while the device itself sees a failure (R347). -/
def execRefFailureClears (r : Nat) (s : State) : Host.Outcome State Fault Refusal :=
  s.run fun d =>
    let x := d.refIn r
    if x.state ≠ .failed ∨ (d.refBad r).isSome then d
    else if d.now - x.lossStart > msCycles 10 then d.refQualify r else d.refWait r

/-- REF_QUALIFIED: `QUAL_MS` without failure (R352). -/
def execRefQualified (r : Nat) (s : State) : Host.Outcome State Fault Refusal :=
  s.run fun d =>
    let x := d.refIn r
    if x.state ≠ .qualifying then d else
    let d := d.at x.due
    if d.conf .refWtr > 0 ∧ x.failed then d.refWait r else d.refAvail r

/-- REF_WTR_EXPIRY (R352). -/
def execRefWtrExpiry (r : Nat) (s : State) : Host.Outcome State Fault Refusal :=
  s.run fun d => if (d.refIn r).state = .wtr then (d.at (d.refIn r).due).refAvail r else d

/-! ### Pulses and ToD messages (R347 to R350) -/

/-- An edge's time when it names a second, less the cable's delay, against device time (R347). -/
def Dev.edgeOffset (d : Dev) (r : Nat) (e : PpsEdge) (sec : Nat) : Int :=
  sec * sec16 + ps16 (signed 32 (d.conf .refCable r)) - e.time

/-- The phase of an edge against whole seconds of device time, between −0.5 s and 0.5 s (R348). -/
def Dev.edgePhase (d : Dev) (r : Nat) (e : PpsEdge) : Int :=
  halfSecond (ps16 (signed 32 (d.conf .refCable r)) - e.time)

/-- Where an edge falls on an input's seconds (R347): the seconds of TC from the last edge in its place to the nearest expected one, and
whether it lies within 1 µs of it. The expected second is that of the input's own period, taken from its last two edges in their place, and
of TC until there are two (DESIGN CHOICE, assumption 117). -/
def RefIn.place (x : RefIn) (tc : Int) : Int × Bool :=
  match x.grid with
  | none => (0, true)
  | some g =>
    let p := x.period.getD secTc
    let n := (2 * (tc - g) + p) / (2 * p)
    (n, decide (0 < n) && (x.period.isNone || decide ((tc - g - n * p).natAbs ≤ usTc)))

/-- An edge at a GNSS input: one in its place gives the period and the frequency; the second edge or second in succession without one
fails the input (R347) (DESIGN CHOICE, assumption 117). -/
def RefIn.edge (x : RefIn) (now : Nat) (tc : Int) : RefIn :=
  match x.place tc with
  | (n, true) =>
    let p := x.grid.map fun g => roundDiv (tc - g) n.natAbs
    { x with
      since := now, grid := some tc, period := p, misplaced := 0,
      freq := (p.map fun p => roundDiv ((secTc - p) * 1000000000000) p).getD x.freq }
  | (n, false) => { x with misplaced := max (x.misplaced + 1) n.toNat }

/-- PPS_EDGE: the edge is latched and serves a pending step; it gives a GNSS reference frequency and phase; two misplaced edges, or
three without an accepted message, fail it (R318, R323, R347, R348). -/
def execPpsEdge (second : Bool) (frac : Nat) (s : State) : Host.Outcome State Fault Refusal :=
  s.run fun d =>
    let r := b2n second
    let prev := if second then d.time.ppsB else d.time.ppsA
    let d := d.ppsLatch second frac
    let last := if second then d.time.ppsB else d.time.ppsA
    match last with
    | none => d
    | some e =>
      let x := d.refIn r
      if x.state = .off then d else
      let fmt := d.todFmt r
      let d := d.modRefIn r fun x => { x.edge d.now e.tc with
        noMsg := if prev.isNone ∨ fmt = 0 ∨ x.gotMsg then 0 else x.noMsg + 1, gotMsg := false, todNext := none,
        todLast := if x.todNext.isSome then x.todNext else x.todLast,
        time := if fmt = 0 then some (d.edgePhase r e)
          else match x.todNext with
            | some sec => some (d.edgeOffset r e sec)
            | none => x.time }
      let x := d.refIn r
      if x.misplaced ≥ 2 then d.refFail r 3 else if fmt ≠ 0 ∧ x.noMsg ≥ 3 then d.refFail r 4 else d

/-- What a ToD message gives: the second it names and whether the receiver is locked. -/
structure TodTime where
  sec : Nat
  locked : Bool
deriving DecidableEq, Repr

/-- A binary ToD message that passes its check (R349). -/
def todBinary (b : List Byte) : Option TodTime :=
  if b.length = 16 ∧ beNat (b.take 2) = 0xA74D ∧ beNat (slice b 2 1) = 0x11 ∧ beNat (slice b 14 2) = crcMsb 16 0x1021 0xFFFF (b.take 14) then
    some ⟨beNat (slice b 3 6), bit (beNat (slice b 9 1)) 7⟩
  else none

/-- The number that ASCII digits spell (PRESUMED, assumption 8). -/
def asciiNat (l : List Byte) : Option Nat :=
  if l.isEmpty then none else
  l.foldl (fun m b => m.bind fun n => if 48 ≤ b.toNat ∧ b.toNat ≤ 57 then some (10 * n + (b.toNat - 48)) else none) (some 0)

/-- The value of two hexadecimal digits. -/
def asciiHex (l : List Byte) : Option Nat :=
  l.foldl (fun m b => m.bind fun n =>
    let c := b.toNat
    if 48 ≤ c ∧ c ≤ 57 then some (16 * n + (c - 48)) else if 65 ≤ c ∧ c ≤ 70 then some (16 * n + (c - 55))
    else if 97 ≤ c ∧ c ≤ 102 then some (16 * n + (c - 87)) else none) (some 0)

/-- Text cut at each comma. -/
def splitComma : List Byte → List (List Byte)
  | [] => [[]]
  | b :: r =>
    match splitComma r with
    | [] => [[b]]
    | f :: t => if b.toNat = 44 then [] :: f :: t else (b :: f) :: t

/-- Days since 1970-01-01 of a date of the Gregorian calendar. -/
def civilDays (y m dd : Nat) : Nat :=
  let y' := if m ≤ 2 then y - 1 else y
  let m' := (m + 9) % 12
  365 * y' + y' / 4 - y' / 100 + y' / 400 + (153 * m' + 2) / 5 + dd - 1 - 719468

/-- The TAI second of a ZDA sentence with a valid NMEA checksum: `$ttZDA,hhmmss,dd,mm,yyyy,…*cc` (R350, assumption 8). -/
def todZda (tai : Nat) (b : List Byte) : Option TodTime :=
  let body := (b.drop 1).takeWhile (·.toNat != 42)
  let sum := body.foldl (fun a x => a ^^^ x.toNat) 0
  let f := splitComma body
  let hms := f.getD 1 []
  let num := fun (l : List Byte) => asciiNat l
  match num (hms.take 2), num (slice hms 2 2), num (slice hms 4 2), num (f.getD 2 []), num (f.getD 3 []), num (f.getD 4 []) with
  | some h, some mi, some sc, some dd, some mo, some y =>
    if (b.headD 0).toNat = 36 ∧ slice (f.getD 0 []) 2 3 = ascii "ZDA" ∧ asciiHex (slice b (body.length + 2) 2) = some sum ∧
        (slice b (body.length + 1) 1).length = 1 ∧ 1970 ≤ y ∧ 1 ≤ mo ∧ mo ≤ 12 ∧ 1 ≤ dd then
      some ⟨civilDays y mo dd * 86400 + h * 3600 + mi * 60 + sc + tai, true⟩
    else none
  | _, _, _, _, _, _ => none

/-- TOD_MESSAGE: a message whose end lies 50 ms to 950 ms after an edge, that passes its check and names the second after the last
accepted one is accepted; any other is counted (R348 to R350). -/
def execTodMessage (second : Bool) (bytes : List Byte) (s : State) : Host.Outcome State Fault Refusal :=
  s.run fun d =>
    let r := b2n second
    let x := d.refIn r
    let fmt := d.todFmt r
    if x.state = .off ∨ fmt = 0 then d else
    let msg := if fmt = 2 then todBinary bytes else todZda (d.conf .refUtc) bytes
    let bad := d.modRefIn r fun x => { x with todErrors := (x.todErrors + 1) % 2 ^ 32 }
    match (if second then d.time.ppsB else d.time.ppsA), msg with
    | some e, some m =>
      let gap := d.now - e.cnt
      if gap < msCycles 50 ∨ msCycles 950 < gap ∨ (x.todNext.orElse fun _ => x.todLast).any (fun l => m.sec != l + 1) then bad else
      let after := d.conf .refTodEdge r == 1
      let d := d.modRefIn r fun x => { x with
        gotMsg := true,
        todLast := if after then x.todLast else some m.sec,
        todNext := if after then some m.sec else none,
        time := if after then x.time else some (d.edgeOffset r e m.sec) }
      if m.locked then d else d.refFail r 5
    | _, _ => bad

/-! ### Oscillator temperature and model (R360, R361) -/

/-- A thermistor's temperature in 0.01 °C, from its `NTC_BETA` in K, its `NTC_R25` in Ω and a code in 1/16 LSB of its divider with 10.0 kΩ, by the
beta equation; a divider at either end of its range reads outside every temperature (R360, R504, R562) (PRESUMED, assumption 213). -/
def ntcTemp (beta r25 code : Nat) : Int :=
  if code = 0 then 20000 else if code ≥ 65536 then -20000 else
  let l := fxLn (10000 * code) (r25 * (65536 - code))
  let den := beta * fxOne * 100 + 29815 * l
  if den ≤ 0 then 20000 else roundDiv (29815 * beta * fxOne * 100) den - 27315

/-- A temperature reading in 0.01 °C: kept with its rate over 10 min, or a thermistor fault (R360). Until readings span 10 min the spec
gives the rate no value (assumption 1). -/
def Dev.oscTemp (d : Dev) (t : Int) : Dev :=
  if t < -5000 ∨ 15000 < t then
    let was := d.ref.thermFault
    let d := d.modRef fun x => { x with thermFault := true }
    if was then d else d.raiseTime .thermFault 0
  else
    let l := (d.now, t) :: d.ref.temps.filter (fun e => decide (d.now < e.1 + secCycles 601))
    let old := l.find? fun e => decide (e.1 + secCycles 600 ≤ d.now)
    let (dth, d) := match old with
      | some e => ((t - e.2) * 6, d)
      | none => let (w, d) := d.draw; (signed 16 (w % 2 ^ 16), d)
    d.modRef fun x => { x with temp := t, dth := dth, temps := l, thermFault := false }

/-- With the mean die temperature as source, a reading of the sensors serves once a second (R360). -/
def Dev.dieTemp (d : Dev) (sensors : List Int) : Dev :=
  if d.conf .hoTherm ≠ 1 ∨ sensors.isEmpty ∨ (d.ref.temps.head?.any fun e => decide (d.now < e.1 + secCycles 1)) then d
  else d.oscTemp (sensors.sum / sensors.length)

/-- The seconds of learning after which a model is valid, with its span (R361). -/
def Dev.modelReady (d : Dev) (m : OscModel) : Bool :=
  if m.imported then decide (m.relearn ≥ 600)
  else decide (m.learned ≥ 48 * 3600) && (d.conf .hoTherm == 2 || (match m.span with
    | some (lo, hi) => decide (hi - lo ≥ 800)
    | none => false))

/-- What a term of the model is in a fit: 1, 0.01 °C from `T0` and its square, 0.01 °C/h, and minutes of age (R360). -/
def modelTerms (t dth : Int) (age : Nat) : List Int := [1, t, t * t, dth, age / secCycles 60]

/-- What brings a fit's coefficients into 10^-18 per °C, °C², °C/h and day (R364). -/
def modelScale : List Int := [1, 100, 10000, 100, 1440]

/-- The terms that a fit determines: `C0` alone after an import, no temperature with `THERM_SRC` 2 (R360, R361). -/
def fitTerms (imported none' : Bool) : List Nat := if imported then [0] else if none' then [0, 4] else [0, 1, 2, 3, 4]

/-- A 60 s average enters the sums: those before it lose weight by the forgetting time constant of `LEARN_TAU_DAYS` (R361) (DESIGN CHOICE,
assumption 121). -/
def fitAdd (sums : List (List Int)) (tau : Nat) (terms : List Int) (err : Int) : List (List Int) :=
  let keep := fxDecay (1440 * tau)
  (List.range 5).map fun i => (List.range 6).map fun j =>
    ((sums.getD i []).getD j 0) * keep / fxOne + 2 ^ 32 * (terms.getD i 0) * (if j = 5 then err else terms.getD j 0)

/-- The coefficients of least squares for some terms, none while the averages do not determine them (R361). -/
def fitSolve (sums : List (List Int)) (ks : List Nat) : Option (List Int) :=
  let row := fun i => sums.getD i []
  solve (ks.map fun i => ks.map fun j => (row i).getD j 0) (ks.map fun i => (row i).getD 5 0) (ks.map fun i => modelScale.getD i 0)

/-- The mean error measured over the last 60 s in 10^-18, open where none was (R361, assumption 1). -/
def Dev.minuteError (d : Dev) : Int × Dev :=
  let l := (d.ref.errs.filter fun e => decide (d.now < e.1 + secCycles 60)).map (·.2)
  if l.isEmpty then let (w, d) := d.draw; (signed 64 (w % 2 ^ 64), d) else (roundDiv (1000 * l.sum) l.length, d)

/-- A model takes a 60 s average: `T0` is the temperature at the first, age counts from it, and after an import only `C0` is learned again.
Coefficients that the averages do not determine yet are open (R361, assumption 1) (DESIGN CHOICE, assumption 121). -/
def OscModel.learn (m : OscModel) (d : Dev) (err : Int) : OscModel × Dev :=
  let start := if m.imported then m.relearn = 0 else m.learned = 0
  let m := if start then { m with c0From := d.now, sums := [], t0 := if m.imported then m.t0 else d.ref.temp } else m
  let age := d.now - m.c0From
  let known := if m.imported then roundDiv ({ m with c0 := 0 }.num d.ref.temp d.ref.dth age) (10000 * dayCycles) else 0
  let sums := fitAdd m.sums (d.conf .learnTau 0) (modelTerms (d.ref.temp - m.t0) d.ref.dth age) (err - known)
  let ks := fitTerms m.imported (d.conf .hoTherm 0 == 2)
  let (l, d) := match fitSolve sums ks with
    | some l => (l, d)
    | none => let (w, d) := d.draw; ((List.range 5).map fun k => signed 64 (bits w (64 * k) 64), d)
  let c := fun k old => if ks.contains k then l.getD (ks.idxOf k) 0 else old
  let held := fun x => if m.imported then x else 0
  ({ m with
    sums := sums, learned := m.learned + 60, relearn := if m.imported then m.relearn + 60 else 0,
    c0 := c 0 0, c1 := c 1 (held m.c1), c2 := c 2 (held m.c2), c3 := c 3 (held m.c3), c4 := c 4 (held m.c4),
    span := some (match m.span with
      | some (lo, hi) => (min lo d.ref.temp, max hi d.ref.temp)
      | none => (d.ref.temp, d.ref.temp)) }, d)

/-- MODEL_LEARN_UPDATE: a 60 s average in `LOCKED` enters the least-squares fit (R361). -/
def execModelLearnUpdate (s : State) : Host.Outcome State Fault Refusal :=
  s.run fun d =>
    if d.ref.sync ≠ .locked then d else
    let (err, d) := (d.at d.ref.learnAt).minuteError
    let (m, d) := d.ref.model.learn d err
    let now := !m.valid && d.modelReady m
    let m := { m with valid := m.valid || now }
    let d := d.modRef fun x => { x with model := m, learnAt := d.now + secCycles 60 }
    if now then d.raiseTime .modelValid (sat 16 (m.learned / 3600)) else d

/-- The bytes of the model record (R364) (DESIGN CHOICE, assumption 121). -/
def Dev.modelRecord (d : Dev) : List Byte :=
  let m := d.ref.model
  let c := fun (x : Int) => leBytes 8 (unsigned 64 x)
  let b := leBytes 2 1 ++ leBytes 1 (d.conf .hoTherm) ++ leBytes 1 0 ++ d.otp.identity ++ leBytes 6 (toQTime d.time16).sec ++
    leBytes 4 (m.learned / 3600) ++ leBytes 2 (unsigned 16 m.t0) ++ c m.c0 ++ c m.c1 ++ c m.c2 ++ c m.c3 ++ c m.c4
  b ++ leBytes 4 (crc32 b) ++ leBytes 4 0

/-- The model of an imported record (R361, R364). -/
def modelOf (v : Nat) : OscModel :=
  let c := fun o => signed 64 (bits v (8 * o) 64)
  { t0 := signed 16 (bits v 176 16), c0 := c 24, c1 := c 32, c2 := c 40, c3 := c 48, c4 := c 56,
    learned := 3600 * bits v 144 32, imported := true }

/-! ### Commands -/

/-- The quality levels (R351) (DESIGN CHOICE, assumption 126). -/
def qlCodes : List Nat := [1, 2, 3, 4, 5, 6, 7, 15]

/-- REF.INPUT_SET (R367). -/
def verbRefInputSet : Verb where
  code := 0x2101
  role := .operator
  len := 16
  groups := true
  params := [⟨0, 0, 32, .patch [(.reference, 0, 6)]⟩, ⟨4, 1, 3, .rsv⟩, ⟨4, 4, 4, .range 1 15⟩, ⟨5, 0, 4, .enum qlCodes⟩, ⟨5, 4, 4, .rsv⟩,
    ⟨6, 0, 16, .range 100 60000⟩, ⟨8, 0, 16, .range 10 5000⟩, ⟨10, 0, 2, .enum [0, 1, 2]⟩, ⟨10, 5, 2, .enum [0, 1, 2]⟩,
    ⟨10, 7, 1, .rsv⟩, ⟨11, 0, 8, .rsv⟩, ⟨12, 0, 32, .srange (-10000000) 10000000⟩]

/-- Fields that the input does not use must be zero; `LOCAL` is never disabled (R367) (DEDUCED, assumption 122). -/
def refInputCheck (c : Call) (_ : Dev) (i : Nat) : Option Status :=
  if (i = 6 ∧ c.p 4 0 1 = 0) ∨ (i > 1 ∧ (c.p 10 0 5 ≠ 0 ∨ c.p 12 0 32 ≠ 0)) ∨ (i ≠ 5 ∧ c.p 10 5 2 ≠ 0) then some .badParameter
  else none

/-- The fields of `REF.INPUT_SET`. -/
def refInputVals (c : Call) (_ : Dev) (i : Nat) : List FieldVal :=
  [fv .refEnable i (c.p 4 0 1) 1, fv .refPrio i (c.p 4 4 4) 4, fv .refQl i (c.p 5 0 4) 4, fv .refQualMs i (c.p 6 0 16) 16,
    fv .refRange i (c.p 8 0 16) 16, fv .refTod i (c.p 10 0 2) 2, fv .refTodEdge i (c.p 10 2 1) 1, fv .refBaud i (c.p 10 3 2) 2,
    fv .refExtf i (c.p 10 5 2) 2, fv .refCable i (c.p 12 0 32)]

/-- The meaning of `REF.INPUT_SET`. -/
def bodyRefInputSet : Body := stageEach refInputCheck refInputVals

/-- REF_INPUT_SET (R367). -/
def execRefInputSet (c : HostCall) (s : State) : Host.Outcome State Fault Refusal := runVerb verbRefInputSet bodyRefInputSet c s

/-- REF.SELECT_SET (R368). -/
def verbRefSelectSet : Verb where
  code := 0x2102
  role := .operator
  len := 20
  params := [⟨0, 2, 4, .range 0 6⟩, ⟨1, 4, 4, .rsv⟩, ⟨2, 0, 16, .range 0 3600⟩, ⟨4, 0, 16, .range 1 1000⟩, ⟨6, 0, 16, .range 0 255⟩,
    ⟨8, 0, 32, .range 10 1000000⟩, ⟨12, 0, 48, .srange (-100000000000) 100000000000⟩, ⟨18, 0, 16, .rsv⟩]

/-- The fields of `REF.SELECT_SET`, held on `time` (R567). -/
def execRefSelectSet (c : HostCall) (s : State) : Host.Outcome State Fault Refusal :=
  runVerb verbRefSelectSet (stageOn ⟨.time, 0⟩ (fun _ _ => none) fun c _ =>
    [fv .refMode 0 (c.p 0 0 2) 2, fv .refForced 0 (c.p 0 2 4) 4, fv .refQlEn 0 (c.p 0 6 1) 1, fv .refRevertive 0 (c.p 0 7 1) 1,
      fv .refBw 0 (c.p 1 0 2) 2, fv .refTimeMode 0 (c.p 1 2 1) 1, fv .refUtcValid 0 (c.p 1 3 1) 1, fv .refWtr 0 (c.p 2 0 16) 16,
      fv .refPull 0 (c.p 4 0 16) 16, fv .refUtc 0 (c.p 6 0 16) 16, fv .refAlarm 0 (c.p 8 0 32), fv .refTrim 0 (c.p 12 0 48) 48]) c s

/-- Fields that the output uses lie in its own ranges (R369). A device frame is 25,000 TC, a multiframe 256 of them; 0.125 ns is an
eighth of a nanosecond. -/
def refOutputRange (c : Call) : Bool :=
  let o := c.p 0 0 3
  let off := c.ps 8 0 40
  let w := c.p 4 0 32
  let period := c.p 2 0 16 * if c.p 1 0 2 = 0 then 25000 else 256 * 25000
  if o = 4 then false
  else if o ≤ 1 then decide (w < 1 ∨ 500000 < w ∨ off < -4000000000 ∨ 4000000000 < off)
  else decide (c.p 2 0 16 = 0 ∨ w < 1 ∨ w + 1 > period ∨ off < 0 ∨ off * 5 > period * 16)

/-- REF.OUTPUT_SET (R369). -/
def verbRefOutputSet : Verb where
  code := 0x2103
  role := .operator
  len := 16
  params := [⟨0, 0, 3, .enum [0, 1, 2, 3, 4]⟩, ⟨0, 6, 2, .enum [0, 1, 2]⟩, ⟨1, 0, 2, .enum [0, 1, 2]⟩, ⟨1, 7, 1, .rsv⟩,
    ⟨13, 0, 24, .srange (-1000000) 1000000⟩]
  ranges := refOutputRange

/-- Fields that the output does not use must be zero (R369) (DESIGN CHOICE, assumption 123). -/
def refOutputCheck (c : Call) (_ : Dev) : Option Status :=
  let o := c.p 0 0 3
  let unused :=
    if o = 4 then
      c.p 0 4 4 != 0 || c.p 1 2 5 != 0 || c.p 2 0 16 != 0 || c.p 4 0 32 != 0 || c.ps 8 0 40 != 0 || c.p 13 0 24 != 0
    else if o ≤ 1 then c.p 1 0 7 != 0 || c.p 2 0 16 != 0
    else c.p 0 6 2 != 0 || (c.p 1 0 2 == 0 && c.p 1 2 5 != 0)
  if unused then some .badParameter else none

/-- The fields of `REF.OUTPUT_SET`, held on `time` (R567). -/
def execRefOutputSet (c : HostCall) (s : State) : Host.Outcome State Fault Refusal :=
  runVerb verbRefOutputSet (stageOn ⟨.time, 0⟩ refOutputCheck fun c _ =>
    let o := c.p 0 0 3
    [fv .outEn o (c.p 0 3 1) 1, fv .outPol o (c.p 0 4 1) 1, fv .outSup o (c.p 0 5 1) 1, fv .outAlign o (c.p 0 6 2) 2,
      fv .outSrc o (c.p 1 0 2) 2, fv .outSc o (c.p 1 2 5) 5, fv .outDiv o (c.p 2 0 16) 16, fv .outWidth o (c.p 4 0 32),
      fv .outOffset o (c.p 8 0 40) 40, fv .outDelay o (c.p 13 0 24) 24]) c s

/-- REF.HOLDOVER_SET (R370). -/
def verbRefHoldoverSet : Verb where
  code := 0x2104
  role := .operator
  len := 12
  params := [⟨0, 0, 2, .enum [0, 1, 2]⟩, ⟨0, 2, 4, .enum qlCodes⟩, ⟨0, 6, 2, .rsv⟩, ⟨1, 0, 8, .rsv⟩, ⟨2, 0, 16, .range 10 3600⟩,
    ⟨4, 0, 16, .range 2000 6000⟩, ⟨6, 0, 32, .range 1000 1000000⟩, ⟨10, 0, 16, .range 1 90⟩]

/-- The fields of `REF.HOLDOVER_SET`, held on `time` (R567). -/
def execRefHoldoverSet (c : HostCall) (s : State) : Host.Outcome State Fault Refusal :=
  runVerb verbRefHoldoverSet (stageOn ⟨.time, 0⟩ (fun _ _ => none) fun c _ =>
    [fv .hoTherm 0 (c.p 0 0 2) 2, fv .hoQl 0 (c.p 0 2 4) 4, fv .hoAvg 0 (c.p 2 0 16) 16, fv .ntcBeta 0 (c.p 4 0 16) 16,
      fv .ntcR25 0 (c.p 6 0 32), fv .learnTau 0 (c.p 10 0 16) 16]) c s

/-- REF.STATUS (R371). -/
def verbRefStatus : Verb where
  code := 0x2105
  role := .observer
  len := 0

/-- The results of `REF.STATUS` (R371). -/
def refStatus (v : Dev) : Res :=
  let x := v.ref
  let ho := if x.sync = .holdover then v.now - x.hoFrom else x.hoLast
  res 32 [at' 0 0 3 x.sync.code, at' 0 3 4 (x.selected.getD 15), at' 0 7 1 (b2n (x.selected.any v.timeCapable)), at' 1 0 4 v.outQlNow,
    at' 1 4 1 (b2n x.model.valid), at' 1 5 1 (b2n x.alarm), at' 1 6 1 (b2n x.thermFault), fieldAtS 2 48 x.s, fieldAtS 8 48 v.time.rate,
    fieldAt 14 32 (satS 32 (roundDiv (x.buildTime * 1000) 65536)), fieldAt 18 32 (sat 32 (ho / secCycles 1)), fieldAtS 22 16 x.temp,
    fieldAt 24 32 x.switches]

/-- REF_STATUS (R371). -/
def execRefStatus (c : HostCall) (s : State) : Host.Outcome State Fault Refusal :=
  runVerb verbRefStatus (onView fun _ v => .now .ok (refStatus v)) c s

/-- REF.INPUT_STATUS (R372). -/
def verbRefInputStatus : Verb where
  code := 0x2106
  role := .observer
  len := 4
  groups := true
  reads := true
  params := [⟨0, 0, 32, .patch [(.reference, 0, 6)]⟩]

/-- The code of a reference state (R372). -/
def RefState.code : RefState → Nat
  | .off => 0 | .failed => 1 | .qualifying => 2 | .wtr => 3 | .available => 4

/-- The result fields of `REF.INPUT_STATUS` (DEDUCED, assumption 125). -/
def refInputFields (v : Dev) (r : Nat) : List RField :=
  let x := v.refIn r
  let left := if x.state = .wtr then ceilDiv (x.due - v.now) (secCycles 1) else 0
  [rf (.severe [1, 2, 3, 4, 0]) 0 0 3 x.state.code, rf (.severe [0, 1]) 0 3 1 (b2n (v.timeCapable r)), rf .maxU 0 4 4 x.cause,
    rf .conf 1 0 4 (v.conf .refQl r), rf .conf 1 4 4 (v.conf .refPrio r), rf .maxU 2 0 16 left,
    rf .maxAbs 4 0 32 (satS 32 (v.refFreq r)), rf .maxAbs 8 0 32 (satS 32 (roundDiv (((v.refTimeOf r).getD 0) * 1000) 65536)),
    rf .sum 12 0 32 x.failures, rf .sum 16 0 32 x.todErrors]

/-- The meaning of `REF.INPUT_STATUS`. -/
def bodyRefInputStatus : Body := readEach 20 fun _ v i => some (refInputFields v i)

/-- REF_INPUT_STATUS (R372). -/
def execRefInputStatus (c : HostCall) (s : State) : Host.Outcome State Fault Refusal :=
  runVerb verbRefInputStatus bodyRefInputStatus c s

/-- REF.PTP_SET (R373) (DESIGN CHOICE, assumption 216). -/
def verbRefPtpSet : Verb where
  code := 0x2107
  role := .operator
  len := 8
  params := [⟨2, 0, 8, .range 24 43⟩, ⟨3, 2, 6, .rsv⟩, ⟨5, 0, 24, .rsv⟩]

/-- The fields of `REF.PTP_SET`, held on `time` (R567). -/
def execRefPtpSet (c : HostCall) (s : State) : Host.Outcome State Fault Refusal :=
  runVerb verbRefPtpSet (stageOn ⟨.time, 0⟩ (fun _ _ => none) fun c _ =>
    [fv .ptpMask 0 (c.p 0 0 16) 16, fv .ptpDomain 0 (c.p 2 0 8) 8, fv .ptpEn 0 (c.p 3 0 1) 1, fv .ptpMcast 0 (c.p 3 1 1) 1,
      fv .ptpPrio2 0 (c.p 4 0 8) 8]) c s

/-- REF.MODEL_EXPORT (R373). -/
def verbRefModelExport : Verb where
  code := 0x2108
  role := .observer
  len := 0
  ext := .always
  size := .bytes 72

/-- REF_MODEL_EXPORT (R364, R373). -/
def execRefModelExport (c : HostCall) (s : State) : Host.Outcome State Fault Refusal :=
  runVerb verbRefModelExport (onView fun _ v =>
    if v.ref.model.valid then .wrote v.modelRecord else .now .state) c s

/-- REF.MODEL_IMPORT (R373). -/
def verbRefModelImport : Verb where
  code := 0x2109
  role := .operator
  len := 0
  ext := .always
  size := .bytes 72
  entry := [⟨2, 2, 6, .rsv⟩, ⟨3, 0, 8, .rsv⟩, ⟨68, 0, 32, .rsv⟩]
  entryLen := 72

/-- What refuses a record (R364). -/
def modelImportCheck (c : Call) (d : Dev) : Option Status :=
  let b := c.bytes
  if leNat (slice b 0 2) ≠ 1 ∨ slice b 4 8 ≠ d.otp.identity ∨ leNat (slice b 64 4) ≠ crc32 (b.take 64) ∨
    leNat (slice b 2 1) % 4 ≠ d.conf .hoTherm then some .refForeign
  else none

/-- REF_MODEL_IMPORT (R364). -/
def execRefModelImport (c : HostCall) (s : State) : Host.Outcome State Fault Refusal :=
  runVerb verbRefModelImport (stageOn ⟨.time, 0⟩ modelImportCheck fun c _ => [fv .modelImport 0 (leNat c.bytes) 576]) c s

/-- REF.WTR_CLEAR (R373). -/
def verbRefWtrClear : Verb where
  code := 0x210A
  role := .operator
  len := 4
  params := [⟨0, 0, 32, .patch [(.reference, 0, 6)]⟩]

/-- The meaning of `REF.WTR_CLEAR`. -/
def bodyRefWtrClear : Body := onDev fun c d =>
  let r := (c.insts d).headD 0
  if (d.refIn r).state = .wtr then (.now .ok, d.refAvail r) else (.now .state, d)

/-- REF_WTR_CLEAR (R373). -/
def execRefWtrClear (c : HostCall) (s : State) : Host.Outcome State Fault Refusal := runVerb verbRefWtrClear bodyRefWtrClear c s

/-! ### What a commit does here (R346, R355, R356, R361, R368, R370) -/

/-- A field of `REF.SELECT_SET` or `REF.INPUT_SET`, which waits while a switch runs (R355). -/
def Fld.refWaits (f : Fld) : Bool := decide (Fld.refEnable.ctorIdx ≤ f.ctorIdx ∧ f.ctorIdx ≤ Fld.refTrim.ctorIdx)

/-- Validation: `MODE` 1 that names a disabled reference; an import in holdover or during a switch (R364, R368). `new` is what the
commit would leave. -/
def validateRef (d new : Dev) (es : List Entry) : Option Status :=
  firstOf [
    ((staged? es .refMode 0).isSome && new.conf .refMode == 1 && new.conf .refEnable (new.conf .refForced) == 0, .refNotAvailable),
    ((staged? es .modelImport 0).isSome && (d.ref.sync == .holdover || d.ref.sync == .switching), .state)]

/-- A commit that touches selection or inputs while a switch runs counts as applied at the switch's end (R355, R368). -/
def Dev.refHolds (d : Dev) (id : Nat) (es : List Entry) : Dev :=
  if d.ref.sync = .switching ∧ es.any (fun e => e.vals.any fun v => v.fld.refWaits) then
    (d.modRef fun x => { x with heldBy := x.heldBy ++ [id] }).modCommit id fun c => { c with buses := c.buses ++ [2] }
  else d

/-- `CLK_OUT` sends the clock of the frequency in force while it is enabled (R365, R369). -/
def Dev.clkOut (d : Dev) : Dev :=
  let f := if d.conf .outEn 4 = 1 then some (d.conf .outSrc 4) else none
  let p := d.ref.outs.get (fun _ => {}) 4
  if p.clk = f then d else
  (d.modRef fun x => { x with outs := x.outs.set (fun _ => {}) 4 { p with clk := f } }).emit (.clock f)

/-- What a commit's reference fields do at its device frame boundary, once they are set; `old` is the device before. -/
def Dev.refCommit (d old : Dev) (es : List Entry) : Dev :=
  let d := (d.refSettled old).clkOut
  let d := if d.conf .hoTherm ≠ old.conf .hoTherm then d.modRef fun x => { x with model := {} } else d
  match staged? es .modelImport 0 with
  | some v => d.modRef fun x => { x with model := modelOf v }
  | none => d

/-! ### Pulse outputs (R365) -/

/-- How much before its instant a pulse leaves the device, in 2^-16 ns: the board delay (R365, R369) (DEDUCED, assumption 124). -/
def Dev.outEarly (d : Dev) (o : Nat) : Int := ps16 (signed 24 (d.conf .outDelay o))

/-- The position within the second from which an output's pulses count, none while it is inactive: device time, or the last edge of
the input it is aligned to. -/
def Dev.pulsePhase (d : Dev) (align : Nat) (offset : Int) : Option Int :=
  let o := offset * 8192
  if align = 0 then some (o % sec16)
  else ((if align = 1 then d.time.ppsA else d.time.ppsB).map fun e => (e.time + o) % sec16)

/-- The last instant of a phase within (lo, hi], if one lies there. -/
def lastPulse (phase lo hi : Int) : Option Int :=
  let t := hi - (hi - phase) % sec16
  if lo < t then some t else none

/-- An instant of a changed `ALIGN` or `OFFSET` lies less than 100 ms after the previous pulse (R365). -/
def tooSoon (p : OutPin) (align : Nat) (offset t : Int) : Bool :=
  (decide (p.align ≠ align) || decide (p.offset ≠ offset)) && p.last.any fun l => decide (t < l + sec16 / 10)

/-- A `PPS_OUT` up to device time `hi`: a changed `ALIGN` or `OFFSET` applies from the first pulse at least 100 ms after the previous
one, and the pulse in between is skipped (R365) (DESIGN CHOICE, assumption 124). -/
def Dev.ppsOut (d : Dev) (o : Nat) (lo hi : Int) : Dev :=
  if d.conf .outEn o = 0 ∨ (d.conf .outSup o = 1 ∧ !d.time.established) then d else
  let p := d.ref.outs.get (fun _ => {}) o
  let al := d.conf .outAlign o
  let off := signed 40 (d.conf .outOffset o)
  match (d.pulsePhase al off).bind fun ph => lastPulse ph lo hi with
  | none => d
  | some t =>
    if tooSoon p al off t then d else
    (d.modRef fun x => { x with outs := x.outs.set (fun _ => {}) o { p with align := al, offset := off, last := some t } }).emit
      (.pulse o (t - d.outEarly o) (d.conf .outPol o == 1) (d.conf .outWidth o))

/-- A boundary of a frame pulse's source: every `FP_DIV` of them a pulse starts, delayed by `OFFSET`; sources 0 device frame, 1
transmit and 2 receive multiframe of a subcarrier, which gives none while it is asleep or out of frame (R365). -/
def Dev.frameTick (d : Dev) (src sc : Nat) : Dev :=
  [2, 3].foldl (fun d o =>
    if d.conf .outEn o = 0 ∨ d.conf .outSrc o ≠ src ∨
        (src ≠ 0 ∧ (d.conf .outSc o ≠ sc ∨ ((d.scs.get (fun _ => {}) sc).fr.state ≠ .inFrame ∧ ¬(d.role = .hub ∧ d.conf .shared sc = 1)))) then d else
    let p := d.ref.outs.get (fun _ => {}) o
    let full := decide (p.count + 1 ≥ d.conf .outDiv o)
    let put := fun (d : Dev) (p : OutPin) => d.modRef fun x => { x with outs := x.outs.set (fun _ => {}) o p }
    let p := { p with count := if full then 0 else p.count + 1 }
    let t := d.time16 + d.conf .outOffset o * 8192
    if !full ∨ (d.conf .outSup o = 1 ∧ !d.time.established) then put d p
    else if tooSoon p 0 (d.conf .outOffset o) t then put d p
    else (put d { p with align := 0, offset := d.conf .outOffset o, last := some t }).emit
      (.pulse o (t - d.outEarly o) (d.conf .outPol o == 1) (d.conf .outWidth o))) d

/-- The pulse outputs at a device frame boundary (DESIGN CHOICE, assumption 124). -/
def Dev.pulseFrame (d : Dev) : Dev :=
  let lo := d.ref.swept
  let hi := d.time16
  let d := [0, 1].foldl (fun d o => d.ppsOut o lo hi) d
  (d.modRef fun x => { x with swept := hi }).frameTick 0 0

end Sys2Proof.Machine
end

