-- ==== Sys2Proof/Machine/Mon.lean ====
section
/-! DEFINITION. Performance counters, dumps and housekeeping (R491 to R509). -/

namespace Sys2Proof.Machine

/-- Change the monitoring state. -/
def Dev.modMon (d : Dev) (f : MonSt → MonSt) : Dev := { d with mon := f d.mon }

/-! ### Records (R494, R498) -/

/-- The fields of a monitored patch's record; `changed`: a dump's, with `SEL_CHANGED`, else a read's, with `PENDING_SEL`. -/
def recordFields (v : Dev) (changed : Bool) (u : MonUnit) : List RField :=
  let k := u.index
  let js := List.range 8
  let pend := js.any fun j => v.mon.pend.contains (8 * k + j)
  [rf .conf 4 0 32 (js.foldl (fun a j => a + v.mon.codes.get (fun _ => 0) (8 * k + j) % 16 * 16 ^ j) 0),
   rf .or 8 0 8 (js.foldl (fun a j => a + b2n (v.mon.wraps.contains (8 * k + j)) * 2 ^ j) 0),
   rf .or 9 0 1 (b2n (!v.monRuns u)), rf .or 9 1 1 (b2n (changed && pend)), rf .or 9 2 1 (b2n (!changed && pend)),
   rf .sum 16 0 64 (v.cycles u)] ++
  js.map fun j => rf .sum (24 + 6 * j) 0 48 (v.mon.counts.get (fun _ => 0) (9 * k + j))

/-- The record of a monitored patch in a dump (R498). -/
def dumpRecord (v : Dev) (u : MonUnit) : List Byte :=
  leBytes 80 (pack (fieldAt 0 32 (v.pid u.patch) :: (recordFields v true u).map (·.bf)))

/-! ### Dumps (R495 to R500) -/

/-- The next dump boundary (R496). -/
def Dev.dumpAt (d : Dev) : Nat :=
  let m := d.mon
  match m.early with
  | some c => c
  | none =>
    if d.conf .dumpAlign = 1 ∧ d.time.established then
      let p : Int := (d.conf .dumpPeriod * 1000000 * 65536 : Nat)
      let q := d.time.timeAt m.last 0 / p + 1
      let b := d.gridUp (d.time.countAt (q * p).toNat)
      if b ≤ m.last then d.gridUp (d.time.countAt ((q + 1) * p).toNat) else b
    else
      let n := 100 * d.conf .dumpPeriod
      d.frameStart (m.dumpFrom + n * ((m.lastNo - m.dumpFrom) / n + 1))

/-- The bytes of a dump formed at the present boundary (R497). -/
def Dev.dumpBytes (d : Dev) (snapGen : Nat) (incomplete final : Bool) : List Byte :=
  let t := toQTime d.time16
  let m := d.mon
  leBytes 64 (pack [fieldAt 0 32 m.dumpSeq, fieldAt 4 48 t.sec, fieldAt 10 30 t.ns, at' 14 0 1 (b2n d.time.established),
    at' 14 1 1 (b2n incomplete), at' 14 2 1 (b2n final), at' 14 3 1 (b2n m.first), fieldAt 16 32 (d.frameNo d.now - m.lastNo),
    fieldAt 20 32 snapGen, fieldAt 24 16 66, fieldAt 28 32 m.dumpsLost]) ++
  MonUnit.all.flatMap (dumpRecord d) ++ List.replicate 32 0

/-- Write bytes to whole lines of HBM from a line on, at most k lines. -/
def Dev.writeLines : Nat → Nat → List Byte → Dev → Dev
  | 0, _, _, d => d
  | k + 1, n, b, d => if b.isEmpty then d else Dev.writeLines k (n + 1) (b.drop 64) (d.writeLine n (leNat (b.take 64)))

/-- The dump region of HBM: its first line and its slots (R499). -/
def Dev.dumpRegion (d : Dev) : Option (Nat × Nat) :=
  (d.regions 6).head?.map fun r => (d.conf .rgBase r * 16384, (d.conf .rgSize r * 2 ^ 20 - 64) / 5376)

/-- A dump that is lost: counted, its `DUMP_SEQ` used up, and the first of an episode reported (R499). -/
def Dev.dumpLost (d : Dev) : Dev :=
  let seq := d.mon.dumpSeq
  let new := !d.mon.losing
  let d := d.modMon fun m => { m with
    dumpSeq := (seq + 1) % 2 ^ 32, dumpsLost := (m.dumpsLost + 1) % 2 ^ 32, losing := true }
  if new then d.raiseAt .monDumpLost ⟨.device, 0⟩ (seq % 2 ^ 16) else d

/-- A dump is written (R499). -/
def Dev.dumpWritten (d : Dev) : Dev :=
  d.modMon fun m => { m with
    dumpSeq := (m.dumpSeq + 1) % 2 ^ 32, produced := (m.produced + 1) % 2 ^ 64, losing := false, first := false }

/-- Write a dump to the destination in force. `consumed` is the ring's `CONSUMED` as the device reads it, none where the DMA, or the write
within its interval, fails. With no destination nothing is written; a dump to HBM takes of the maintenance share (R435, R499) (DESIGN CHOICE, assumption 187). -/
def Dev.writeDump (d : Dev) (snapGen : Nat) (incomplete final : Bool) (consumed : Option Nat) : Dev :=
  let m := d.mon
  let b := d.dumpBytes snapGen incomplete final
  if m.dest = 1 then
    match consumed with
    | none => d.dumpLost
    | some c =>
      if (d.ctl.pcie ≠ .l0 ∧ d.ctl.pcie ≠ .l1) ∨ (m.produced + 2 ^ 64 - c % 2 ^ 64) % 2 ^ 64 = m.destSlots then d.dumpLost
      else
        ((d.emit (.dma (m.destAddr + 64 + 5376 * (m.produced % m.destSlots)) b)).emit
          (.dma m.destAddr (leBytes 8 (m.produced + 1)))).dumpWritten
  else if m.dest = 2 then
    match consumed, d.dumpRegion with
    | some _, some (l, slots) =>
      if slots = 0 ∨ !d.runs (.hbm (l / 2 ^ 28)) then d.dumpLost
      else
        (Dev.writeLines 84 (l + 1 + 84 * (m.produced % slots)) b ((d.bwWindow 0).bwTake 5 5376)).writeLine l ((m.produced + 1) % 2 ^ 64) |>.dumpWritten
    | _, _ => d.dumpLost
  else d

/-- Selections that waited for the boundary take effect: the counter is 0 and counts under its new code (R495). -/
def Dev.applySelections (d : Dev) : Dev :=
  let sel := fun (k : Nat) => d.conf .monSel k
  d.modMon fun m => { m with
    counts := m.pend.foldl (fun c k => c.set (fun _ => 0) (9 * (k / 8) + k % 8) 0) m.counts,
    codes := m.pend.foldl (fun c k => c.set (fun _ => 0) k (sel k)) m.codes, pend := [] }

/-- The committed destination comes into force at a dump boundary (R502) (DESIGN CHOICE, assumption 171). -/
def Dev.applyDest (d : Dev) : Dev :=
  let k := d.conf .dumpDest
  let a := d.conf .dumpAddr
  let s := d.conf .dumpSlots
  if d.mon.dest = k ∧ d.mon.destAddr = a ∧ d.mon.destSlots = s then d
  else d.modMon fun m => { m with dest := k, destAddr := a, destSlots := s, first := true, produced := 0 }

/-- A dump boundary: the counters are captured and the dump written; selections apply; the next interval begins (R495 to R499) (DESIGN CHOICE, assumption 171). -/
def Dev.dumpBoundary (d : Dev) (snapGen : Nat) (final : Bool) (consumed : Option Nat) : Dev :=
  let incomplete := d.mon.early.isSome
  let d := (d.foldCycles.applyDest.writeDump snapGen incomplete final consumed).applySelections
  d.modMon fun m => { m with last := d.now, lastNo := d.frameNo d.now, early := none, wraps := [] }

/-- DUMP_BOUNDARY (R496). -/
def execDumpBoundary (consumed : Option Nat) (s : State) : Host.Outcome State Fault Refusal :=
  s.runAll fun s =>
    if s.dev.mon.frozen then s else
    let d := s.dev.at s.dev.dumpAt
    { s with dev := d.dumpBoundary s.snap.cfg.snapGen false consumed }

/-! ### Commands (R501 to R503) -/

/-- The patches that are monitored (R491). -/
def monKinds : List (PClass × Nat × Nat) :=
  [(.device, 0, 0), (.line, 0, 0), (.subcarrier, 0, 31), (.pipeline, 0, 7), (.cipher, 0, 4), (.hbm, 0, 1), (.port, 0, 15),
   (.stitchLane, 0, 0)]

/-- MON.SELECT (R501). -/
def verbMonSelect : Verb where
  code := 0x4001
  role := .privileged
  len := 8
  groups := true
  params := [⟨0, 0, 32, .patch monKinds⟩, ⟨4, 0, 8, .range 1 255⟩, ⟨5, 0, 4, .range 0 8⟩, ⟨5, 4, 4, .rsv⟩, ⟨6, 0, 16, .rsv⟩]

/-- A member of a group that is not monitored (R501). -/
def notMonitored (c : Call) (_ : Dev) (i : Nat) : Option Status :=
  if (MonUnit.ofPatch ⟨c.cls, i⟩).isNone then some .badParameter else none

/-- The meaning of `MON.SELECT`. -/
def bodyMonSelect : Body := stageEach notMonitored fun c _ i =>
  match MonUnit.ofPatch ⟨c.cls, i⟩ with
  | some u => (maskBits 8 (c.p 4 0 8)).map fun j => fv .monSel (8 * u.index + j) (c.p 5 0 4) 4
  | none => []

/-- MON_SELECT (R501). -/
def execMonSelect (c : HostCall) (s : State) : Host.Outcome State Fault Refusal := runVerb verbMonSelect bodyMonSelect c s

/-- MON.DUMP_SET (R502). -/
def verbMonDumpSet : Verb where
  code := 0x4002
  role := .privileged
  len := 16
  params := [⟨0, 0, 16, .range 1 10000⟩, ⟨2, 0, 2, .enum [0, 1, 2]⟩, ⟨2, 3, 5, .rsv⟩, ⟨3, 0, 8, .rsv⟩]
  ranges := fun c => c.p 2 0 2 == 1 && (decide (c.p 4 0 32 < 2 ∨ 65536 < c.p 4 0 32) || c.p 8 0 64 % 4096 != 0)

/-- What refuses dump settings (R502): an unused field that is not zero. -/
def monDumpSetCheck (c : Call) (_ : Dev) : Option Status :=
  if c.p 2 0 2 ≠ 1 ∧ (c.p 4 0 32 ≠ 0 ∨ c.p 8 0 64 ≠ 0) then some .badParameter else none

/-- The meaning of `MON.DUMP_SET`. -/
def bodyMonDumpSet : Body := stageOn ⟨.device, 0⟩ monDumpSetCheck fun c _ =>
  [fv .dumpPeriod 0 (c.p 0 0 16) 16, fv .dumpDest 0 (c.p 2 0 2) 2, fv .dumpAlign 0 (c.p 2 2 1) 1, fv .dumpSlots 0 (c.p 4 0 32),
   fv .dumpAddr 0 (c.p 8 0 64) 64]

/-- MON_DUMP_SET (R502). -/
def execMonDumpSet (c : HostCall) (s : State) : Host.Outcome State Fault Refusal := runVerb verbMonDumpSet bodyMonDumpSet c s

/-- Validation of a dump destination at a commit (R502): a filled dump region with room for two slots. -/
def validateDump (new : Dev) (es : List Entry) : Option Status :=
  if staged? es .dumpDest 0 ≠ some 2 then none else
  match (new.regions 6).head? with
  | none => some .memRegion
  | some r =>
    if (new.conf .rgSize r * 2 ^ 20 - 64) / 5376 < 2 then some .memRegion
    else if !new.rgFilled r then some .memNotFilled else none

/-- A commit's selections wait for a dump boundary; a change of the period or of the alignment ends the interval here (R495, R496) (DESIGN CHOICE, assumption 173). -/
def Dev.monCommit (d : Dev) (old : Dev) (es : List Entry) : Dev :=
  let sel := (stagedAll es .monSel).map (·.1)
  let d := d.modMon fun m => { m with pend := (m.pend ++ sel).eraseDups }
  if (staged? es .dumpPeriod 0).isNone then d else
  let d := d.modMon fun m => { m with dumpFrom := d.frameNo d.now }
  if d.conf .dumpPeriod ≠ old.conf .dumpPeriod ∨ d.conf .dumpAlign ≠ old.conf .dumpAlign then
    d.modMon fun m => { m with early := some d.now } else d

/-- MON.READ (R503). -/
def verbMonRead : Verb where
  code := 0x4003
  role := .privileged
  len := 4
  ext := .always
  size := .bytes 80
  groups := true
  reads := true
  params := [⟨16, 0, 32, .patch monKinds⟩]

/-- The meaning of `MON.READ`: the record of one patch, or of a group's members combined (R67, R494, R498). -/
def bodyMonRead : Body := fun c s =>
  let v := s.view c.slot
  let insts := c.insts v 16
  let us := insts.filterMap fun i => MonUnit.ofPatch ⟨c.cls 16, i⟩
  if us.length ≠ insts.length then (.now .badParameter, s)
  else if us.isEmpty then (.now .state, s)
  else
    let j := joinAll (us.map (recordFields v false))
    let isGroup := match c.patch 16 with | some r => r.group | none => false
    let dev := if isGroup then s.dev.setGroupRec c.slot us.length 0 j.2 v.cfg.snapTime v.cfg.snapTime else s.dev
    (.wrote (leBytes 80 (pack ([fieldAt 0 32 (c.p 16 0 32), at' 9 3 1 (b2n (isGroup && j.2))] ++ j.1.map (·.bf)))), { s with dev := dev })

/-- MON_READ (R494, R503). -/
def execMonRead (c : HostCall) (s : State) : Host.Outcome State Fault Refusal := runVerb verbMonRead bodyMonRead c s

/-- MON.STATUS (R503). -/
def verbMonStatus : Verb where
  code := 0x4004
  role := .privileged
  len := 0

/-- The results of `MON.STATUS` (R503). -/
def monStatus (v : Dev) : Res :=
  res 24 [fieldAt 0 32 v.mon.dumpSeq, fieldAt 4 32 v.mon.dumpsLost, fieldAt 8 64 v.mon.produced, fieldAt 16 16 (v.conf .dumpPeriod),
    at' 18 0 2 (v.conf .dumpDest), fieldAt 20 32 (ceilDiv (v.dumpAt - v.now) 25000)]

/-- The meaning of `MON.STATUS`. -/
def bodyMonStatus : Body := onView fun _ v => .now .ok (monStatus v)

/-- MON_STATUS (R503). -/
def execMonStatus (c : HostCall) (s : State) : Host.Outcome State Fault Refusal := runVerb verbMonStatus bodyMonStatus c s

/-! ### Housekeeping (R504 to R509) -/

/-- The entries of a call's buffer, as numbers. -/
def hkEntries (c : Call) : List Nat := (chunks 16 32 c.bytes).map leNat

/-- HK.SEQ_SET (R508): a custom notch has a range of its own. -/
def verbHkSeqSet : Verb where
  code := 0x4101
  role := .operator
  len := 1
  ext := .ifSet 16 0 8
  size := .per 16 0 8 16
  params := [⟨16, 0, 8, .range 0 32⟩]
  entry := [⟨0, 0, 5, .range 0 23⟩, ⟨0, 5, 3, .rsv⟩, ⟨1, 2, 2, .enum [0, 1, 2]⟩, ⟨1, 4, 4, .rsv⟩, ⟨2, 0, 16, .range 1 256⟩,
    ⟨12, 1, 7, .rsv⟩, ⟨13, 0, 24, .rsv⟩]
  entryLen := 16
  ranges := fun c => (hkEntries c).any fun v => bits v 10 2 == 2 && decide (bits v 48 16 < 10 ∨ 10000 < bits v 48 16)

/-- What refuses a sequence table (R508): limits the wrong way round; a notch frequency where none is asked for. -/
def hkSeqSetCheck (c : Call) (_ : Dev) : Option Status :=
  firstOf [
    ((hkEntries c).any fun v => bits v 96 1 == 1 && decide (signed 16 (bits v 64 16) > signed 16 (bits v 80 16)), .badParameter),
    ((hkEntries c).any fun v => bits v 10 2 != 2 && bits v 48 16 != 0, .badParameter)]

/-- The meaning of `HK.SEQ_SET`. -/
def bodyHkSeqSet : Body := stageOn ⟨.housekeeping, 0⟩ hkSeqSetCheck fun c _ =>
  fv .hkCount 0 (c.p 16 0 8) 8 :: (hkEntries c).mapIdx fun i v => fv .hkEntry i v 128

/-- HK_SEQ_SET (R508). -/
def execHkSeqSet (c : HostCall) (s : State) : Host.Outcome State Fault Refusal := runVerb verbHkSeqSet bodyHkSeqSet c s

/-- A committed table starts at entry 0, its results afresh (R505, R509). -/
def Dev.hkCommit (d : Dev) (es : List Entry) : Dev :=
  if (staged? es .hkCount 0).isSome then d.modMon fun m => { m with hkEntry := 0, hkDone := 0, hkFrom := d.now, hkHist := [], hk := [] } else d

/-- Conversions of a filter's length N (R505). -/
def hkLength (v : Nat) : Nat :=
  if bits v 10 2 = 0 then 20000 else if bits v 10 2 = 1 then 16667 else (roundDiv 10000000 (max 1 (bits v 48 16))).toNat

/-- When the running entry delivers its next result: after its delay, one conversion per µs, or the filter's settling time and then
every N µs (R505). -/
def Dev.hkDue (d : Dev) : Nat :=
  let v := d.conf .hkEntry d.mon.hkEntry
  let order := bits v 8 2
  let step := if order = 0 then 1 else hkLength v
  let first := if order = 0 then 1 else order * hkLength v
  d.mon.hkFrom + usCycles (bits v 32 16 + first + step * d.mon.hkDone)

/-- The sums of every n values in succession. -/
def movingSums (n : Nat) (l : List Nat) : List Nat := (List.range (l.length + 1 - n)).map fun i => (slice l i n).sum

/-- Conversions that a result rests on: one, or `ORDER` × N of them (R505). -/
def hkSpan (v : Nat) : Nat := if bits v 8 2 = 0 then 1 else bits v 8 2 * hkLength v

/-- A result's code in 1/16 LSB, from its conversions: one of them, or what the sinc filter of the entry's order gives (R505, R509) (DESIGN CHOICE,
assumption 213). -/
def hkCode (v : Nat) (l : List Nat) : Nat :=
  let order := bits v 8 2
  let n := if order = 0 then 1 else hkLength v
  (roundDiv (16 * ((order.repeat (movingSums n) l).getLastD 0 : Nat)) (n ^ order)).toNat

/-- A code in the unit of its input: the thermistor's temperature, a voltage from 0 to 1.2 V, or the input's own scale (R504) (PRESUMED,
assumption 213). -/
def Dev.hkValue (d : Dev) (input code : Nat) : Int :=
  if input = 18 then ntcTemp (d.conf .ntcBeta 0) (d.conf .ntcR25 0) code
  else if 18 < input then roundDiv (code * 12000) 65536
  else Config.hkScale input code

/-- One result of an entry against its limits (R507). -/
def Dev.hkLimits (d : Dev) (e v : Nat) (value : Int) : Dev :=
  let x := d.mon.hk.get (fun _ => {}) e
  let put := fun (d : Dev) (x : HkRes) => d.modMon fun m => { m with hk := m.hk.set (fun _ => {}) e x }
  if bits v 96 1 = 0 then d else
  let lo := signed 16 (bits v 64 16)
  let hi := signed 16 (bits v 80 16)
  if value < lo ∨ hi < value then
    let say := !x.alarm && d.oncePerSecond x.lastEvent
    let d := put d { x with alarm := true, inside := 0, lastEvent := if say then some d.now else x.lastEvent }
    if say then d.raiseAt .hkLimit ⟨.housekeeping, 0⟩ (e + if hi < value then 32 else 0) else d
  else if x.alarm then
    if x.inside + 1 ≥ 3 then (put d { x with alarm := false, inside := 0 }).raiseAt .hkLimitClear ⟨.housekeeping, 0⟩ e
    else put d { x with inside := x.inside + 1 }
  else d

/-- HK_RESULT: with the conversions since the result before, the running entry delivers a result, as a filtered code in 1/16 LSB and in the unit of
its input; after `REPEAT` of them the next entry runs (R505). Before its filter has settled there is none. -/
def execHkResult (codes : List Nat) (s : State) : Host.Outcome State Fault Refusal :=
  s.run fun d =>
    let n := d.conf .hkCount
    if n = 0 then d else
    let e := d.mon.hkEntry
    let v := d.conf .hkEntry e
    let l := d.mon.hkHist ++ codes
    if l.length < hkSpan v then d else
    let l := l.drop (l.length - hkSpan v)
    let code := hkCode v l
    let value := signed 16 (unsigned 16 (d.hkValue (bits v 0 5) code))
    let d := d.at d.hkDue
    let x := d.mon.hk.get (fun _ => {}) e
    let x := { x with
      value := value, code := code % 65536, min := if x.fresh then value else min x.min value,
      max := if x.fresh then value else max x.max value, fresh := false, results := (x.results + 1) % 2 ^ 32, at' := d.now, valid := true }
    let whole := decide (d.mon.hkDone + 1 ≥ bits v 16 16)
    let d := d.modMon fun m => { m with
      hk := m.hk.set (fun _ => {}) e x, hkDone := if whole then 0 else m.hkDone + 1, hkEntry := if whole then (e + 1) % n else e,
      hkHist := if whole ∨ bits v 8 2 = 0 then [] else l, hkFrom := if whole then d.now else m.hkFrom }
    (d.count .dev 7).hkLimits e v value

/-- HK.READ (R509). -/
def verbHkRead : Verb where
  code := 0x4102
  role := .observer
  len := 1
  params := [⟨0, 0, 8, .range 0 31⟩]

/-- The results of `HK.READ` (R509). -/
def hkRead (d : Dev) (x : HkRes) : Res :=
  res 17 [fieldAtS 0 16 x.value, fieldAt 2 16 x.code, fieldAtS 4 16 x.min, fieldAtS 6 16 x.max, fieldAt 8 32 x.results,
    fieldAt 12 32 (if x.valid then sat 32 ((d.now - x.at') / 25) else 0), at' 16 0 1 (b2n x.valid), at' 16 1 1 (b2n x.alarm)]

/-- The meaning of `HK.READ`: the results in the session's view; `MIN` and `MAX` restart (R76, R509). -/
def bodyHkRead : Body := fun c s =>
  let v := s.view c.slot
  let e := c.p 0 0 8
  if e ≥ v.conf .hkCount then (.now .outOfRange, s) else
  (.now .ok (hkRead v (v.mon.hk.get (fun _ => {}) e)),
    { s with dev := s.dev.modMon fun m => { m with hk := m.hk.modify (fun _ => {}) e fun x => { x with fresh := true } } })

/-- HK_READ (R509). -/
def execHkRead (c : HostCall) (s : State) : Host.Outcome State Fault Refusal := runVerb verbHkRead bodyHkRead c s

end Sys2Proof.Machine
end

