-- ==== Sys2Proof/Machine/Capture.lean ====
section
/-! DEFINITION. The capture decimator (R510 to R516). -/

namespace Sys2Proof.Machine

/-! ### Coefficients (R512) -/

/-- CAPT.COEF (R512) (DESIGN CHOICE, assumption 216). -/
def verbCaptCoef : Verb where
  code := 0x4201
  role := .operator
  len := 1
  ext := .ifClear 16 0 1
  size := .bytes 240
  params := [⟨16, 1, 7, .rsv⟩]
  entry := [⟨0, 0, 32, .srange (-131072) 131071⟩]
  entryLen := 4

/-- The 60 coefficients of a call's buffer. -/
def captCoefs (c : Call) : List Nat := (chunks 4 60 c.bytes).map leNat

/-- The meaning of `CAPT.COEF`: refused while a run is in progress or waits (R512, assumption 36) (DESIGN CHOICE, assumption 173). -/
def bodyCaptCoef : Body := stageOn ⟨.capture, 0⟩ (fun _ d => if d.mon.capt.isSome then some .state else none) fun c _ =>
  fv .captHost 0 (b2n c.ext) 1 :: (captCoefs c).mapIdx fun i v => fv .captCoef i (v % 2 ^ 18) 32

/-- CAPT_COEF (R512). -/
def execCaptCoef (c : HostCall) (s : State) : Host.Outcome State Fault Refusal := runVerb verbCaptCoef bodyCaptCoef c s

/-- The decimator wakes with its wake coefficients (R512). -/
def Dev.captWoke (d : Dev) : Dev := (List.range 60).foldl (fun d i => d.setConf .captCoef i 0) (d.setConf .captHost 0 0)

/-! ### Runs (R513 to R515) -/

/-- A coefficient of a stage, in 2^-17: h(±(2 tap + 1)) (R512). -/
def Dev.captH (d : Dev) (stage tap : Nat) : Int :=
  let i := 6 * (stage - 1) + tap
  if d.conf .captHost = 1 then signed 18 (d.conf .captCoef i) else Config.captWake i

/-- One half-band stage: 23 taps, the centre one 0.5 and the other even ones 0; every second output, times 2^17 (R510 to R512). -/
def halfBand (h : Nat → Int) (x : List Int) : List Int :=
  (List.range ((x.length - 21) / 2)).map fun i =>
    let y := fun (k : Nat) => x.getD (2 * i + k) 0
    65536 * y 11 + ((List.range 6).map fun j => h j * (y (10 - 2 * j) + y (12 + 2 * j))).sum

/-- The samples of a lane: XI, XQ, YI, YQ. -/
def laneOf (l : Nat) (s : Cx2) : Int := [s.x.re, s.x.im, s.y.re, s.y.im].getD l 0

/-- What the stages give of a lane, from output set 0 on, times 2^(17 × `STAGES`): lane ℓ lies 3ℓ tap samples later (R510). -/
def Dev.captLane (d : Dev) (r : CaptRun) (l : Nat) : List Int :=
  (List.range r.stages).foldl (fun x k => halfBand (d.captH (k + 1)) x) ((r.taps.map (laneOf l)).drop (3 * l))

/-- Output sets of which the filters have not settled (R511). -/
def captUnsettled (stages : Nat) : Nat := [0, 11, 17, 20, 21].getD stages 22

/-- A captured word: the sample in 1/16 ADC LSB and `UNSETTLED`; a sample beyond 15 bits is the free value given (R511, R513) (DESIGN
CHOICE, assumption 172). -/
def captWord (stages n : Nat) (v : Int) (other : Nat) : Nat :=
  let x := roundDiv v (2 ^ (17 * stages))
  2 * (if -16384 ≤ x ∧ x < 16384 then unsigned 15 x else other % 2 ^ 15) + b2n (decide (n < captUnsettled stages))

/-- The output sets that the tap has given, as numbers of 64 bits, with the free values from a draw on (R513). -/
def Dev.captSets (d : Dev) (r : CaptRun) (free : Nat) : List Nat :=
  let ls := (List.range 4).map (d.captLane r)
  (List.range ((ls.map (·.length)).foldl min r.taps.length)).map fun n =>
    pack ((List.range 4).map fun l => ⟨16 * l, 16, captWord r.stages n ((ls.getD l []).getD n 0) (Config.freeValue (free + 4 * n + l))⟩)

/-- Write a set into its place of the region, whose sets begin at a line (R513). -/
def Dev.putSet (d : Dev) (line p v : Nat) : Dev :=
  let n := line + p / 8
  let old := match d.hbmLine n with
    | some l => l.data
    | none => 0
  let k := 64 * (p % 8)
  d.setLine n ⟨old - bits old k 64 * 2 ^ k + v * 2 ^ k, .own⟩

/-- Tap samples per AC cycle on each lane: 80 GS/s in full mode, 40 GS/s in narrow mode (R510). -/
def Dev.tapRate (d : Dev) : Nat := if d.power.coreFull then 3200 else 1600

/-- The sets that the run's region holds (R513). -/
def Dev.captRoom (d : Dev) (r : CaptRun) : Nat := (d.conf .rgSize r.region * 2 ^ 20 - 64) / 8

/-- The sets at which a single run ends, and its `END_REASON` (R513). -/
def Dev.captGoal (d : Dev) (r : CaptRun) : Nat × Nat :=
  if r.sets ≠ 0 ∧ r.sets ≤ d.captRoom r then (r.sets, 1) else (d.captRoom r, 2)

/-- CAPT.START (R515). -/
def verbCaptStart : Verb where
  code := 0x4202
  role := .operator
  len := 20
  params := [⟨0, 4, 4, .range 0 10⟩, ⟨0, 0, 2, .enum [0, 1]⟩, ⟨1, 2, 6, .rsv⟩, ⟨2, 0, 16, .rsv⟩, ⟨14, 0, 30, .range 0 999999999⟩,
    ⟨14, 30, 2, .rsv⟩, ⟨18, 0, 16, .rsv⟩]

/-- What refuses a run, in the order of R515. -/
def captStartCheck (c : Call) (d : Dev) : Option Status :=
  let q := c.p 0 2 2
  let r := (d.regions 5).head?
  let t : Int := ofQTime ⟨c.p 8 0 48, c.p 14 0 30⟩
  let early := decide (t < d.time16 + (2 * 1000000 * 65536 : Int)) || decide (t > d.time16 + (10 * 1000000000 * 65536 : Int))
  firstOf [
    (!d.runs .capt || !d.runs .core || !d.runs (.wb q) || (!d.power.coreFull && q != 0) || d.mon.capt.isSome ||
      d.cfg.commits.any (fun k => k.phase == .waiting && k.entries.any fun e => e.vals.any fun v => v.fld == .captHost), .state),
    (r.isNone, .memRegion),
    (r.any fun r => !d.rgFilled r, .memNotFilled),
    (decide (d.tapRate * 8 > 40 * d.conf .bwCapture * 2 ^ c.p 0 4 4), .memBandwidth),
    (c.p 1 1 1 == 1 && early, .outOfRange)]

/-- The meaning of `CAPT.START`: a run is scheduled for a device frame boundary (R515). -/
def bodyCaptStart : Body := onDev fun c d =>
  match captStartCheck c d with
  | some st => (.now st, d)
  | none =>
    let t := ofQTime ⟨c.p 8 0 48, c.p 14 0 30⟩
    let start := if c.p 1 1 1 = 1 then d.gridUp (d.time.countAt t) else d.gridAfter d.now 1
    (.accept, d.modMon fun m => { m with
      capt := some {
        tap := c.p 0 0 2, quarter := c.p 0 2 2, stages := c.p 0 4 4, ring := c.p 1 0 1 == 1, sets := c.p 4 0 32, startAt := start,
        started := false, stopAt := none, slot := c.slot, serial := (d.slot c.slot).serial, seq := c.seq,
        region := ((d.regions 5).head?).getD 0, time := 0, startTc := 0, rate := d.tapRate, discontinuity := 0xFFFFFFFF, taps := [] },
      captRate := d.tapRate * 200 / 2 ^ c.p 0 4 4 })

/-- CAPT_START (R515). -/
def execCaptStart (c : HostCall) (s : State) : Host.Outcome State Fault Refusal := runVerb verbCaptStart bodyCaptStart c s

/-- CAPTURE_RUN_START: a scheduled run starts at its device frame boundary, with the samples that its tap then gives (R510, R515) (DESIGN
CHOICE, assumption 172). -/
def execCaptureRunStart (taps : List Cx2) (s : State) : Host.Outcome State Fault Refusal :=
  s.run fun d =>
    match d.mon.capt with
    | some r =>
      if r.started then d else
      let d := d.at r.startAt
      d.modMon fun m => { m with capt := some { r with
        started := true, startAt := d.now, time := d.time16, startTc := (d.tcTotal d.now).toNat, taps := taps } }
    | none => d

/-- The region's header (R513). -/
def CaptRun.header (r : CaptRun) (sets wraps why : Nat) : List Byte :=
  let q := toQTime r.time
  leBytes 64 (pack [fieldAt 0 32 sets, fieldAt 4 32 wraps, fieldAt 8 48 q.sec, fieldAt 14 32 q.ns,
    fieldAt 18 16 (r.time % 65536).toNat, at' 20 0 2 r.tap, at' 20 2 2 r.quarter, at' 20 4 4 r.stages, at' 21 0 1 (b2n r.ring),
    at' 21 1 3 why, fieldAt 22 16 (captUnsettled r.stages), fieldAt 24 32 r.discontinuity])

/-- A run ends now with so many sets written: the sets stand in the region, in a ring the last ones, its header is written, and its
operation ends (R513 to R515); what the tap did not give is free data (DESIGN CHOICE, assumption 172). -/
def Dev.captOver (d : Dev) (why : Nat) (st : Status) (sets : Nat) : Dev :=
  match d.mon.capt with
  | none => d
  | some r =>
    let room := d.captRoom r
    let wraps := if r.ring ∧ room ≠ 0 then sets / room else 0
    let line := d.conf .rgBase r.region * 16384
    let d := if r.started then
        let k := d.free
        let d := { d with free := k + 1, mem := d.mem.fillLines (line + 1) (ceilDiv (8 * min sets room) 64) (2 ^ 100 * (k + 1)) }
        let known := (d.captSets r (2 ^ 101 * (k + 1))).take sets
        let d := (List.range known.length).foldl (fun d n =>
          if n + room < sets then d else d.putSet (line + 1) (n % room) (known.getD n 0)) d
        let d := d.count (.hbm (line / 2 ^ 28)) 2 (ceilDiv (8 * sets) 64)
        d.writeLine line (leNat (r.header (sets % 2 ^ 32) wraps why))
      else d
    let d := d.modMon fun m => { m with capt := none, captEnd := why, captSets := sets % 2 ^ 32, captWraps := wraps % 2 ^ 32 }
    (d.raiseAt .captDone ⟨.capture, 0⟩ why).endOp r.slot r.serial r.seq st

/-- A run is cut by a sleep or a change of mode (R514) (DESIGN CHOICE, assumption 172). -/
def Dev.captCut (d : Dev) : Dev :=
  match d.mon.capt with
  | none => d
  | some r => (d.raiseAt .captCut ⟨.capture, 0⟩ 0).captOver 4 .captCut (d.setsAt r)

/-- A reset ends a run (R514). -/
def Dev.captAbort (d : Dev) : Dev :=
  match d.mon.capt with
  | none => d
  | some r => d.captOver 4 .aborted (d.setsAt r)

/-- CAPTURE_END: a run ends on its count, a full region, or a stop (R513, R516). -/
def execCaptureEnd (s : State) : Host.Outcome State Fault Refusal :=
  s.run fun d =>
    match d.mon.capt with
    | none => d
    | some r =>
      let goal := d.captGoal r
      let full := if r.started ∧ !r.ring then
          some (d.tcReach (r.startTc + ceilDiv (goal.1 * 2 ^ r.stages * 100000000000000000) r.rate)) else none
      match r.stopAt, full with
      | some t, some f =>
        if f ≤ t then (d.at f).captOver goal.2 .ok goal.1
        else let d := d.at t; d.captOver 3 .ok (d.setsAt r)
      | some t, none => let d := d.at t; d.captOver 3 .ok (d.setsAt r)
      | none, some f => (d.at f).captOver goal.2 .ok goal.1
      | none, none => d

/-- CAPT.STOP (R516). -/
def verbCaptStop : Verb where
  code := 0x4203
  role := .operator
  len := 0

/-- The meaning of `CAPT.STOP`: the run ends at the next device frame boundary. -/
def bodyCaptStop : Body := onDev fun _ d =>
  match d.mon.capt with
  | none => (.now .state, d)
  | some r => (.now .ok, d.modMon fun m => { m with capt := some { r with stopAt := some (r.stopAt.getD (d.gridAfter d.now 1)) } })

/-- CAPT_STOP (R516). -/
def execCaptStop (c : HostCall) (s : State) : Host.Outcome State Fault Refusal := runVerb verbCaptStop bodyCaptStop c s

/-- CAPT.STATUS (R516). -/
def verbCaptStatus : Verb where
  code := 0x4204
  role := .observer
  len := 0

/-- The results of `CAPT.STATUS` (R516). -/
def captStatus (v : Dev) : Res :=
  let m := v.mon
  let x : Nat × Nat × Nat := match m.capt with
    | none => (0, m.captSets, m.captWraps)
    | some r =>
      if !r.started then (1, 0, 0)
      else
        let n := if r.ring then v.setsAt r else min (v.setsAt r) (v.captGoal r).1
        (2, n, if r.ring ∧ v.captRoom r ≠ 0 then n / v.captRoom r else 0)
  res 16 [at' 0 0 2 x.1, at' 0 2 3 m.captEnd, fieldAt 4 32 x.2.1, fieldAt 8 32 x.2.2, fieldAt 12 32 m.captRate]

/-- The meaning of `CAPT.STATUS`. -/
def bodyCaptStatus : Body := onView fun _ v => .now .ok (captStatus v)

/-- CAPT_STATUS (R516). -/
def execCaptStatus (c : HostCall) (s : State) : Host.Outcome State Fault Refusal := runVerb verbCaptStatus bodyCaptStatus c s

end Sys2Proof.Machine
end

