-- ==== Sys2Proof/Machine/Coding.lean ====
section
/-! DEFINITION. The stitch lanes: the bytes of a stitch frame by lane, the Reed-Solomon code and the marker words (R384, R385). -/

namespace Sys2Proof.Machine

/-- The information bytes of a stitch frame: the overhead, then the payload area row by row, each container's share at its positions; what
stands at positions that carry nothing is open, and given here (assumption 167). -/
def stitchInfo (oh : List Byte) (shares : List (List Byte)) (unused : Nat → Byte) : List Byte :=
  let used := ((shares.map fun s => s.length / 6250)).sum
  oh ++ (List.range 6250).flatMap fun r =>
    (shares.flatMap fun s => slice s (r * (s.length / 6250)) (s.length / 6250)) ++ (List.range (320 - used)).map fun i => unused (320 * r + used + i)

/-- A lane's part of the information bytes: every eighth byte (R385). -/
def laneInfoBytes (lane : Nat) (info : List Byte) : List Byte := (cut 8 info).filterMap fun eight => eight[lane]?

/-- The generator of RS(544,514), its 30 roots the first powers of x; coefficients below the leading one, highest first (PRESUMED from
IEEE 802.3, assumption 188). -/
def rsGen : List Nat :=
  ((List.range 30).foldl (fun (e : List Nat × Nat) _ =>
    (List.zipWith (· ^^^ ·) (e.1 ++ [0]) (0 :: e.1.map (gfMul e.2)), gfMul e.2 2)) ([1], 1)).1.tail

/-- The 30 parity symbols of 514 information symbols (PRESUMED, assumption 188). -/
def rsParity (msg : List Nat) : List Nat :=
  msg.foldl (fun r s =>
    let t := r.headD 0 ^^^ s
    List.zipWith (· ^^^ ·) (r.tail ++ [0]) (rsGen.map (gfMul t))) (List.replicate 30 0)

/-- The bits of a symbol of 10 bits, most significant first. -/
def symBits (s : Nat) : List Bool := (List.range 10).map fun i => bit s (9 - i)

/-- The 41 bytes of a marker: the lane's number, the frame's index and count, and their CRC (R384). -/
def markerBytes (lane sfi sfc : Nat) : List Byte :=
  let b := beBytes 1 lane ++ beBytes 1 sfi ++ beBytes 3 sfc ++ List.replicate 34 0
  b ++ beBytes 2 (crc16 b)

/-- A good marker of a lane: its CRC and its `LANE` are right (R384, R389). -/
def markerGood (lane : Nat) (b : List Byte) : Bool :=
  b.length == 41 && crc16 (b.take 39) == beNat (b.drop 39) && (b.getD 0 0).toNat == lane

/-- The marker words of a lane frame: the sequence, then the marker's bytes (R384). -/
def laneMarker (lane sfi sfc : Nat) : List Bool := prbs7 3072 (0x11 + lane) ++ msbBits (markerBytes lane sfi sfc)

/-- The bits of a stitch lane's frame: the marker words, then 390 codewords (R384). -/
def laneFrame (lane : Nat) (info : List Byte) : List Bool :=
  let l := msbBits (laneInfoBytes lane info)
  let sfi := (info.getD 0 0).toNat
  let sfc := beNat ((info.drop 1).take 3)
  laneMarker lane sfi sfc ++ (cut 5140 l).flatMap fun w =>
    let msg := (cut 10 w).map bitsNat
    (msg ++ rsParity msg).flatMap symBits

end Sys2Proof.Machine
end

