-- ==== Sys2Proof/Machine/FrameLine.lean ====
section
/-! DEFINITION. The line frame: aligner, slot maps, containers and loopbacks (R219 to R248). -/

namespace Sys2Proof.Machine

/-! ### The aligner (R236 to R239) -/

/-- ALIGNMENT_CANDIDATE_FOUND: the word's correlations of 64 equalised symbols at a position (R236). -/
def execAlignmentCandidateFound (sc pos : Nat) (r : List Cx2) (s : State) : Host.Outcome State Fault Refusal :=
  s.run fun d =>
    let f := (d.sc sc).fr
    let th := d.conf .awThresh sc
    let c := wordCorrs r
    let straight := decide (c.1 ≥ th ∧ c.2.1 ≥ th)
    let crossed := decide (c.2.2.1 ≥ th ∧ c.2.2.2 ≥ th)
    if !d.contScs.contains sc || f.state != .search || !(straight || crossed) || decide (f.cands.length ≥ 4) then d
    else d.modFr sc fun f => { f with cands := f.cands ++ [(pos % 87500, !straight)] }

/-- The checks of a frame boundary (R237): the word's correlations in 0.01 with the recorded swap, and ρ of each polarisation. -/
def Dev.wordOk (d : Dev) (n a b : Nat) : Bool := decide (a ≥ d.conf .awThresh n ∧ b ≥ d.conf .awThresh n)
/-- The pilot check. -/
def Dev.pilotsOk (d : Dev) (n x y : Nat) : Bool := decide (x ≥ d.conf .pilotThresh n ∧ y ≥ d.conf .pilotThresh n)

/-- A candidate passes: the frame boundary, the swap and the quarter turns are set; a plan that is held stays with its state, and the
frame's beacon counts for it; where none is held the beacon gives the plan (R151, R152, R238). -/
def Dev.frameFound (d : Dev) (n pos : Nat) (sw : Bool) (m : FrameSyms) : Dev :=
  let q := m.turns n
  let f : FrSc := { rotation := q.1, rotY := q.2 }
  let d := d.modFr n fun f => { f with
    state := .inFrame, cands := [], phase := false, rotation := q.1, rotY := q.2, swapped := sw, misses := 0, markMiss := 0,
    k := none, pos := pos, inSince := none }
  (d.raiseSc .frameIn n (q.1 + 4 * b2n sw)).rxBeacon n (beaconOf n (m.pilots.map f.correct))

/-- CANDIDATE_TEST: a held candidate one frame later, by its word and its pilots (R237, R238). -/
def execCandidateTest (sc pos : Nat) (m : FrameSyms) (s : State) : Host.Outcome State Fault Refusal :=
  s.run fun d =>
    let f := (d.sc sc).fr
    match d.contScs.contains sc && f.state == .search, f.cands.find? fun c => c.1 == pos % 87500 with
    | true, some c =>
      let m := m.unswap c.2
      let x := m.meas sc
      if d.wordOk sc x.aw1 x.aw2 && d.pilotsOk sc x.rhoX x.rhoY then d.frameFound sc c.1 c.2 m
      else (d.modFr sc fun f => { f with
        cands := f.cands.filter fun x => x.1 != pos % 87500, falseCands := (f.falseCands + 1) % 2 ^ 32 }).count (.sc sc) 6
    | _, _ => d

/-- The checks at an expected frame boundary in `IN_FRAME` (R238). -/
def Dev.alignFrame (d : Dev) (n : Nat) (m : AlignMeas) : Dev :=
  let f := (d.sc n).fr
  if f.state ≠ .inFrame then d else
  let w := d.wordOk n m.aw1 m.aw2
  let p := d.pilotsOk n m.rhoX m.rhoY
  if w && p then d.modFr n fun f => { f with misses := 0 }
  else if f.misses + 1 < d.conf .lossCount n then d.modFr n fun f => { f with misses := f.misses + 1 }
  else
    let d := (d.outOfFrame n .search [(f.pos, f.swapped)]).modFr n fun f => { f with oof := (f.oof + 1) % 2 ^ 32 }
    (d.raiseSc .frameOof n (b2n (!w) + 2 * b2n (!p))).homeLost n 1

/-- FRAME_LOSS: the failing frame boundary that reaches `LOSS_COUNT` (R238). -/
def execFrameLoss (sc : Nat) (m : FrameSyms) (s : State) : Host.Outcome State Fault Refusal :=
  s.run fun d =>
    let f := (d.sc sc).fr
    let m := (m.unswap f.swapped).meas sc
    if d.contScs.contains sc && f.state == .inFrame && !(d.wordOk sc m.aw1 m.aw2 && d.pilotsOk sc m.rhoX m.rhoY) &&
        decide (f.misses + 1 ≥ d.conf .lossCount sc) then d.alignFrame sc m
    else d

/-- The block-phase mark of a frame in `IN_FRAME`, with the frame's `MFI` where its overhead is good: the index k of the frame,
none while the phase is not known (R239). -/
def Dev.phaseFrame (d : Dev) (n : Nat) (mark : Bool) (mfi : Option Nat) : Dev :=
  let f := (d.sc n).fr
  if f.state ≠ .inFrame then d
  else if !f.phase then
    if mark then
      let k := (mfi.getD 0) / 64 * 64 % 256
      let d := d.modFr n fun f => { f with
        phase := true, k := some k, markMiss := 0, inSince := some d.now, retake := false, mfi := k }
      (if f.retake then d.raiseSc .framePhase n k else d).homeBack n
    else d.modFr n fun f => { f with notDelivered := (f.notDelivered + 1) % 2 ^ 32 }
  else
    let next := ((f.k.getD 0) + 1) % 256
    let k := match mfi with
      | some m => if m % 64 = next % 64 then m % 256 else next
      | none => next
    let due := decide (next % 64 = 0)
    if due && mark then d.modFr n fun f => { f with k := some k, mfi := k, markMiss := 0 }
    else if due == mark then d.modFr n fun f => { f with k := some k, mfi := k }
    else if f.markMiss + 1 < 2 then d.modFr n fun f => { f with k := some k, mfi := k, markMiss := f.markMiss + 1 }
    else (d.modFr n fun f => { f with phase := false, k := none, markMiss := 0, inSince := none, retake := true }).homeLost n 2

/-- PHASE_LOST: the second wrong mark in succession (R239). -/
def execPhaseLost (sc : Nat) (mark : Bool) (mfi : Option Nat) (s : State) : Host.Outcome State Fault Refusal :=
  s.run fun d =>
    let f := (d.sc sc).fr
    if d.contScs.contains sc && f.state == .inFrame && f.phase && decide (f.markMiss ≥ 1) &&
        decide (((f.k.getD 0) + 1) % 64 = 0) != mark then d.phaseFrame sc mark mfi
    else d

/-! ### Containers: access and streams (R229 to R233) -/

/-- A container's state in a direction: 0 transmit, 1 receive. -/
def Dev.cont (d : Dev) (c : Nat) (rx : Bool) : ContSt := d.conts.get (fun _ => {}) (2 * c + b2n rx)

/-- Change a container's state. -/
def Dev.modCont (d : Dev) (c : Nat) (rx : Bool) (f : ContSt → ContSt) : Dev :=
  { d with conts := d.conts.modify (fun _ => {}) (2 * c + b2n rx) f }

/-- A packet header (R231). -/
def packetHeader (kind len : Nat) : List Byte :=
  let h := beBytes 2 (kind * 16384 + len % 16384) ++ beBytes 1 0
  h ++ [BitVec.ofNat 8 (crc8 h)]

/-- A frame with its packet header, as it stands in a stream. -/
def streamFrame (frame : List Byte) : List Byte := packetHeader 1 frame.length ++ frame

/-- The next n bytes of a packet stream: the bytes, what is left of the packets, how many bytes of the first of them are sent, and
the offset of the first packet header that starts in the bytes; idle headers where no frame is ready (R231). -/
def streamBytes (n : Nat) (out : List (List Byte)) (sent : Nat) : List Byte × List (List Byte) × Nat × Option Nat :=
  takeStream n n 0 out sent none
where
  /-- Whole packets are taken at once; `k` bounds the packets. -/
  takeStream : Nat → Nat → Nat → List (List Byte) → Nat → Option Nat → List Byte × List (List Byte) × Nat × Option Nat
    | 0, _, _, out, sent, first => ([], out, sent, first)
    | k + 1, left, pos, out, sent, first =>
      if left = 0 then ([], out, sent, first) else
      let p := out.headD (packetHeader 0 0)
      let body := p.drop sent
      let first := if sent = 0 ∧ first.isNone then some pos else first
      if body.length > left then (body.take left, p :: out.drop 1, sent + left, first)
      else
        let rest := takeStream k (left - body.length) (pos + body.length) (out.drop 1) 0 first
        (body ++ rest.1, rest.2)

/-- The share of a container: the bytes of a payload area of n positions at those selected, with its marked ones (R228, R385). -/
def shareOf (n : Nat) (sel : Nat → Bool) (payload : List Byte) (marks : List Nat) : List Byte × List Nat :=
  let l := payload.zipIdx.filter fun e => sel (e.2 % n)
  (l.map (·.1), (l.zipIdx.filter fun e => marks.contains e.1.2).map (·.2))

/-- More bytes of a chunk. -/
def CutSt.more (c : CutSt) (b : List Byte) (marks : List Nat) : CutSt :=
  if c.on then { c with bytes := c.bytes ++ b, marks := c.marks ++ marks.map (· + c.bytes.length) } else c

/-- A container's share of a frame: the chunks of len bytes that it completes, and what has come of the next. A chunk starts at the offset
that the overhead gives; one that is not complete there is dropped (R229, R230) (DESIGN CHOICE, assumption 93). -/
def CutSt.take (c : CutSt) (len : Nat) (share : List Byte × List Nat) (ptr : Nat) (pm : Option Nat) : List CutSt × CutSt :=
  let done := fun c : CutSt => if c.on && c.bytes.length == len then ([c], ({} : CutSt)) else ([], c)
  let a := done (c.more (share.1.take ptr) (share.2.filter (· < ptr)))
  if share.1.length ≤ ptr then a
  else
    let b := done (({ on := true, pm := pm } : CutSt).more (share.1.drop ptr) ((share.2.filter (ptr ≤ ·)).map (· - ptr)))
    (a.1 ++ b.1, b.2)

/-- A container's share of a received frame joins what has come of its chunks; those that it completes wait for the decapsulator. -/
def Dev.cutShare (d : Dev) (stitch : Bool) (sc id len : Nat) (share : List Byte × List Nat) (ptr : Nat) (pm : Option Nat) : Dev :=
  let k := if stitch then 1024 + id else id
  let r := (d.ohd.cuts.get (fun _ => {}) k).take len share ptr pm
  d.modOver fun o => { o with
    cuts := o.cuts.set (fun _ => {}) k r.2, chunks := o.chunks ++ r.1.map fun c => ⟨stitch, sc, id, c.bytes, c.marks, c.pm, d.now⟩ }

/-- What the decapsulator hands on: a frame's bytes, and whether it ends with a stomped FCS (R233). -/
abbrev Delivery := List Byte × Bool

/-- One byte of a packet stream at the decapsulator: what it delivers, and the state; `sync` falls where the header is wrong. -/
def ContSt.takeByte (c : ContSt) (b : Byte) (mark : Bool) : List Delivery × ContSt :=
  if c.need = 0 then
    let h := c.part ++ [b]
    if h.length < 4 then ([], { c with part := h })
    else
      let w := beNat (h.take 2)
      let kind := w / 16384
      let len := w % 16384
      if crc8 (h.take 3) ≠ (h.getD 3 0).toNat then ([], { c with sync := false, part := [] })
      else if kind = 0 ∧ len = 0 then ([], { c with part := [], marked := false })
      else if kind = 1 ∧ 64 ≤ len then ([], { c with part := [], need := len, marked := false })
      else ([], { c with sync := false, part := [] })
  else
    let part := b :: c.part
    let m := c.marked || mark
    if c.need = 1 then ([(part.reverse, m)], { c with part := [], need := 0, marked := false })
    else ([], { c with part := part, need := c.need - 1, marked := m })

/-- Bytes of a packet stream, while the stream position holds: deliveries, the state, and at which offset the first packet header
started. -/
def ContSt.takeBytes (c : ContSt) (marks : List Nat) : Nat → List Byte → Option Nat → List Delivery × ContSt × Option Nat
  | _, [], first => ([], c, first)
  | pos, b :: r, first =>
    if !c.sync then ([], c, first) else
    let first := if c.need = 0 ∧ c.part = [] ∧ first.isNone then some pos else first
    let x := c.takeByte b (marks.contains pos)
    let y := ContSt.takeBytes x.2 marks (pos + 1) r first
    (x.1 ++ y.1, y.2)

/-- The frame in progress ends with a stomped FCS and the stream position is dropped (R233) (DESIGN CHOICE, assumption 92). -/
def ContSt.cutFrame (c : ContSt) : List Delivery × ContSt :=
  let d : List Delivery := if c.need > 0 then [(c.part.reverse, true)] else []
  (d, { c with sync := false, part := [], need := 0, marked := false, stomped := (c.stomped + d.length) % 2 ^ 32 })

/-- Count deliveries: frames, their bytes, and those stomped (R246) (DESIGN CHOICE, assumption 92). -/
def ContSt.count (c : ContSt) (l : List Delivery) : ContSt :=
  { c with frames := (c.frames + l.length) % 2 ^ 64, bytes := (c.bytes + (l.map fun x => x.1.length).sum) % 2 ^ 64,
           stomped := (c.stomped + (l.filter (·.2)).length) % 2 ^ 32 }

/-- A stretch of a packet stream, a chunk's payload or a burst's stream bytes, with its `FIRST_PKT`: it continues the stream where
its position is held and agrees, whatever its headers then prove to be, else it starts at `FIRST_PKT` (R233, R292). The flag says that a stream position was dropped. -/
def ContSt.stretch (c : ContSt) (first : Nat) (payload : List Byte) (marks : List Nat) : List Delivery × Bool × ContSt :=
  let resume := fun (c : ContSt) =>
    if first ≥ payload.length then (([] : List Delivery), false, { c with sync := false, part := [], need := 0 })
    else
      let x := ContSt.takeBytes { c with sync := true, part := [], need := 0, marked := false } marks first (payload.drop first) none
      (x.1, !x.2.1.sync, x.2.1.count x.1)
  if !c.sync then resume c else
  let x := c.takeBytes marks 0 payload none
  let agrees := match x.2.2 with
    | some f => f == first
    | none => !x.2.1.sync || first == 0x1FFFF
  if agrees then (x.1, !x.2.1.sync, x.2.1.count x.1)
  else
    let cut := c.cutFrame
    let y := resume cut.2
    (cut.1 ++ y.1, true, y.2.2)

/-! ### Commands (R241 to R246) -/

/-- FRAME.SLOT_MAP (R242). -/
def verbFrameSlotMap : Verb where
  code := 0x1501
  role := .operator
  len := 40
  params := [⟨0, 0, 32, .patch [(.subcarrier, 0, 31)]⟩, ⟨4, 0, 16, .rsv⟩] ++
    (List.range 17).map fun p => ⟨6 + 2 * p, 10, 5, .rsv⟩

/-- The meaning of `FRAME.SLOT_MAP`. -/
def bodyFrameSlotMap : Body := stageEach (fun _ _ _ => none) fun c _ n =>
  (List.range 17).map fun p => fv .mapEntry (17 * n + p) (c.p (6 + 2 * p) 0 16) 16

/-- FRAME_SLOT_MAP (R242). -/
def execFrameSlotMap (c : HostCall) (s : State) : Host.Outcome State Fault Refusal := runVerb verbFrameSlotMap bodyFrameSlotMap c s

/-- FRAME.CONTAINER (R243). -/
def verbFrameContainer : Verb where
  code := 0x1502
  role := .operator
  len := 8
  params := [⟨0, 10, 6, .rsv⟩, ⟨2, 1, 2, .enum [0, 1, 2]⟩, ⟨2, 3, 5, .rsv⟩, ⟨3, 0, 8, .rsv⟩, ⟨4, 10, 6, .rsv⟩, ⟨6, 0, 16, .rsv⟩]

/-- FRAME_CONTAINER (R243). -/
def execFrameContainer (c : HostCall) (s : State) : Host.Outcome State Fault Refusal :=
  runVerb verbFrameContainer (stageOn ⟨.line, 0⟩
    (fun c d => firstOf [(c.p 2 1 2 == 2 && d.conf .stitchUse == 0, .state), (c.p 2 1 2 != 2 && c.p 4 0 10 != 0, .badParameter)])
    fun c _ =>
      let i := 2 * c.p 0 0 10 + c.p 2 0 1
      [fv .contBind i (c.p 2 1 2) 2, fv .contStitch i (c.p 4 0 10) 10]) c s

/-- Containers that a commit binds for the first time start their counters and their `PFN` afresh, and paths that it makes monitored start
their seconds (R232, R246, R260). -/
def Dev.contCommit (d : Dev) (old : Dev) (es : List Entry) : Dev :=
  let d := (stagedAll es .contBind).foldl (fun d e =>
    if e.2 ≠ 0 ∧ old.conf .contBind e.1 = 0 then { d with conts := d.conts.set (fun _ => {}) e.1 {} } else d) d
  let was := old.pathKeys
  (d.pathKeys.filter fun k => !was.contains k).foldl (fun d k => d.modPath k fun _ => { pm := d.newPm }) d

/-- FRAME.ALIGN_SET (R241). -/
def verbFrameAlignSet : Verb where
  code := 0x1503
  role := .operator
  len := 8
  groups := true
  params := [⟨0, 0, 32, .patch [(.subcarrier, 0, 31)]⟩, ⟨4, 0, 8, .range 30 95⟩, ⟨5, 0, 8, .range 20 90⟩, ⟨6, 0, 4, .range 2 15⟩,
    ⟨6, 4, 4, .rsv⟩, ⟨7, 0, 8, .rsv⟩]

/-- The meaning of `FRAME.ALIGN_SET`. -/
def bodyFrameAlignSet : Body := stageEach (fun _ _ _ => none) fun c _ n =>
  [fv .awThresh n (c.p 4 0 8) 8, fv .pilotThresh n (c.p 5 0 8) 8, fv .lossCount n (c.p 6 0 4) 4]

/-- FRAME_ALIGN_SET (R241). -/
def execFrameAlignSet (c : HostCall) (s : State) : Host.Outcome State Fault Refusal := runVerb verbFrameAlignSet bodyFrameAlignSet c s

/-- FRAME.LOOPBACK (R244). -/
def verbFrameLoopback : Verb where
  code := 0x1504
  role := .operator
  len := 6
  groups := true
  params := [⟨0, 0, 32, .patch [(.line, 0, 0), (.subcarrier, 0, 31)]⟩, ⟨5, 0, 8, .rsv⟩]

/-- What refuses a loopback (R240, R244). -/
def frameLoopbackCheck (c : Call) (d : Dev) (_ : Nat) : Option Status :=
  let m := c.p 4 0 2
  let line := c.cls == .line
  firstOf [
    ((m == 1 || m == 2) && !line || m == 3 && line, .badParameter),
    ((m == 1 || m == 2) && d.narrow && (d.conf .rxFirst != d.conf .txFirst || d.conf .rxCount != d.conf .txCount), .state)]

/-- The meaning of `FRAME.LOOPBACK`. -/
def bodyFrameLoopback : Body := stageEach frameLoopbackCheck fun c _ n =>
  [fv .loopMode (if c.cls = .line then 0 else 1 + n) (c.p 4 0 2) 2]

/-- FRAME_LOOPBACK (R244). -/
def execFrameLoopback (c : HostCall) (s : State) : Host.Outcome State Fault Refusal := runVerb verbFrameLoopback bodyFrameLoopback c s

/-- Validation of facility loopbacks at a commit (R244). -/
def validateLoop (d : Dev) (es : List Entry) : Option Status :=
  if (List.range 32).any fun n => staged? es .loopMode (1 + n) == some 3 && (d.sc n).slotsDiffer then some .loopMismatch else none

/-- A commit's loopbacks apply: a line loopback that starts or ends takes every aligner to `WAIT` (R238, R240). -/
def Dev.loopCommit (d : Dev) (old : Dev) (es : List Entry) : Dev :=
  let d := (List.range 32).foldl (fun d n =>
    if (staged? es .loopMode (1 + n)).isSome then d.modFr n fun f => { f with loop := [], looped := false } else d) d
  match staged? es .loopMode 0 with
  | some m => if m = old.conf .loopMode 0 then d else d.liveScs.foldl (fun d n => d.alignWait n 5) d
  | none => d

/-- FRAME.STATUS (R245). -/
def verbFrameStatus : Verb where
  code := 0x1505
  role := .observer
  len := 4
  groups := true
  reads := true
  params := [⟨0, 0, 32, .patch [(.subcarrier, 0, 31)]⟩]

/-- The code of an aligner state (R245). -/
def AlignState.code : AlignState → Nat
  | .wait => 0 | .search => 1 | .inFrame => 2

/-- The result fields of an aligner (R245). -/
def frameFields (v : Dev) (n : Nat) : List RField :=
  let f := (v.sc n).fr
  let loop := if v.conf .loopMode 0 = 0 then v.conf .loopMode (1 + n) else v.conf .loopMode 0
  [rf (.severe [0, 1, 2]) 0 0 2 f.state.code, rf (.severe [0, 1]) 0 2 1 (b2n f.phase), rf .conf 0 3 2 loop,
    rf .conf 1 0 3 f.cands.length, rf .conf 1 3 2 f.rotation, rf .conf 1 5 1 (b2n f.swapped), rf .conf 2 0 8 f.mfi,
    rf .sum 4 0 32 f.oof, rf .sum 8 0 32 f.falseCands, rf .sum 12 0 32 f.ohErrors, rf .sum 16 0 32 f.notDelivered,
    rf .sum 20 0 32 f.mapMismatch, rf .sum 24 0 32 f.slips]

/-- The meaning of `FRAME.STATUS`. -/
def bodyFrameStatus : Body := readEach 28 fun _ v n => if v.runs (.sc n) then some (frameFields v n) else none

/-- FRAME_STATUS (R245). -/
def execFrameStatus (c : HostCall) (s : State) : Host.Outcome State Fault Refusal := runVerb verbFrameStatus bodyFrameStatus c s

/-- FRAME.CONTAINER_STATUS (R246) (DESIGN CHOICE, assumption 216). -/
def verbFrameContainerStatus : Verb where
  code := 0x1506
  role := .observer
  len := 3
  params := [⟨0, 0, 16, .range 0 1023⟩]

/-- The results of `FRAME.CONTAINER_STATUS` (R246). -/
def containerStatus (v : Dev) (c : Nat) (rx : Bool) : Res :=
  let x := v.cont c rx
  let sc := ((if rx then v.rxCarriers c else v.txCarriers c).head?).getD 0x1F
  res 40 [fieldAt 0 64 x.frames, fieldAt 8 64 x.bytes, fieldAt 16 32 x.stomped, fieldAt 20 32 x.delin, fieldAt 24 32 x.chunkErrors,
    fieldAt 28 32 x.pfnJumps, fieldAt 32 32 x.slips, fieldAt 36 16 x.lastPfn, at' 38 0 5 (v.contK rx c), at' 39 0 5 sc]

/-- FRAME_CONTAINER_STATUS (R246). -/
def execFrameContainerStatus (c : HostCall) (s : State) : Host.Outcome State Fault Refusal :=
  runVerb verbFrameContainerStatus (onView fun c v =>
    if v.conf .contBind (2 * c.p 0 0 16 + c.p 2 0 1) = 0 then .now .badParameter
    else .now .ok (containerStatus v (c.p 0 0 16) (c.p 2 0 1 == 1))) c s

end Sys2Proof.Machine
end

