-- ==== Sys2Proof/Machine/Lanes.lean ====
section
/-! DEFINITION. Host and stitch lanes, ports, the stitch receiver and the boundary clock's messages (R366, R376 to R397). -/

namespace Sys2Proof.Machine

/-! ### Access -/

/-- A lane: 0 to 15 host, 16 and above stitch (DESIGN CHOICE, assumption 127). -/
def Dev.laneSt (d : Dev) (k : Nat) : LaneSt := d.lane.lanes.get (fun _ => {}) k

/-- Change lanes and ports. -/
def Dev.modLanes (d : Dev) (f : LaneAll → LaneAll) : Dev := { d with lane := f d.lane }

/-- Change a lane. -/
def Dev.modLane (d : Dev) (k : Nat) (f : LaneSt → LaneSt) : Dev :=
  d.modLanes fun l => { l with lanes := l.lanes.modify (fun _ => {}) k f }

/-- A port. -/
def Dev.portSt (d : Dev) (p : Nat) : PortSt := d.lane.ports.get (fun _ => {}) p

/-- Change a port. -/
def Dev.modPort (d : Dev) (p : Nat) (f : PortSt → PortSt) : Dev :=
  d.modLanes fun l => { l with ports := l.ports.modify (fun _ => {}) p f }

/-- Change the stitch port. -/
def Dev.modStitch (d : Dev) (f : StitchSt → StitchSt) : Dev := d.modLanes fun l => { l with stitch := f l.stitch }

/-- The power unit of a lane's direction. -/
def laneUnit (k : Nat) (egress : Bool) : PowerUnit :=
  if k < 16 then (if egress then .hostOut k else .hostIn k) else if egress then .stOut (k - 16) else .stIn (k - 16)

/-- The patch of a lane. -/
def lanePatch (k : Nat) : Patch := if k < 16 then ⟨.hostLane, k⟩ else ⟨.stitchLane, k - 16⟩

/-- Lane and stitch bit of a lane's events (R396). -/
def laneInfo (k : Nat) : Nat := if k < 16 then k else 16 + (k - 16)

/-- A port is committed with a direction: 0 ingress, 1 egress. -/
def Dev.portDirs (d : Dev) (p dir : Nat) : Bool := d.conf .portEn p == 1 && bit (d.conf .portDir p) dir

/-- The directions of lanes that a port names are awake (R380). -/
def Dev.portAwake (d : Dev) (p dir : Nat) : Bool :=
  d.portDirs p dir && (d.portSpan p).all fun n => d.runs (laneUnit n (dir == 1))

/-- The scheduler serves a port: its egress is awake, no far-end loopback discards its data, and a port with ingress is up (R378,
R380). -/
def Dev.portServes (d : Dev) (p : Nat) : Bool :=
  d.portAwake p 1 && ((d.portSpan p).all fun n => d.conf .laneLoop n != 3) && (!d.portDirs p 0 || (d.portSt p).up)

/-- A port whose ingress is down sends remote fault; one without ingress has no link state (R378, R380). -/
def Dev.sendsFault (d : Dev) (p : Nat) : Bool := d.portAwake p 1 && d.portDirs p 0 && !(d.portSt p).up

/-- Some lanes take in at the near end what they send (R383). -/
def Dev.nearLoop (d : Dev) (l : List Nat) : Bool := !l.isEmpty && l.all fun k => d.conf .laneLoop k == 1 || d.conf .laneLoop k == 2

/-- Some lanes send what they take in (R383). -/
def Dev.farLoop (d : Dev) (l : List Nat) : Bool := !l.isEmpty && l.all fun k => d.conf .laneLoop k == 3

/-- The stitch lanes. -/
def stitchLanes : List Nat := (List.range 8).map (16 + ·)

/-- All 16 stitch directions, or the 8 of one direction, run. -/
def Dev.stitchRuns (d : Dev) (egress : Bool) : Bool := (List.range 8).all fun n => d.runs (laneUnit (16 + n) egress)

/-! ### Presets (R381, R382, R528) -/

/-- The equalisation entries of the board table in force. -/
def OtpSt.eqEntries (o : OtpSt) : List (List Byte) :=
  match o.inForcePayload 6 with
  | none => []
  | some b => ((List.range (min 48 (b.getD 0 0).toNat)).map fun k => slice b (8 + 10 * k) 10).filter fun e => bit (e.getD 0 0).toNat 7

/-- The key of an equalisation entry: lane, stitch, direction and rate. -/
def eqKey (e : List Byte) : Nat := (e.getD 0 0).toNat % 128 + 128 * ((e.getD 1 0).toNat % 4)

/-- The preset of a lane direction at a rate; two valid entries with one key make all of them void (R381, R528). -/
def Dev.preset (d : Dev) (k : Nat) (egress : Bool) : Option (List Byte) :=
  let l := d.otp.eqEntries
  let keys := l.map eqKey
  if keys.length ≠ keys.eraseDups.length then none else
  let rate := if k < 16 then d.laneRate k else 2
  let key := (if k < 16 then k else (k - 16) + 32) + 64 * b2n egress + 128 * rate
  l.find? fun e => eqKey e == key

/-- A lane direction runs without a valid preset and without host values (R382). -/
def Dev.fallback (d : Dev) (k : Nat) (egress : Bool) : Bool :=
  d.runs (laneUnit k egress) && d.conf .laneSrc k == 0 && (d.preset k egress).isNone

/-- The transmit taps `PRE2`, `PRE1`, `MAIN` and `POST1` of a lane: the preset's, or those that the host set (R381, R382). -/
def Dev.txTaps (d : Dev) (k : Nat) : Int × Int × Int × Int :=
  let t := match d.conf .laneSrc k, d.preset k true with
    | 0, some e => [signed 8 (e.getD 2 0).toNat, signed 8 (e.getD 3 0).toNat, signed 8 (e.getD 4 0).toNat]
    | _, _ => [signed 8 (d.conf .lanePre2 k), signed 8 (d.conf .lanePre1 k), signed 8 (d.conf .lanePost1 k)]
  (t.getD 0 0, t.getD 1 0, 128 - (t.map fun x => (x.natAbs : Int)).sum, t.getD 2 0)

/-- The 12 taps with which a lane's equaliser starts, in 1/16 of the main one: the preset's, else a pass-through (R381, R382, R528)
(DESIGN CHOICE, assumption 215). -/
def Dev.ffeStart (d : Dev) (k : Nat) : List Int :=
  (List.range 12).map fun i =>
    if i = 3 then 16 else
    match d.conf .laneSrc k, d.preset k false with
    | 0, some e => signed 4 ((e.getD (3 + i / 2) 0).toNat / 16 ^ (i % 2) % 16)
    | _, _ => 0

/-- A lane's equalisation comes into force: the transmitter takes its taps, the receiver's adaptation starts (R382). -/
def Dev.laneEqualise (d : Dev) (k : Nat) (egress : Bool) : Dev :=
  if !d.runs (laneUnit k egress) then d
  else if egress then let t := d.txTaps k; d.emit (.laneTaps k t.1 t.2.1 t.2.2.1 t.2.2.2)
  else d.modLane k fun x => { x with ffe := d.ffeStart k }

/-- `CTLE_PEAK` in force at a lane (R381, R382). -/
def Dev.ctle (d : Dev) (k : Nat) : Nat :=
  match d.conf .laneSrc k, d.preset k false with
  | 0, some e => (e.getD 2 0).toNat
  | _, _ => d.conf .laneCtle k

/-! ### The stitch receiver (R389) -/

/-- Raise an event about the stitch port. -/
def Dev.raiseStitch (d : Dev) (ev : Ev) (info : Nat) : Dev := d.raiseAt ev ⟨.stitchLane, 0⟩ info

/-- The stitch receiver leaves for `DOWN`; from `UP`, with the event unless a lane has gone to sleep (R389). -/
def Dev.stitchGoDown (d : Dev) (why : Option Nat) : Dev :=
  let was := d.lane.stitch.state
  if was = .down then d else
  let d := d.modStitch fun x => { x with
    state := .down, downs := (x.downs + 1) % 2 ^ 32, good := 0, bad := 0, frames := 0, echo := false, bip := none, rxRest := [] }
  let d := d.modOver fun o => { o with cuts := o.cuts.filter fun e => decide (e.1 < 1024) }
  match why with
  | some w => if was = .up then d.raiseStitch .stitchDown w else d
  | none => d

/-- A lane's marker state (DESIGN CHOICE, assumption 129). -/
def StitchSt.mark (x : StitchSt) (k : Nat) : MarkSt := x.marks.get (fun _ => {}) k

/-- The distance of two word positions in a frame of 6,250 words. -/
def wordGap (a b : Nat) : Nat := let g := (a + 6250 - b % 6250) % 6250; min g (6250 - g)

/-- The greatest skew between any two lanes, in words, once all of them show the same frame (DESIGN CHOICE, assumption 129). -/
def StitchSt.skewOf (x : StitchSt) : Option Nat :=
  let l := (List.range 8).map x.mark
  let a := x.mark 0
  if l.all fun m => m.locked && m.sfi == a.sfi && m.sfc == a.sfc then
    some ((l.flatMap fun m => l.map fun n => wordGap m.word n.word).foldl max 0)
  else none

/-- A lane's marker state after a good marker, 6,250 words after the one before or elsewhere (R389). -/
def MarkSt.took (x : MarkSt) (m : Marker) : MarkSt :=
  let n := if 0 < x.good ∧ m.word % 6250 = x.word then min 2 (x.good + 1) else 1
  { good := n, bad := 0, locked := x.locked || decide (2 ≤ n), sfi := (m.bytes.getD 1 0).toNat, sfc := beNat (slice m.bytes 2 3),
    word := m.word % 6250 }

/-- The marker that a lane takes in: in a near-end loopback its own (R383). -/
def Dev.markerSeen (d : Dev) (lane : Nat) (m : Marker) : Marker :=
  if !d.nearLoop [16 + lane] then m
  else { m with bytes := if d.lane.stitch.txOn then markerBytes lane d.lane.stitch.txSfi d.lane.stitch.txSfc else [] }

/-- STITCH_LANE_MARKER: what stands at a lane's marker position is a good marker, or it is missing or bad; once locked, a marker elsewhere
counts as missing (R384, R389) (DESIGN CHOICE, assumption 129). -/
def execStitchLaneMarker (lane : Nat) (m : Marker) (s : State) : Host.Outcome State Fault Refusal :=
  s.run fun d =>
    if lane ≥ 8 ∨ !(d.laneSt (16 + lane)).locked then d else
    let m := d.markerSeen lane m
    let was := d.lane.stitch.mark lane
    let set := fun (d : Dev) (f : MarkSt → MarkSt) => d.modStitch fun x => { x with marks := x.marks.modify (fun _ => {}) lane f }
    if markerGood lane m.bytes && (!was.locked || was.word == m.word % 6250) then
      let d := set d fun x => x.took m
      match d.lane.stitch.skewOf with
      | none => d
      | some k =>
        let d := d.modStitch fun x => { x with skew := k }
        if k > 32 then (if d.lane.stitch.state = .up then d.stitchGoDown (some 3) else d)
        else if d.lane.stitch.state = .down ∧ d.stitchRuns false then d.modStitch fun x => { x with state := .aligning }
        else d
    else
      let d := set d fun x => { x with good := 0, bad := min 3 (x.bad + 1) }
      if (d.lane.stitch.mark lane).bad < 3 then d else
      let d := set d fun x => { x with locked := false }
      if d.lane.stitch.state = .up then d.stitchGoDown (some 2) else d

/-- Slips of a lane's far-end store, each of 16 words of a host lane or of the 10 marker words of a stitch lane, repeated, or dropped where
the number is below zero; reported at most once per second (R383). -/
def Dev.laneSlip (d : Dev) (k : Nat) (n : Int) : Dev :=
  if n = 0 then d else
  let d := d.emit (.wordSlip k (n * (if k < 16 then 16 else 10)))
  let say := (d.laneSt k).slipsSaid.add d.now n.natAbs
  let d := d.modLane k fun x => { x with slips := (x.slips + n.natAbs) % 2 ^ 32, slipsSaid := say.2 }
  match say.1 with
  | some c => d.raiseAt .laneSlip (lanePatch k) (sat 16 c)
  | none => d

/-- The cells of a received quilt field, back to back across frames (R386). -/
def Dev.stitchCells (d : Dev) (b : List Byte) : Dev :=
  let all := d.lane.stitch.rxRest ++ b
  let n := all.length / 16
  let d := (chunks 16 n (all.take (16 * n))).foldl (fun d c => d.cellIn 32 c) d
  d.modStitch fun x => { x with rxRest := all.drop (16 * n) }

/-- What a good stitch overhead gives while the receiver is `UP` (R386, R388, R391) (DESIGN CHOICE, assumption 131). -/
def Dev.stitchOverhead (d : Dev) (f : StitchFrame) : Dev :=
  let o := f.soh
  let by' := fun i => (o.getD i 0).toNat
  let sfi := by' 0
  let num := beNat (slice o 4 2) % 4096
  let echo := num == d.num
  let x := d.lane.stitch
  let viol := match x.bip with
    | some b => diffBits b (o.getD 7 0)
    | none => 0
  let d := d.modStitch fun x => { x with
    echo := echo, farNum := num, farLG := bit (by' 6) 7, farBdi := bit (by' 6) 6, farRelay := bit (by' 6) 5,
    map := (List.range 320).map fun p => beNat (slice o (1280 + 2 * p) 2),
    ptrs := (List.range 320).map fun p => beNat (slice o (1920 + 3 * p) 3) / 128, bipViol := (x.bipViol + viol) % 2 ^ 32 }
  let d := d.count .stitch 3 viol
  let d := if echo ∧ !x.echo then d.raiseStitch .stitchEcho 1 else d
  let t := d.time.timeAt d.now (f.frac % 65536)
  if echo then
    match decide (sfi = 0), x.dep with
    | true, some dep => d.modTt 1 fun y => { y with rtt := unsigned 32 (roundDiv ((t - dep) * 1000) 65536 - 19200) }
    | _, _ => d
  else
    let d := (d.stitchCells (slice o 24 1250)).ttTake 1 0 sfi (beNat (slice o 1 3)) (slice o 8 16)
    if sfi = 0 then
      let d := d.ttArrive 1 0 { mfc := beNat (slice o 1 3), time := t, start := d.now }
      d.ttPair 1 [0] 0
    else d

/-- The containers of a received stitch frame, by the maps of its own overhead or of the last good one (R385, R388). -/
def Dev.stitchCut (d : Dev) (f : StitchFrame) (ok : Bool) : Dev :=
  let m := d.lane.stitch.map
  let ids := ((m.filter fun e => bit e 15).map fun e => bits e 0 10).eraseDups
  ids.foldl (fun d id =>
    let at' := fun p => let e := m.getD p 0; bit e 15 && bits e 0 10 == id
    let ps := (List.range 320).filter at'
    let low := ps.headD 0
    d.cutShare true 0 id (6250 * ps.length) (shareOf 320 at' f.payload []) (d.lane.stitch.ptrs.getD low 0x1FFFF)
      (if ok then some (f.soh.getD (2880 + low) 0).toNat else none)) d

/-- The stitch frame that the receiver takes in: a lane in near-end loopback brings the port's own bytes (R383, R385). -/
def Dev.stitchSeen (d : Dev) (f : StitchFrame) : StitchFrame :=
  let near := (List.range 8).filter fun n => d.nearLoop [16 + n]
  match near, d.lane.stitch.sent with
  | [], _ => f
  | _, none => { f with soh := [], payload := [] }
  | _, some x =>
    let mix := fun (own came : List Byte) =>
      if near.length = 8 then own else (own.zip came).mapIdx fun i p => if near.contains (i % 8) then p.1 else p.2
    { f with soh := mix x.1 f.soh, payload := mix x.2 f.payload }

/-- The stitch lanes that send what they take in: each in a far-end loopback, all of them in a relay; both directions are awake (R383,
R392). -/
def Dev.returning (d : Dev) : List Nat :=
  (List.range 8).filter fun n =>
    (d.farLoop [16 + n] || (d.conf .stitchRelay == 1 && d.conf .stitchUse == 1 && d.stitchRuns true && d.stitchRuns false)) &&
    d.runs (laneUnit (16 + n) true) && d.runs (laneUnit (16 + n) false)

/-- A received stitch frame; the lanes of a relay, or of far-end loopbacks, send it again as it came; a sleeping ingress direction ignores
its input (R379, R383, R388, R389, R392). -/
def Dev.stitchFrame (d : Dev) (f : StitchFrame) : Dev :=
  let back := d.returning
  let d := if back.isEmpty then d else d.emit (.stitchRelay back f.soh f.payload)
  let f := d.stitchSeen f
  let st := d.lane.stitch.state
  let d := (List.range 8).foldl (fun d n =>
    if !d.runs (laneUnit (16 + n) false) then d else
    let d := d.modLane (16 + n) fun x => { x with symbols := (x.symbols + f.symbols.getD n 0) % 2 ^ 64 }
    if back.contains n then d.laneSlip (16 + n) (f.slips.getD n 0) else d) d
  if !d.stitchRuns false then d else
  if st = .down then d else
  let ok := f.soh.length == 4600 && crc32 (f.soh.take 4596) == beNat (f.soh.drop 4596)
  let d := d.modStitch fun x => { x with
    good := if ok then min 2 (x.good + 1) else 0, bad := if ok then 0 else min 8 (x.bad + 1), frames := min 8 (x.frames + 1),
    sohErrors := (x.sohErrors + b2n (!ok)) % 2 ^ 32 }
  let d := (d.count .stitch 1).count .stitch 2 (b2n (!ok))
  let x := d.lane.stitch
  let num := beNat (slice f.soh 4 2) % 4096
  let d := if st = .aligning then
      (if x.good ≥ 2 then (d.modStitch fun x => { x with state := .up, frames := 0 }).raiseStitch .stitchUp num
      else if x.frames ≥ 8 then d.stitchGoDown none else d)
    else if x.bad ≥ 8 then d.stitchGoDown (some 4) else d
  let d := if ok ∧ d.lane.stitch.state = .up then d.stitchOverhead f else d
  let d := if d.lane.stitch.state = .up ∧ !d.lane.stitch.echo then d.stitchCut f ok else d
  if d.lane.stitch.state = .down then d else d.modStitch fun x => { x with bip := some (bip8 f.payload) }

/-- STITCH_FRAME_RECEIVED (R388). -/
def execStitchFrameReceived (f : StitchFrame) (s : State) : Host.Outcome State Fault Refusal := s.run fun d => d.stitchFrame f

/-- STITCH_ALIGN_TIMEOUT: the eighth frame in `ALIGNING` without two good overheads in succession (R389). -/
def execStitchAlignTimeout (f : StitchFrame) (s : State) : Host.Outcome State Fault Refusal :=
  s.run fun d =>
    let x := d.lane.stitch
    let g := d.stitchSeen f
    let ok := g.soh.length == 4600 && crc32 (g.soh.take 4596) == beNat (g.soh.drop 4596)
    if x.state = .aligning ∧ x.frames ≥ 7 ∧ !(ok && x.good ≥ 1) then d.stitchFrame f else d

/-- STITCH_SOH_LOSS: the eighth bad overhead in succession (R389). -/
def execStitchSohLoss (f : StitchFrame) (s : State) : Host.Outcome State Fault Refusal :=
  s.run fun d =>
    let x := d.lane.stitch
    let g := d.stitchSeen f
    let ok := g.soh.length == 4600 && crc32 (g.soh.take 4596) == beNat (g.soh.drop 4596)
    if x.state = .up ∧ x.bad ≥ 7 ∧ !ok then d.stitchFrame f else d

/-! ### Lanes and ports (R378, R379) -/

/-- LANE_LOCK: an awake ingress direction's CDR locks (R379). -/
def execLaneLock (lane snr : Nat) (s : State) : Host.Outcome State Fault Refusal :=
  s.run fun d =>
    if lane ≥ 24 ∨ !d.runs (laneUnit lane false) then d else
    let was := (d.laneSt lane).locked
    let d := d.modLane lane fun x => { x with locked := true, snr := snr, since := if was then x.since else d.now }
    if was then d else d.raiseAt .laneLocked (lanePatch lane) (laneInfo lane)

/-- A port goes down: 1 alignment, 2 local fault, 3 remote fault (R378) (DESIGN CHOICE, assumption 128). -/
def Dev.portLost (d : Dev) (p why : Nat) : Dev :=
  let d := d.modPort p fun x => { x with
    up := false, since := d.now, localFault := why == 2, remoteFault := why == 3, downs := (x.downs + 1) % 2 ^ 32 }
  (if d.sendsFault p then d.emit (.remoteFault p true) else d).raiseAt .portDown ⟨.port, p⟩ (p + 16 * why)

/-- An ingress lane loses lock: of a host lane, its port loses alignment; of a stitch lane, the marker lock goes with it (R378, R389). -/
def Dev.laneLost (d : Dev) (k : Nat) : Dev :=
  let d := d.modLane k fun x => { x with locked := false, losses := (x.losses + 1) % 2 ^ 32 }
  let d := d.raiseAt .laneUnlocked (lanePatch k) (laneInfo k)
  if k < 16 then
    match d.portOf k with
    | some p => if (d.portSt p).up then d.portLost p 1 else d
    | none => d
  else
  let d := d.modStitch fun x => { x with marks := x.marks.set (fun _ => {}) (k - 16) {} }
  if d.lane.stitch.state = .up then d.stitchGoDown (some 1) else d

/-- LANE_UNLOCK (R389). -/
def execLaneUnlock (lane : Nat) (s : State) : Host.Outcome State Fault Refusal :=
  s.run fun d => if lane < 24 ∧ (d.laneSt lane).locked then d.laneLost lane else d

/-- PORT_UP: the port's lanes are locked and it has been without fault for 10 ms (R378). -/
def execPortUp (port : Nat) (s : State) : Host.Outcome State Fault Refusal :=
  s.run fun d =>
    let x := d.portSt port
    let lanes := d.portSpan port
    if port ≥ 16 ∨ x.up ∨ !d.portAwake port 0 ∨ !(lanes.all fun n => (d.laneSt n).locked) then d else
    let from' := (lanes.map fun n => (d.laneSt n).since).foldl max x.since
    let d := (d.at (from' + msCycles 10)).modPort port fun x => { x with up := true, localFault := false, remoteFault := false }
    (if d.portAwake port 1 then d.emit (.remoteFault port false) else d).raiseAt .portUp ⟨.port, port⟩ port

/-- PORT_DOWN (R378). -/
def execPortDown (port why : Nat) (s : State) : Host.Outcome State Fault Refusal :=
  s.run fun d => if port < 16 ∧ (d.portSt port).up ∧ 1 ≤ why ∧ why ≤ 3 then d.portLost port why else d

/-- A lane direction has woken: a lane, a port or the stitch port that slept as a whole starts its counters, and fallback is reported
(R342, R382, R395). -/
def Dev.laneWoke (d : Dev) (k : Nat) (egress : Bool) : Dev :=
  let other := d.runs (laneUnit k (!egress))
  let awake := fun (l : List Nat) => other || l.any fun n => n != k && (d.runs (laneUnit n true) || d.runs (laneUnit n false))
  let d := if other then d else d.modLane k fun _ => {}
  let d := if k ≥ 16 then
      (if awake stitchLanes then d else d.modStitch fun x => { x with sohErrors := 0, bipViol := 0, downs := 0, discarded := 0 })
    else match d.portOf k with
    | some p => if awake (d.portSpan p) then d else (d.modPort p fun _ => {}).modStamps p fun _ => {}
    | none => d
  let d := d.laneEqualise k egress
  let d := match if k < 16 ∧ egress then d.portOf k else none with
    | some p => if d.sendsFault p then d.emit (.remoteFault p true) else d
    | none => d
  if d.fallback k egress then d.raiseAt .laneFallback (lanePatch k) (laneInfo k + 32 * b2n egress) else d

/-- A lane direction has gone to sleep: an ingress lane is out of lock, its port is down, and the stitch receiver is `DOWN`
(R378, R389). -/
def Dev.laneSlept (d : Dev) (k : Nat) (egress : Bool) : Dev :=
  if egress then d else
  let d := d.modLane k fun x => { x with locked := false }
  if k ≥ 16 then (d.modStitch fun x => { x with marks := x.marks.set (fun _ => {}) (k - 16) {} }).stitchGoDown none
  else match d.portOf k with
    | some p => if (d.portSt p).up then d.portLost p 1 else d
    | none => d

/-! ### Commands (R393 to R395) -/

/-- LANE.PORT_SET (R393). -/
def verbLanePortSet : Verb where
  code := 0x3001
  role := .operator
  len := 8
  params := [⟨0, 4, 4, .rsv⟩, ⟨1, 0, 3, .enum [0, 1, 2, 3, 4, 5]⟩, ⟨1, 3, 2, .enum [0, 1, 2]⟩, ⟨1, 5, 2, .enum [1, 2, 3]⟩,
    ⟨2, 0, 14, .range 64 16383⟩, ⟨2, 14, 2, .rsv⟩, ⟨4, 0, 32, .rsv⟩]

/-- The lanes of another port: those that it holds as committed, and those of every staged setting of it (R377, R393). -/
def Dev.heldLanes (d : Dev) (p : Nat) : List Nat :=
  ((List.range 16).filter (· != p)).flatMap fun q =>
    d.portSpan q ++ d.basting.flatMap fun e =>
      let val := fun (f : Fld) => (e.vals.find? fun v => v.fld == f && v.idx == q).map (·.val)
      match val .portEn, val .portSpeed, val .portRate with
      | some 1, some sp, some r => (List.range ((portLanes sp r).getD 0)).map (q + ·)
      | _, _, _ => []

/-- What refuses a port: pair and number, overlap, lanes asleep (R26, R377, R393). -/
def portSetCheck (c : Call) (d : Dev) : Option Status :=
  let p := c.p 0 0 4
  match portLanes (c.p 1 0 3) (c.p 1 3 2) with
  | none => some .badParameter
  | some l =>
    if p % l ≠ 0 then some .badParameter
    else if c.p 1 7 1 = 0 then none
    else
      let lanes := (List.range l).map (p + ·)
      let dirs := (if bit (c.p 1 5 2) 0 then [false] else []) ++ (if bit (c.p 1 5 2) 1 then [true] else [])
      firstOf [
        (lanes.any (d.heldLanes p).contains, .portOverlap),
        (lanes.any fun n => dirs.any fun e => d.lacks (laneUnit n e), .state)]

/-- The fields of `LANE.PORT_SET`, on the port. -/
def portSetVals (c : Call) (_ : Dev) : List FieldVal :=
  let p := c.p 0 0 4
  [fv .portEn p (c.p 1 7 1) 1, fv .portSpeed p (c.p 1 0 3) 3, fv .portRate p (c.p 1 3 2) 2, fv .portDir p (c.p 1 5 2) 2,
    fv .portMax p (c.p 2 0 14) 14]

/-- LANE_PORT_SET (R393). -/
def execLanePortSet (c : HostCall) (s : State) : Host.Outcome State Fault Refusal :=
  runVerb verbLanePortSet (stageAt (fun c => ⟨.port, c.p 0 0 4⟩) portSetCheck portSetVals) c s

/-- Host and stitch lanes as patches. -/
def laneKinds : List (PClass × Nat × Nat) := [(.hostLane, 0, 15), (.stitchLane, 0, 7)]

/-- The lane key of a call's instance. -/
def Call.lane (c : Call) (i : Nat) : Nat := if c.cls = .stitchLane then 16 + i else i

/-- LANE.EQ_SET (R394). -/
def verbLaneEqSet : Verb where
  code := 0x3002
  role := .operator
  len := 12
  groups := true
  params := [⟨0, 0, 32, .patch laneKinds⟩, ⟨4, 1, 7, .rsv⟩, ⟨5, 0, 8, .range 0 40⟩, ⟨6, 0, 8, .srange (-16) 0⟩, ⟨7, 0, 8, .srange (-32) 0⟩,
    ⟨8, 0, 8, .srange (-32) 0⟩, ⟨9, 0, 24, .rsv⟩]

/-- The meaning of `LANE.EQ_SET`. -/
def bodyLaneEqSet : Body := stageEach (fun _ _ _ => none) fun c _ i =>
  let k := c.lane i
  [fv .laneSrc k (c.p 4 0 1) 1, fv .laneCtle k (c.p 5 0 8) 8, fv .lanePre2 k (c.p 6 0 8) 8, fv .lanePre1 k (c.p 7 0 8) 8,
    fv .lanePost1 k (c.p 8 0 8) 8]

/-- LANE_EQ_SET (R394). -/
def execLaneEqSet (c : HostCall) (s : State) : Host.Outcome State Fault Refusal := runVerb verbLaneEqSet bodyLaneEqSet c s

/-- LANE.LOOPBACK (R395) (DESIGN CHOICE, assumption 216). -/
def verbLaneLoopback : Verb where
  code := 0x3003
  role := .operator
  len := 5
  groups := true
  params := [⟨0, 0, 32, .patch laneKinds⟩, ⟨4, 2, 6, .rsv⟩]

/-- Modes 1 and 3 need both directions of the lane (R26, R383) (DESIGN CHOICE, assumption 130). -/
def laneLoopCheck (c : Call) (d : Dev) (i : Nat) : Option Status :=
  let k := c.lane i
  if c.p 4 0 1 = 1 ∧ (d.lacks (laneUnit k false) ∨ d.lacks (laneUnit k true)) then some .state else none

/-- The meaning of `LANE.LOOPBACK`. -/
def bodyLaneLoopback : Body := stageEach laneLoopCheck fun c _ i => [fv .laneLoop (c.lane i) (c.p 4 0 2) 2]

/-- LANE_LOOPBACK (R383). -/
def execLaneLoopback (c : HostCall) (s : State) : Host.Outcome State Fault Refusal := runVerb verbLaneLoopback bodyLaneLoopback c s

/-- LANE.STITCH_SET (R395) (DESIGN CHOICE, assumption 216). -/
def verbLaneStitchSet : Verb where
  code := 0x3004
  role := .operator
  len := 4
  params := [⟨0, 1, 7, .rsv⟩, ⟨1, 0, 24, .rsv⟩]

/-- What refuses `LANE.STITCH_SET`: no sibling; `RELAY` 1 while a stitch-lane direction neither runs nor wakes (R26, R392). -/
def laneStitchSetCheck (c : Call) (d : Dev) : Option Status :=
  firstOf [(d.conf .stitchUse == 0, .state),
    (c.p 0 0 1 == 1 && (List.range 8).any fun n => d.lacks (.stIn n) || d.lacks (.stOut n), .state)]

/-- LANE_STITCH_SET (R26, R392), held on `st[0]` (R567). -/
def execLaneStitchSet (c : HostCall) (s : State) : Host.Outcome State Fault Refusal :=
  runVerb verbLaneStitchSet (stageOn ⟨.stitchLane, 0⟩ laneStitchSetCheck fun c _ =>
    [fv .stitchRelay 0 (c.p 0 0 1) 1]) c s

/-- LANE.STATUS (R395). -/
def verbLaneStatus : Verb where
  code := 0x3005
  role := .observer
  len := 4
  groups := true
  reads := true
  params := [⟨0, 0, 32, .patch laneKinds⟩]

/-- The result fields of a lane (R395) (DESIGN CHOICE, assumption 127, DESIGN CHOICE, assumption 130). -/
def laneFields (v : Dev) (k : Nat) : List RField :=
  let x := v.laneSt k
  [rf (.severe [0, 1]) 0 0 1 (b2n x.locked), rf (.severe [1, 0]) 0 1 1 (b2n (v.fallback k false || v.fallback k true)),
    rf .conf 0 2 2 (v.conf .laneLoop k), rf (.severe [1, 0]) 0 4 1 (b2n (!v.runs (laneUnit k false))),
    rf (.severe [1, 0]) 0 5 1 (b2n (!v.runs (laneUnit k true))), rf .conf 1 0 8 (v.ctle k), rf .minU 2 0 16 x.snr,
    rf .sum 4 0 32 x.losses, rf .sum 8 0 64 x.symbols, rf .sum 16 0 32 x.slips]

/-- The meaning of `LANE.STATUS`. -/
def bodyLaneStatus : Body := readEach 20 fun c v i =>
  let k := c.lane i
  if v.runs (laneUnit k false) || v.runs (laneUnit k true) then some (laneFields v k) else none

/-- LANE_STATUS (R395). -/
def execLaneStatus (c : HostCall) (s : State) : Host.Outcome State Fault Refusal := runVerb verbLaneStatus bodyLaneStatus c s

/-- LANE.PORT_STATUS (R395). -/
def verbLanePortStatus : Verb where
  code := 0x3006
  role := .observer
  len := 4
  groups := true
  reads := true
  params := [⟨0, 0, 32, .patch [(.port, 0, 15)]⟩]

/-- The result fields of a port (R395). -/
def portFields (x : PortSt) : List RField :=
  [rf (.severe [0, 1]) 0 0 1 (b2n x.up), rf (.severe [1, 0]) 0 1 1 (b2n x.localFault), rf (.severe [1, 0]) 0 2 1 (b2n x.remoteFault),
    rf .sum 4 0 64 x.rxFrames, rf .sum 12 0 64 x.rxBytes, rf .sum 20 0 64 x.txFrames, rf .sum 28 0 64 x.txBytes,
    rf .sum 36 0 64 x.corrected, rf .sum 44 0 32 x.uncorr, rf .sum 48 0 32 x.discards, rf .sum 52 0 32 x.downs]

/-- The meaning of `LANE.PORT_STATUS`; a port with no direction awake cannot be read. -/
def bodyLanePortStatus : Body := readEach 56 fun _ v p =>
  if (v.portSpan p).any fun n => v.runs (.hostIn n) || v.runs (.hostOut n) then some (portFields (v.portSt p)) else none

/-- LANE_PORT_STATUS (R395). -/
def execLanePortStatus (c : HostCall) (s : State) : Host.Outcome State Fault Refusal :=
  runVerb verbLanePortStatus bodyLanePortStatus c s

/-- LANE.STITCH_STATUS (R395). -/
def verbLaneStitchStatus : Verb where
  code := 0x3007
  role := .observer
  len := 0

/-- The code of a stitch receiver state (R395). -/
def StitchState.code : StitchState → Nat
  | .down => 0 | .aligning => 1 | .up => 2

/-- The results of `LANE.STITCH_STATUS` (R395). -/
def stitchStatus (v : Dev) : Res :=
  let x := v.lane.stitch
  res 24 [at' 0 0 2 x.state.code, at' 0 2 1 (b2n x.echo), at' 0 3 1 (v.conf .stitchRelay), at' 0 4 1 (b2n x.farBdi),
    at' 0 5 1 (b2n x.farLG), fieldAt 2 16 x.farNum, fieldAt 4 16 (x.txMap.map (·.2)).sum, fieldAt 6 16 x.skew,
    fieldAt 8 32 x.sohErrors, fieldAt 12 32 x.bipViol, fieldAt 16 32 x.downs, fieldAt 20 32 x.discarded]

/-- LANE_STITCH_STATUS (R395); with every stitch direction asleep it cannot be read. -/
def execLaneStitchStatus (c : HostCall) (s : State) : Host.Outcome State Fault Refusal :=
  runVerb verbLaneStitchStatus (onView fun _ v =>
    if (List.range 8).any fun n => v.runs (.stIn n) || v.runs (.stOut n) then .now .ok (stitchStatus v) else .now .state) c s

/-! ### What a commit does here (R382, R383, R387, R392, R393) -/

/-- A container takes the stream of a leaf's bursts (R292, R313). -/
def Dev.leafStream (d : Dev) (c : Nat) : Bool :=
  d.role == .hub && (d.listed .leafEn).any fun n => d.conf .leafEn n == 1 && d.conf .leafDed n == 0 && d.conf .leafCont n == c

/-- The slots of a receive container at the stitch port: a leaf's stream, which no slot map carries, has 17 (R232, R292) (DESIGN CHOICE, assumption 111). -/
def Dev.stitchK (d : Dev) (c : Nat) : Nat := if d.leafStream c then 17 else d.contK true c

/-- The stitch egress containers with their slots, in ascending `STITCH_ID` (R387): receive containers bound to the stitch port,
and stitch P members of transmit groups, W having so many slots. -/
def Dev.stitchEgress (d : Dev) (slots : Nat → Nat) : List (Nat × Nat) :=
  let bound := (d.listed .contBind).filterMap fun i =>
    if i % 2 = 1 ∧ d.conf .contBind i = 2 then some (d.conf .contStitch i, d.stitchK (i / 2)) else none
  let grp := d.txGroups.filterMap fun g =>
    if d.conf .grpStitch (grpIdx g false) = 1 then some (d.conf .grpP (grpIdx g false), slots (d.conf .grpW (grpIdx g false)))
    else none
  sortBy (fun a b => decide (a.1 ≤ b.1)) ((bound ++ grp).filter (·.2 != 0))

/-- Validation at a commit: ports that share a lane (R377), and too many stitch positions, by the slots in force and by those that the
commit's maps give (R387). -/
def validateLane (d new : Dev) (es : List Entry) : Option Status :=
  let touched := !(stagedAll es .contBind).isEmpty || !(stagedAll es .grpEn).isEmpty || !(stagedAll es .mapEntry).isEmpty
  let spans := (List.range 16).flatMap new.portSpan
  firstOf [
    (!(stagedAll es .portEn).isEmpty && spans.length != spans.eraseDups.length, .portOverlap),
    (touched && decide (((new.stitchEgress fun c => max (d.contK false c) (d.lineK es false c)).map (·.2)).sum > 320), .stitchFull)]

/-- The egress map follows the containers; one whose slots change is removed and added again (R387). -/
def Dev.stitchRemap (d : Dev) : Dev :=
  let m := d.stitchEgress (d.contK false)
  let old := d.lane.stitch.txMap
  if m = old then d else
  let changed := (m.filter fun e => old.any fun o => o.1 == e.1 && o.2 != e.2).map (·.1)
  let d := ((d.listed .contBind).filter fun i => i % 2 = 1 ∧ d.conf .contBind i = 2 ∧ changed.contains (d.conf .contStitch i)).foldl
    (fun d i => d.modCont (i / 2) true fun x => { x with relay := [], relaying := false }) d
  d.modStitch fun x => { x with txMap := m }

/-- What a commit's lane fields do: a port set or deleted starts afresh, a loopback starts empty, and changed equalisation comes into force
(R382, R383, R393). -/
def Dev.laneCommit (d old : Dev) (es : List Entry) : Dev :=
  let d := (stagedAll es .portEn).foldl (fun d e =>
    if d.portSpan e.1 = old.portSpan e.1 ∧ d.conf .portRate e.1 = old.conf .portRate e.1 ∧
        d.conf .portSpeed e.1 = old.conf .portSpeed e.1 ∧ d.conf .portDir e.1 = old.conf .portDir e.1 then d
    else
      let d := (d.modPort e.1 fun _ => { since := d.now }).modStamps e.1 fun _ => {}
      if d.sendsFault e.1 then d.emit (.remoteFault e.1 true)
      else if old.sendsFault e.1 then d.emit (.remoteFault e.1 false) else d) d
  let loops := (stagedAll es .laneLoop).map (·.1)
  let d := (List.range 16).foldl (fun d p =>
    if (d.portSpan p).any loops.contains then d.modPort p fun x => { x with looped := [] } else d) d
  let rates := (List.range 16).filter fun n => d.laneRate n != old.laneRate n
  let d := ((stagedAll es .laneSrc).map (·.1) ++ rates).eraseDups.foldl (fun d k => (d.laneEqualise k false).laneEqualise k true) d
  d.stitchRemap

/-! ### The boundary clock (R366) -/

/-- `clockClass` of the output (R366) (DESIGN CHOICE, assumption 126). -/
def Dev.clockClass (d : Dev) : Nat :=
  let q := d.outQlNow
  if q = 1 ∨ q = 2 then 6 else if d.ref.sync = .holdover then 7 else 248

/-- The ports of the boundary clock. -/
def Dev.ptpPorts (d : Dev) : List Nat := (maskBits 16 (d.conf .ptpMask)).filter d.portServes

/-- The boundary clock sends a message on a port. -/
def Dev.ptpSend (d : Dev) (p type : Nat) (t : Option Int) : Dev :=
  d.emit (.ptp p type (d.conf .ptpDomain) (d.conf .ptpMcast) d.clockClass (d.conf .ptpPrio2) t)

/-- An event message leaves now, stamped at the balls (R327, R366) (DESIGN CHOICE, assumption 226). -/
def Dev.ptpEvent (d : Dev) (p type : Nat) : Dev :=
  ((d.modStamps p fun x => { x with tx := (x.tx + 1) % 2 ^ 32 }).count (.port p) 8).ptpSend p type
    (some (d.time16 + ps16 (signed 32 (d.conf .portTxDelay p))))

/-- A message of the domain that the firmware takes: a port in the master state answers a Delay_Req, and an Announce at the port in the slave
state with a grandmaster of `clockClass` 248 or 255 fails the `PTP` reference (R347, R366, R413) (PRESUMED, assumption 226). -/
def Dev.ptpMessage (d : Dev) (p : Nat) (m : List Byte) : Dev :=
  let at' := fun k => (m.getD k 0).toNat
  if d.conf .ptpEn = 0 ∨ !d.ptpPorts.contains p ∨ at' 4 ≠ d.conf .ptpDomain then d
  else if at' 0 % 16 = 1 ∧ d.ref.ptpSlave ≠ some p then d.ptpSend p 9 none
  else if at' 0 % 16 = 0xB ∧ d.ref.ptpSlave = some p ∧ (at' 48 = 248 ∨ at' 48 = 255) then d.refFail 4 5
  else d

/-- The firmware takes every packet of the controller intake, PTP messages over Ethernet from a host port among them (R366, R413)
(DESIGN CHOICE, assumption 226). -/
def Dev.ptpTake (d : Dev) : Dev :=
  let l := d.pkt.ctrlIn
  if l.isEmpty then d else
  l.foldl (fun d e => match e.1 with
    | some p => if slice e.2 12 2 = [0x88, 0xF7] then d.ptpMessage p (e.2.drop 14) else d
    | none => d) { d with pkt := { d.pkt with ctrlIn := [] } }

/-- PTP_MESSAGE_INTERVAL: every 1/16 s the port in the slave state sends Delay_Req and the others Sync, and every 1/8 s these send
Announce; event messages are stamped (R366). -/
def execPtpMessageInterval (slave : Option Nat) (s : State) : Host.Outcome State Fault Refusal :=
  s.run fun d =>
    if d.conf .ptpEn = 0 then d else
    let d := d.at d.ref.ptpAt
    let ann := d.ref.ptpAnnounce
    let d := d.modRef fun x => { x with ptpAt := d.now + 1562500, ptpAnnounce := !ann, ptpSlave := slave }
    (d.ptpPorts).foldl (fun d p =>
      if slave = some p then d.ptpEvent p 1
      else let d := d.ptpEvent p 0; if ann then d.ptpSend p 0xB none else d) d.ptpTake

/-- The firmware takes what waits in the controller intake: every millisecond, whatever the boundary clock does (R413) (DESIGN CHOICE, assumption 226). -/
def execSelectionEvaluation (m : RefMeas) (s : State) : Host.Outcome State Fault Refusal :=
  s.run fun d => d.ptpTake.selectionEvaluation m

end Sys2Proof.Machine
end

