-- ==== Sys2Proof/Machine/Sleep.lean ====
section
/-! DEFINITION. Receive boundaries of a commit, the end of leave requests that are not granted, and the sleep of units (R73, R75,
R480, R482, R484, R487). -/

namespace Sys2Proof.Machine

/-! ### Receive boundaries (R73) -/

/-- The receive patches of a subcarrier: the fields that apply at its receive frame boundary (R73, R177, R209, R241). -/
def rxFields : List Fld :=
  [.sopMode, .convMinSnr, .sopAlarm, .fecFast, .sdMant, .sdExp, .awThresh, .pilotThresh, .lossCount, .timMode, .timAct, .expLabel,
   .ttiExp]

/-- The subcarriers whose receive patches some entries change. -/
def rxScs (es : List Entry) : List Nat := (rxFields.flatMap fun f => (stagedAll es f).map (·.1)).eraseDups

/-- The receive patches of subcarrier n of a commit apply (R73, R209) (DESIGN CHOICE, assumption 45). -/
def Dev.rxApply (d : Dev) (es : List Entry) (n : Nat) : Dev :=
  let fast := d.conf .fecFast n
  let d := rxFields.foldl (fun d f => match staged? es f n with
    | some v => d.setConf f n v
    | none => d) d
  if d.runs (.sc n) ∧ d.conf .fecFast n ≠ fast then d.fecFastChange n (d.conf .fecFast n == 1) else d

/-- A part-way commit reaches the receive frame boundary of subcarrier n (R73, R75, R171) (DESIGN CHOICE, assumption 45). -/
def Dev.rxReach (d : Dev) (c : PCommit) (n : Nat) : Dev :=
  match c.phase with
  | .partway rx tx =>
    if !rx.contains n then d else
    let d := d.rxApply c.entries n
    let d := if d.line.clsWait = some n ∧ (staged? c.entries .cdClass 0).isSome then d.cdSwitch else d
    d.commitProgress c.id (rx.filter (· != n)) tx
  | _ => d

/-- Every part-way commit reaches the boundary of subcarrier n. -/
def Dev.rxReachAll (d : Dev) (n : Nat) : Dev := d.cfg.commits.foldl (fun d c => d.rxReach c n) d

/-! ### Requests that end ungranted (R480, R484) -/

/-- OTP programming ends with a status (R530). -/
def Dev.otpOver (d : Dev) (st : Status) : Dev :=
  match d.otp.prog with
  | none => d
  | some p =>
    let d := (d.withdraw .otp).giveBack .otp
    ({ d with otp := { d.otp with prog := none } }).endOp p.slot p.serial p.seq st

/-- A queued request ends with a status, and with it the operation that made it (R484). -/
def Dev.leaveLost (d : Dev) (op : LeaveOp) (st : Status) : Dev :=
  match op with
  | .wake u => d.failWake u st
  | .calibration =>
    match d.conv.run with
    | none => d.withdraw op
    | some r =>
      let d := if r.kind = .auto ∧ st = .noLeave then (d.modConv fun v => { v with calRef := d.convTemp }).raiseConv .calNoLeave 0 0 else d
      d.calOver r st false
  | .scrub m => (d.withdraw op).modMemSt m fun s => { s with waiting := false, refused := st == .noLeave }
  | .fill => d.fillOver st
  | .rekey id =>
    let d := d.withdraw op
    match d.crypt.bulks.find? (·.id == id) with
    | none => d
    | some b => (d.modCrypt fun c => { c with bulks := c.bulks.filter (·.id != id) }).endOp b.slot b.serial b.seq st
  | .otp => d.otpOver st

/-- A new budget applies: each waiting request larger than it ends with `NO_LEAVE` (R480) (DESIGN CHOICE, assumption 42). -/
def Dev.budgetCut (d : Dev) : Dev :=
  (d.power.queue.filter (·.mw > d.budget)).foldl (fun d r =>
    ((d.modPower fun p => { p with refusals := (p.refusals + 1) % 2 ^ 32 }).raiseAt .leaveRefused ⟨.power, 0⟩
      (sat 16 (r.mw / 10))).leaveLost r.op .noLeave) d

/-! ### Sleep -/

/-- What a unit loses as it stops (R17, R19). -/
def Dev.stopped (d : Dev) (u : PowerUnit) : Dev :=
  match u with
  | .core => (((d.calCutShort .calCut).modConv ConvSt.slept).lineSlept).captCut
  | .wb n =>
    let d := d.lineSlept
    if d.mon.capt.any fun r => r.quarter == n then d.captCut else d
  | .sc n =>
    let d := (((d.loadDrop n .loadCut).eqGo n .off).endFacility n 2).setConf .inject n 0
    d.rxReachAll n
  | .hbm m =>
    let d := d.hbmSlept m
    if d.runs (.hbm 0) ∨ d.runs (.hbm 1) then d else
    d.modOver fun o => { o with groups := o.groups.mapVals (fun _ => {}) fun x => { x with w := [], p := [] } }
  | .hostIn n => d.laneSlept n false
  | .hostOut n => d.laneSlept n true
  | .stIn n => d.laneSlept (16 + n) false
  | .stOut n => d.laneSlept (16 + n) true
  | .lem => d.modHub fun h => { h with lem := [] }
  | .capt => d.captCut
  | _ => d

/-- A running unit stops: its current ramps down, and the last TC-family unit stops the system PLL with it (R482, R483, R485) (DESIGN CHOICE, assumption 47). -/
def Dev.sleepUnit (d : Dev) (u : PowerUnit) : Dev :=
  if !d.runs u then d else
  let d := (d.foldCycles.ramp u).setUnit u {}
  let d := d.stopped u
  if PowerUnit.all.all fun x => x == .pll || d.asleep x then d.foldCycles.foldTc.setUnit .pll {} else d

/-- Several units stop. -/
def Dev.sleepUnits (d : Dev) (l : List PowerUnit) : Dev := l.foldl Dev.sleepUnit d

/-- THERMAL_SHUTDOWN: in `HOT`, 1 ms at Tmax + 10 °C or above, every unit outside the DORMANT column stops in the reverse of the wake
order, wakes in progress or waiting end, and the state is `SHUTDOWN` (R487) (DESIGN CHOICE, assumption 41). -/
def Dev.thermalShutdown (d : Dev) : Dev :=
  match d.power.overSince with
  | none => d
  | some t =>
    if d.power.thermal ≠ .hot then d else
    let d := d.at (t + msCycles 1)
    let d := d.modPower fun p => { p with thermal := .shutdown, overSince := none }
    let d := d.raiseAt .tjShutdown ⟨.power, 0⟩ (unsigned 16 d.power.tj)
    let d := (PowerUnit.all.filter d.waking).foldl (fun d u =>
      (if u = .core then d.calCutShort .calCut else d).failWake u .powerThermal) d
    d.sleepUnits PowerUnit.all.reverse

/-- THERMAL_SHUTDOWN (R487). -/
def execThermalShutdown (s : State) : Host.Outcome State Fault Refusal := s.run Dev.thermalShutdown

end Sys2Proof.Machine
end

