-- ==== Sys2Proof/Machine/Wake.lean ====
section
/-! DEFINITION. Grants of leave, the end of wakes, and the thermal readings (R121, R482 to R484, R487). -/

namespace Sys2Proof.Machine

/-! ### Grants (R483, R484) -/

/-- What a granted operation does first (R482 to R484). -/
def Dev.granted (d : Dev) (op : LeaveOp) : Dev :=
  match op with
  | .wake u => (d.setUnit u { (d.unit u) with phase := .granted, since := d.now }).startReady
  | .calibration => d.calStart
  | .scrub m => d.burstAdd m 4
  | .fill => d.fillStart
  | .rekey id => d.bulkStart id
  | .otp => { d with otp := { d.otp with prog := d.otp.prog.map fun p => { p with started := some d.now } } }

/-- LEAVE_GRANT: the head request is granted when it fits (R484) (DESIGN CHOICE, assumption 38). -/
def Dev.leaveGrant (d : Dev) : Dev :=
  match d.grantable with
  | none => d
  | some r => (d.grant r).granted r.op

/-- LEAVE_GRANT (R484). -/
def execLeaveGrant (s : State) : Host.Outcome State Fault Refusal := s.run Dev.leaveGrant

/-! ### The end of a wake (R482, R483) -/

/-- A subcarrier tile's state at its wake (R148, R190, R225, R260, R270). -/
def Dev.scUp (d : Dev) (n : Nat) : Dev :=
  let d := (d.scWoke n).modSec n fun _ => { pm := d.newPm }
  let d := d.modFr n fun f => { f with outSince := d.now }
  (d.setConf .ttiTx n 0).setConf .ttiExp n 0

/-- What follows once a unit's own wake time is over. -/
def Dev.woke (d : Dev) (u : PowerUnit) : Dev :=
  match u with
  | .pll => (d.wakeDone .pll).startReady
  | .core => ((d.frontEndDefaults.modLine fun l => { l with corrections := 0 }).coreWaked).lineWoke
  | .wb n => ((d.wbWoke n).wakeDone u).lineWoke
  | .sc n => (d.scUp n).wakeDone u
  | .hbm m => (d.hbmWoke m).wakeDone u
  | .lem => d.lemWoke.wakeDone u
  | .hostIn n => (d.wakeDone u).laneWoke n false
  | .hostOut n => (d.wakeDone u).laneWoke n true
  | .stIn n => (d.wakeDone u).laneWoke (16 + n) false
  | .stOut n => (d.wakeDone u).laneWoke (16 + n) true
  | .capt => d.captWoke.wakeDone u
  | u => d.wakeDone u

/-- WAKE_END: a started wake is over; the core's then goes on with its initial calibration where no set exists (R123, R482, R483,
R560) (DESIGN CHOICE, assumption 39). -/
def Dev.wakeEnd (d : Dev) (u : PowerUnit) (r : WakeResult) : Dev :=
  if (d.unit u).phase ≠ .starting ∨ (u = .core ∧ d.calInitial) then d else
  let d := d.at ((d.unit u).since + u.holdFor d.power.coreFull)
  match r with
  | .running => d.woke u
  | .failed => d.failWake u .hardwareFault

/-- WAKE_END (R482, R483). -/
def execWakeEnd (u : PowerUnit) (r : WakeResult) (s : State) : Host.Outcome State Fault Refusal := s.run fun d => d.wakeEnd u r

/-- CAL_RUN_END: the run's comparison; a core whose wake it ends joins the line (R118, R119, R123, R189). -/
def execCalRunEnd (m : CalMeas) (s : State) : Host.Outcome State Fault Refusal := s.run fun d => (d.calRunEnd m).lineWoke

/-! ### Thermal readings (R487, R504, R506) -/

/-- THERMAL_READING: the eight sensors, once per millisecond, in 0.01 °C (R121, R360, R487, R506). -/
def execThermalReading (temps : List Int) (s : State) : Host.Outcome State Fault Refusal :=
  s.run fun d =>
    if !d.fwRuns ∨ temps.length ≠ 8 then d else
    ((((d.thermalReading temps).count .dev 8).recalcTemp).dieTemp temps)

/-- OSC_TEMP_READING: 16 conversions of the thermistor's divider, averaged and converted with its `NTC_R25` and `NTC_BETA`, once per second
(R360, R506) (PRESUMED, assumption 213). -/
def execOscTempReading (codes : List Nat) (s : State) : Host.Outcome State Fault Refusal :=
  s.run fun d => if d.conf .hoTherm = 0 then (d.count .dev 8).oscTemp (ntcTemp (d.conf .ntcBeta 0) (d.conf .ntcR25 0) codes.sum) else d

end Sys2Proof.Machine
end

