-- ==== Sys2Proof/Machine/Boot.lean ====
section
/-! DEFINITION. Start-up, the firmware image, resets, OTP and the power-fail warning (R519 to R536). -/

namespace Sys2Proof.Machine

/-! ### OTP programming (R530, R532, R533) -/

/-- AC cycles that one OTP bit takes: 0.55 ms (R530). -/
def otpBitCycles : Nat := 13750

/-- The bytes that a programming writes. -/
def OtpProg.bytes (p : OtpProg) : List Byte := otpGeneration p.payload

/-- The first bit of the generation that a programming writes. -/
def OtpProg.firstBit (p : OtpProg) : Nat := let x := otpRegion p.region; 8 * (x.off + p.gen * x.size)

/-- The first n bits of a generation are written; one that is not whole is left torn: its next bit does not read clearly. -/
def OtpSt.write (o : OtpSt) (p : OtpProg) (n : Nat) : OtpSt :=
  let b := p.bytes
  let at' := p.firstBit / 8
  let kept := (b.take (n / 8)) ++ (if n % 8 = 0 then [] else [BitVec.ofNat 8 ((b.getD (n / 8) 0).toNat % 2 ^ (n % 8))])
  let bytes := (List.range kept.length).foldl (fun (t : Tab Byte) k => t.set (fun _ => 0) (at' + k) (kept.getD k 0)) o.bytes
  { o with bytes := bytes, unclear := if n < 8 * b.length then o.unclear ++ [p.firstBit + n] else o.unclear }

/-- Bits whose writing has ended at a counter value, and those whose writing has begun. -/
def OtpProg.bits (p : OtpProg) (now : Nat) : Nat × Nat :=
  match p.started with
  | none => (0, 0)
  | some t => (min (8 * p.bytes.length) ((now - t) / otpBitCycles), min (8 * p.bytes.length) (ceilDiv (now - t) otpBitCycles))

/-- A reset or a loss of power ends a programming: what was written stays (R532) (DESIGN CHOICE, assumption 50). -/
def OtpSt.cut (o : OtpSt) (now : Nat) : OtpSt :=
  match o.prog with
  | none => o
  | some p =>
    let o := { o with prog := none }
    if p.stopped ∨ p.started.isNone then o else o.write p (p.bits now).1

/-- Change OTP. -/
def Dev.modOtp (d : Dev) (f : OtpSt → OtpSt) : Dev := { d with otp := f d.otp }

/-- The power-fail warning stops a programming after the bit in progress; it never begins a commit word (R533) (DESIGN CHOICE, assumption 50). -/
def Dev.otpStop (d : Dev) : Dev :=
  match d.otp.prog with
  | none => d
  | some p =>
    if p.stopped ∨ p.started.isNone then d else
    let n := (p.bits d.now).2
    if n = 8 * p.bytes.length then d
    else d.modOtp fun o => { o.write p n with prog := some { p with stopped := true } }

/-- OTP.PROGRAM (R530). -/
def verbOtpProgram : Verb where
  code := 0x5001
  role := .privileged
  len := 1
  ext := .always
  params := [⟨16, 0, 8, .enum [0, 1, 2, 3, 4, 5, 6]⟩]
  codes := fun c => c.extLen != (otpRegion (c.p 16 0 8)).payload
  ranges := fun c => c.p 16 0 8 == 5 && decide (leNat (c.bytes.take 4) < 1000 ∨ 120000 < leNat (c.bytes.take 4))

/-- The lowest blank generation of a region: they are written in order (R527) (DESIGN CHOICE, assumption 51). -/
def OtpSt.nextBlank (o : OtpSt) (r : Nat) : Option Nat := (List.range (otpRegion r).gens).find? (o.blank r)

/-- Start a programming: it asks for 250 mW of leave. -/
def otpProgram (c : Call) (d : Dev) : Ans × Dev :=
  let r := c.p 16 0 8
  match firstOf [
      (r == 0 || (d.otp.secure && (r == 1 || r == 3)), .denied),
      (d.otp.prog.isSome, .state)] with
  | some st => (.now st, d)
  | none =>
    match d.otp.nextBlank r with
    | none => (.now .otpExhausted, d)
    | some g =>
      let q := d.request .otp 250
      if !q.1 then (.ended .noLeave, q.2) else
      let p : OtpProg := ⟨r, g, c.bytes, c.slot, (d.slot c.slot).serial, c.seq, none, false⟩
      (.accept, q.2.modOtp fun o => { o with prog := some p })

/-- OTP_PROGRAM (R529, R530). -/
def execOtpProgram (c : HostCall) (s : State) : Host.Outcome State Fault Refusal := runVerb verbOtpProgram (onDev otpProgram) c s

/-- OTP_PROGRAM_END: the generation is written, or the programming fails: no `VPP_OTP`, `VPP_OTP` lost after so many bits, or a read-back
that differs before the commit word (R530). -/
def Dev.otpEnd (d : Dev) (e : OtpEnd) : Dev :=
  match d.otp.prog with
  | none => d
  | some p => match p.started with
    | none => d
    | some t =>
      if p.stopped then d else
      let total := 8 * p.bytes.length
      match e with
      | .noVpp => d.otpOver .otpNoVpp
      | .leftVpp n =>
        let n := min n (total - 1)
        ((d.at (t + n * otpBitCycles)).modOtp fun o => o.write p n).otpOver .otpNoVpp
      | .verify => ((d.at (t + (total - 32) * otpBitCycles)).modOtp fun o => o.write p (total - 32)).otpOver .otpVerify
      | .done =>
        let d := ((d.at (t + total * otpBitCycles)).modOtp fun o => o.write p total).raiseAt .otpProgrammed ⟨.device, 0⟩
          (p.region + 16 * p.gen)
        let d := if (d.otp.nextBlank p.region).isNone then d.raiseAt .otpSpareLow ⟨.device, 0⟩ p.region else d
        d.otpOver .ok

/-- OTP_PROGRAM_END (R530). -/
def execOtpProgramEnd (e : OtpEnd) (s : State) : Host.Outcome State Fault Refusal := s.run fun d => d.otpEnd e

/-! ### OTP and firmware reads (R531) -/

/-- OTP.STATUS (R531). -/
def verbOtpStatus : Verb where
  code := 0x5002
  role := .observer
  len := 0

/-- A mask of a region's generations. -/
def genMask (p : Nat → Bool) : Nat := (List.range 4).foldl (fun m g => m + b2n (p g) * 2 ^ g) 0

/-- The four bytes of a region in `OTP.STATUS` (R531) (DESIGN CHOICE, assumption 51). -/
def otpStatusFields (o : OtpSt) (r : Nat) : List Bf :=
  let k := 4 * (r - 1)
  let writing := o.prog.any (·.region == r)
  [at' k 0 2 ((o.force r).getD 3), at' k 7 1 (b2n (o.force r).isNone),
    fieldAt (k + 1) 8 (genMask fun g => !o.blank r g || o.prog.any fun p => p.region == r && p.gen == g && p.started.isSome),
    fieldAt (k + 2) 8 (genMask (o.isTorn r)), at' (k + 3) 0 1 (b2n (match o.choose r, o.force r with
      | some g, some f => decide (f < g)
      | some _, none => true
      | none, _ => false)),
    at' (k + 3) 1 1 (b2n writing)]

/-- OTP_STATUS (R531). -/
def execOtpStatus (c : HostCall) (s : State) : Host.Outcome State Fault Refusal :=
  runVerb verbOtpStatus (onView fun _ v => .now .ok (res 24 ((List.range 6).flatMap fun i => otpStatusFields v.otp (i + 1)))) c s

/-- OTP.READ (R531). -/
def verbOtpRead : Verb where
  code := 0x5003
  role := .privileged
  len := 1
  ext := .always
  params := [⟨16, 0, 8, .enum [0, 1, 2, 3, 4, 5, 6]⟩]
  codes := fun c => c.extLen != (otpRegion (c.p 16 0 8)).payload

/-- OTP_READ (R531). -/
def execOtpRead (c : HostCall) (s : State) : Host.Outcome State Fault Refusal :=
  runVerb verbOtpRead (onView fun c v =>
    let r := c.p 16 0 8
    if r = 1 then .now .denied
    else match v.otp.inForcePayload r with
      | some b => .wrote b
      | none => .now .state) c s

/-- FW.INFO (R531). -/
def verbFwInfo : Verb where
  code := 0x5102
  role := .observer
  len := 0

/-- FW_INFO (R531): the hash is given as a byte string. -/
def execFwInfo (c : HostCall) (s : State) : Host.Outcome State Fault Refusal :=
  runVerb verbFwInfo (onView fun _ v =>
    .now .ok (res 37 [fieldAt 0 32 v.boot.fwVersion, fieldAt 4 256 (leNat (sha256 v.boot.image)), fieldAt 36 8 v.boot.hashEntry])) c s

/-! ### The image (R523, R524) -/

/-- FW.LOAD (R523). -/
def verbFwLoad : Verb where
  code := 0x5101
  role := .none
  len := 8
  lens := (List.range 48).map (· + 9)
  ext := .either
  shift := true
  params := [⟨4, 1, 7, .rsv⟩, ⟨5, 0, 24, .rsv⟩]
  codes := fun c =>
    let n := Item.field c.item 6 0 16
    if c.ext then n != 8 else n == 8 && c.p 4 0 1 == 0

/-- The largest image (R523). -/
def fwMax : Nat := 3145728

/-- Change the boot state. -/
def Dev.modBoot (d : Dev) (f : BootSt → BootSt) : Dev := { d with boot := f d.boot }

/-- One chunk of the image; the last starts the check (R523). -/
def fwLoad (c : Call) (d : Dev) : Ans × Dev :=
  let len := Item.field c.item 6 0 16
  let last := c.p 4 0 1 == 1
  let data := if c.ext then c.bytes else c.inline 8 (len - 8)
  match firstOf [
      (c.p 0 0 32 != d.boot.image.length, .badParameter),
      (decide (d.boot.image.length + data.length > fwMax), .outOfRange)] with
  | some st => (.now st, d)
  | none =>
    let d := d.modBoot fun b => { b with image := b.image ++ data }
    if last then (.wait .fwCheck, d.setStage 1) else (.now .ok, d)

/-- FW_LOAD (R523): served while the boot ROM runs; after that it gives `STATE`. -/
def execFwLoad (c : HostCall) (s : State) : Host.Outcome State Fault Refusal := runVerb verbFwLoad (onDev fwLoad) c s

/-- The entry of the firmware-hash generation in force that equals an image's hash; all-zero entries are unused (R524, R528). -/
def OtpSt.hashMatch (o : OtpSt) (image : List Byte) : Option Nat :=
  (o.inForcePayload 4).bind fun p =>
    let h := sha256 image
    (List.range 4).find? fun i => slice p (32 * i) 32 == h && h.any (· != 0)

/-- The check of an image: its failing status, none where it passes (R524). -/
def fwCheck (o : OtpSt) (b : List Byte) : Option Status :=
  let n := b.length
  let word := fun k => leNat (slice b k 4)
  firstOf [
    (decide (n < 4160 ∨ fwMax < n) || leNat (slice b 0 2) != 1 || word 8 != n || word 4 == 0 || word 12 != crc32 (b.drop 64), .fwCorrupt),
    (o.fwCheck && (o.hashMatch b).isNone, .fwRejected),
    (decide (word 4 < o.fwMin), .fwRollback)]

/-- Firmware starts in DORMANT with the role unset: slot 0 is free, the time loop follows S, and the start and each torn generation are
reported (R522, R523, R525, R527) (DESIGN CHOICE, assumption 49). -/
def Dev.fwStart (d : Dev) : Dev :=
  let d := d.freeSlot 0
  let d := d.modBoot fun b => { b with
    fwVersion := leNat (slice b.image 4 4), hashEntry := if d.otp.fwCheck then (d.otp.hashMatch b.image).getD 0xFF else 0xFF,
    startCount := d.now }
  let d := ((d.setStage 2).modRef fun x => { x with sAt := d.now, evalAt := d.now + 25000, swept := d.time16 }).steer
  let d := d.raiseAt .boot ⟨.device, 0⟩ d.boot.cause.code
  d.otp.torn.foldl (fun d t => d.raiseAt .otpTorn ⟨.device, 0⟩ t.1) d

/-- IMAGE_CHECK_END: firmware starts; or the image is discarded, the chunk that ended it answered, and `STAGE` returns to 0 (R523 to
R525) (DESIGN CHOICE, assumption 33). -/
def Dev.imageCheckEnd (d : Dev) : Dev :=
  if d.boot.stage ≠ 1 then d else
  match fwCheck d.otp d.boot.image with
  | none => d.fwStart
  | some st =>
    let d := (d.modBoot fun b => { b with
      image := [], cause := if b.cause = .warmKept then .warmLoaded else b.cause }).setStage 0
    (if (d.slot 0).taken.any (·.why == .fwCheck) then d.answer 0 st else d).settle 256

/-- IMAGE_CHECK_END (R524). -/
def execImageCheckEnd (s : State) : Host.Outcome State Fault Refusal := s.run Dev.imageCheckEnd

/-! ### Cold and warm resets (R520, R522, R525, R532, R534) -/

/-- The device while `POR_N` is low: OTP alone is left, and what its sensors measure. -/
def Dev.cold (d : Dev) : Dev :=
  let o := d.otp.cut d.now
  { free := d.free, otp := { bytes := o.bytes, unclear := o.unclear }, power := { tj := d.power.tj, sensors := d.power.sensors } }

/-- The device after a warm reset: what R525 keeps (DESIGN CHOICE, assumption 53, DESIGN CHOICE, assumption 54). -/
def Dev.warm (d : Dev) (keep : Bool) (cause : ResetCause) : Dev :=
  let t := d.time
  { now := d.now, boundary := d.boundary, free := d.free, out := d.out,
    ctl := { pcie := d.ctl.pcie, serial := d.ctl.serial },
    power := { tj := d.power.tj, sensors := d.power.sensors },
    boot := { held := false, stage := if keep then 1 else 0, image := if keep then d.boot.image else [], cause := cause,
              warm := (d.boot.warm + 1) % 2 ^ 16, pfail := d.boot.pfail, tap := d.boot.tap },
    otp := d.otp.cut d.now,
    mon := { last := d.now, lastNo := d.frameNo d.now, dumpFrom := d.frameNo d.now, cycTc := d.tcNow, cycAt := d.now, hkFrom := d.now },
    time := { anchorCnt := t.anchorCnt, anchorCfr := t.anchorCfr, anchorT := t.anchorT, rate := t.rate, established := t.established, tcBase := (d.tcTotal d.now).toNat, tcAt := d.now },
    mem := { mems := (List.range 10).foldl (fun t m => t.set (fun _ => {}) m { passFrom := d.now }) [] },
    ref := { sAt := d.now, evalAt := d.now + 25000, swept := d.time16 },
    crypt := { alarm := d.crypt.alarm, seen := d.crypt.seen, live := d.crypt.live, keks := d.crypt.keks } }

/-- A whole-device reset: views and snapshots are lost with the sessions (R76, R525). -/
def State.afterReset (s : State) (d : Dev) : State := { pending := s.pending, dev := d, snap := { d with out := [] }, pins := [] }

/-- POR_ASSERT (R520, R534). -/
def execPorAssert (s : State) : Host.Outcome State Fault Refusal :=
  if s.dev.boot.held then .next { s with dev := { s.dev with out := [] } } else .next (s.afterReset s.dev.cold)

/-- Steps 1 to 4 of the boot: the counter from 0, OTP at strict margin, the key-encryption keys, PCIe; `STAGE` 3 where the identity or the
controller memory fails (R522, R527) (DESIGN CHOICE, assumption 33). -/
def Dev.bootUp (d : Dev) (selfTest : Bool) : Dev :=
  let o := d.otp
  let ok := o.identityOk
  let torn := (List.range 7).flatMap fun r => ((List.range (otpRegion r).gens).filter (o.isTorn r)).map fun g => (r, g)
  let force := (List.range 7).map fun r => if r = 0 then (if ok then some 0 else none) else o.choose r
  let d := { d with
    now := 0
    boot := { held := false, stage := if ok && selfTest then 0 else 3 }
    otp := { o with inForce := force, torn := torn }
    ctl := { d.ctl with pcie := if ok && selfTest then .training else .down } }
  if ok then d.deriveKeks else d

/-- POR_RELEASE: `selfTest` says whether controller memory passes its self-test (R522). -/
def execPorRelease (selfTest : Bool) (s : State) : Host.Outcome State Fault Refusal :=
  if s.dev.boot.held then .next (s.afterReset (s.dev.bootUp selfTest)) else .next { s with dev := { s.dev with out := [] } }

/-- A warm reset as a step (R525) (DESIGN CHOICE, assumption 54). -/
def State.warmReset (s : State) (at' : Nat) (keep : Bool) (cause : ResetCause) : State :=
  s.afterReset ((s.dev.at at').warm keep cause)

/-- DEVICE_RESET_START: 1 ms after its `SYS.RESET` (R525, R526). -/
def execDeviceResetStart (s : State) : Host.Outcome State Fault Refusal :=
  s.runAll fun s =>
    match s.dev.boot.resetAt with
    | some (t, keep) => s.warmReset t keep (if keep then .warmKept else .warmLoaded)
    | none => s

/-- WATCHDOG_RESET: firmware was silent for 100 ms (R525). -/
def execWatchdogReset (s : State) : Host.Outcome State Fault Refusal :=
  s.runAll fun s => if s.dev.fwRuns then s.warmReset s.dev.now true .watchdog else s

/-- CONTROLLER_MEMORY_FAULT: a partial image is lost (R525, R532). -/
def execControllerMemoryFault (s : State) : Host.Outcome State Fault Refusal :=
  s.runAll fun s => s.warmReset s.dev.now (s.dev.boot.stage != 0) .memory

/-- SCRUB_BURST_END: an uncorrectable word that the scrubber meets in controller memory resets the device (R440, R441, R525). -/
def execScrubBurstEnd (mem : Nat) (hits : List MemHit) (s : State) : Host.Outcome State Fault Refusal :=
  s.runAll fun s =>
    let t := { s with dev := s.dev.scrubEnd mem hits }
    let lost := decide (mem = 9) && s.dev.conf .scrubEn 9 == 1 && hits.any fun h => h.mem == 9 && h.uncorr && decide (h.addr < sramWords 7)
    if lost then t.warmReset t.dev.now (s.dev.boot.stage != 0) .memory else t

/-! ### SYS.RESET (R526) -/

/-- SYS.RESET (R526) (DESIGN CHOICE, assumption 57). -/
def verbSysReset : Verb where
  code := 0x0230
  role := .operator
  len := 8
  groups := true
  devRole := some .privileged
  params := [⟨0, 0, 32, .patch [(.device, 0, 0), (.line, 0, 0), (.subcarrier, 0, 31), (.pipeline, 0, 7), (.cipher, 0, 4),
      (.hostLane, 0, 15), (.stitchLane, 0, 7), (.port, 0, 15), (.capture, 0, 0)]⟩, ⟨4, 1, 7, .rsv⟩, ⟨5, 0, 24, .rsv⟩]

/-- A unit that a reset names is asleep (R526) (DESIGN CHOICE, assumption 60). -/
def Dev.resetAsleep (d : Dev) (p : Patch) : Bool :=
  match p.cls with
  | .port => !d.monRuns (.port p.inst)
  | _ => (p.units 3).all fun u => !d.runs u

/-- A reset of the device starts 1 ms after its `OK`; one of units waits for the next device frame boundary (DESIGN CHOICE, assumption 56). -/
def bodySysReset : Body := onDev fun c d =>
  let keep := c.p 4 0 1 == 1
  let us := (c.insts d).map fun i => (⟨c.cls, i⟩ : Patch)
  if c.cls = .device then
    if (c.patch 0).any (·.group) then (.now .badParameter, d)
    else (.now .ok, d.modBoot fun b => { b with resetAt := some (d.now + msCycles 1, keep) })
  else if keep then (.now .badParameter, d)
  else if us.any d.resetAsleep then (.now .state, d)
  else (.wait .unitReset, d.modBoot fun b => { b with unitResets := b.unitResets ++ [(c.slot, us)] })

/-- SYS_RESET (R526). -/
def execSysReset (c : HostCall) (s : State) : Host.Outcome State Fault Refusal := runVerb verbSysReset bodySysReset c s

/-- The line returns to its wake state, its front-end adaptation too (R163, R526) (DESIGN CHOICE, assumption 55). -/
def Dev.lineReset (d : Dev) : Dev :=
  (d.calAbort.lineReacquire).modLine fun l => { l with
    signal := false, corrections := 0, iqGainX := 0, iqGainY := 0, iqPhaseX := 0, iqPhaseY := 0, skews := [0, 0, 0, 0],
    dc := [0, 0, 0, 0], norm := [] }

/-- A subcarrier's equaliser, aligner and coding chain start again; an announcement is dropped (R150, R526) (DESIGN CHOICE, assumption 55). -/
def Dev.scReset (d : Dev) (n : Nat) : Dev :=
  let d := ((d.loadDrop n .aborted).alignWait n 4).modSc n fun s => { s with enc := { s.enc with chain := [] } }
  if (d.sc n).eq.state = .off then d else
  let d := d.eqGo n (if d.line.state = .locked ∧ d.bandUp n then .preconv else .waitLine)
  d.modEq n fun e => { e with held := none, taps := Taps.identity 0, attempt := 0 }

/-- A lane's PLL, CDR and adaptation start again, and its port goes down; a wake of its other direction that waits for leave ends with
`ABORTED` (R484, R526) (DESIGN CHOICE, assumption 60). -/
def Dev.laneReset (d : Dev) (k : Nat) : Dev :=
  let d := if (d.laneSt k).locked then d.laneLost k else d
  let d := match if k < 16 then d.portOf k else none with
    | some p => if (d.portSt p).up then d.portLost p 1 else d
    | none => d
  let d := (d.laneEqualise k false).laneEqualise k true
  [false, true].foldl (fun d e =>
    if d.power.queue.any (·.op == .wake (laneUnit k e)) then d.failWake (laneUnit k e) .aborted else d) d

/-- A unit is reset (R526): a pipeline's direction has no packet waiting, a cipher group no core at work; what their packets carry lies within one
command of this model. -/
def Dev.unitReset (d : Dev) (p : Patch) : Dev :=
  let d := match p.cls with
    | .line => d.lineReset
    | .subcarrier => d.scReset p.inst
    | .hostLane => d.laneReset p.inst
    | .stitchLane => d.laneReset (16 + p.inst)
    | .pipeline => d.modPkt fun x => { x with intake := x.intake.modify (p.inst / 4) fun q => (0, q.2) }
    | .cipher => d.modCrypt fun x => { x with cores := x.cores.filter fun e => decide (e.1 / 8 ≠ p.inst) }
    | .port => if (d.portSt p.inst).up then d.portLost p.inst 1 else d
    | .capture => match d.mon.capt with
      | some r => d.captOver 4 .aborted (d.setsAt r)
      | none => d
    | _ => d
  d.raiseAt .patchReset p 0

/-- PATCH_RESET_APPLY: the unit resets that wait apply at the device frame boundary, and their commands complete (R526) (DESIGN CHOICE, assumption 56). -/
def Dev.patchResets (d : Dev) : Dev :=
  if d.boot.unitResets.isEmpty then d else
  let l := d.boot.unitResets
  let d := (d.at (d.gridUp d.now)).modBoot fun b => { b with unitResets := [] }
  let d := l.foldl (fun d r =>
    let d := r.2.foldl Dev.unitReset d
    if (d.slot r.1).taken.any (·.why == .unitReset) then d.answer r.1 .ok else d) d
  d.settle 256

/-- PATCH_RESET_APPLY (R526). -/
def execPatchResetApply (s : State) : Host.Outcome State Fault Refusal := s.run Dev.patchResets

/-! ### The power-fail warning (R124, R533) -/

/-- PFAIL_ASSERT: a calibration run ends, the counters freeze at the next boundary with the final dump, the last gasp is sent for 64 frames, and
OTP programming stops. `consumed` is the dump ring's `CONSUMED` as read, none where the write fails (DESIGN CHOICE, assumption 58). -/
def State.pfail (s : State) (consumed : Option Nat) : State :=
  if s.dev.boot.pfail.isSome ∨ !s.dev.fwRuns then s else
  let d := s.dev.modBoot fun b => { b with pfail := some s.dev.now, lastGasp := 64 }
  let d := (d.raiseAt .pfail ⟨.device, 0⟩ 1).calAbort
  let d := d.otpStop.at (d.gridUp d.now)
  let d := d.modMon fun m => { m with early := some d.now }
  { s with dev := (d.dumpBoundary s.snap.cfg.snapGen true consumed).freeze true }

/-- PFAIL_ASSERT (R533). -/
def execPfailAssert (consumed : Option Nat) (s : State) : Host.Outcome State Fault Refusal := s.runAll fun s => s.pfail consumed

/-- LAST_GASP_END: the last of the 64 frames has been sent (R533). -/
def execLastGaspEnd (s : State) : Host.Outcome State Fault Refusal :=
  s.run fun d =>
    if d.boot.lastGasp = 0 then d
    else (d.at (d.frameStart (d.boundary + d.boot.lastGasp - 1))).modBoot fun b => { b with lastGasp := 0 }

/-- PFAIL_RECOVER: `PFAIL_N` has been high for 10 ms: counters run, and a stopped programming ends with `ABORTED` (R533). -/
def Dev.pfailRecover (d : Dev) : Dev :=
  if d.boot.pfail.isNone then d else
  let d := (d.modBoot fun b => { b with pfail := none }).raiseAt .pfail ⟨.device, 0⟩ 2
  let b := d.gridUp d.now
  let d := (d.freeze false).modMon fun m => { m with last := b, lastNo := d.frameUp d.now, dumpFrom := d.frameUp d.now, early := none }
  if d.otp.prog.any (·.stopped) then d.otpOver .aborted else d

/-- PFAIL_RECOVER (R533). -/
def execPfailRecover (s : State) : Host.Outcome State Fault Refusal := s.run Dev.pfailRecover

/-! ### PCIe (R51) -/

/-- PCIE_LINK_CHANGE (R51). -/
def execPcieLinkChange (p : PcieState) (s : State) : Host.Outcome State Fault Refusal :=
  s.run fun d => { d with ctl := { d.ctl with pcie := p } }

end Sys2Proof.Machine
end

