-- ==== Sys2Proof/Machine/Shape.lean ====
section
/-! DEFINITION. What the transmitter makes of its subcarriers' symbols: pulse shaping and multiplex, pre-compensation, band combine and
DACs; and the line loopbacks, which give it to the receiver (transmit stages 10 to 12; R10, R99, R132, R187, R188, R240). -/

namespace Sys2Proof.Machine

/-! ### Pulse shaping and multiplex (R132, R157) -/

/-- A symbol of a subcarrier as it enters pulse shaping, in 2^-16 of the root of the mean power. -/
def Sym.drive (s : Sym) : Cx2 :=
  let u : Int := isqrt (2 ^ 32 * s.unit.1 / s.unit.2)
  ⟨⟨u * s.xi, u * s.xq⟩, ⟨u * s.yi, u * s.yq⟩⟩

/-- The symbols that stand ready, each with its time in 1/256 of a symbol period from an instant on. -/
def EncSc.around (e : EncSc) (from' : Int) : List (Int × Cx2) :=
  e.sent.flatMap fun s => s.2.zipIdx.map fun y => ((s.1 - from') * 896 / 1000000000000000 + 256 * y.2, y.1.drive)

/-- The root-raised-cosine pulse of roll-off 1/35 and unit energy in 2^-16, at a time in 1/256 of a symbol period (R132) (DESIGN CHOICE,
assumption 207). -/
def pulse (t : Int) : Int :=
  let n := t.natAbs
  let near : Int := 5017600 - n * n
  if n = 0 then roundDiv (34 * fxOne / 35 + 4 * fxOne * fxOne / (35 * fxPi)) (2 ^ 48)
  else if near = 0 then roundDiv (2 * fxOne * fxOne / (35 * fxPi)) (2 ^ 48)
  else
    let v := (fxSin (17 * n) 8960 * 2240 + n * fxCos (18 * n) 8960) * (256 * 2240 * 65536) * near.sign
    roundDiv v (fxPi * n * near.natAbs)

/-- The unit factor at an angle of k/per of a turn (DESIGN CHOICE, assumption 207). -/
def turnAt (k : Int) (per : Nat) : Cx := ⟨roundDiv (fxCos k per) (2 ^ 48), roundDiv (fxSin k per) (2 ^ 48)⟩

/-- A shaped subcarrier at a time in 1/256 of a symbol period (R132, assumption 207). -/
def shaped (l : List (Int × Cx2)) (t : Int) : Cx2 :=
  let f := fun p : Cx2 → Cx => Cx.total (l.map fun e => let g := pulse (t - e.1); let v := p e.2; ⟨g * v.re / 65536, g * v.im / 65536⟩)
  ⟨f (·.x), f (·.y)⟩

/-- The frequency in MHz at which a subcarrier leaves the DACs: from f_c, in narrow mode from the transmit laser (R132, R157). -/
def Dev.txFreq (d : Dev) (n : Nat) : Int :=
  if d.narrow then 4500 * (2 * (n : Int) - 2 * d.conf .txFirst - d.conf .txCount + 1) - signed 16 (d.conf .txLo)
  else 4500 * (2 * (n : Int) - 31)

/-- The instant in 10^-15 TC at which the samples begin that the DACs send at a device frame boundary: those of the device frame two before,
which the encoders have filled (DESIGN CHOICE, assumption 207). -/
def Dev.dacFrom (d : Dev) : Int := ((d.frameNo d.now : Int) - 2) * tcFrame + txStages

/-- Every subcarrier whose band reaches the line, m samples after the DACs' instant (R97, R132, R133). -/
def Dev.multiplex (d : Dev) (m : Nat) : Cx2 :=
  let step : Nat := if d.narrow then 8 else 1
  let l := (d.liveScs.filter d.bandUp).map fun n =>
    let v := shaped ((d.sc n).enc.around d.dacFrom) (7 * step * m : Nat)
    let c := turnAt ((d.txFreq n * (step * m : Nat)) % 320000) 320000
    (v.x.mul c, v.y.mul c)
  ⟨Cx.total (l.map (·.1)), Cx.total (l.map (·.2))⟩

/-! ### Pre-compensation (R187, R188) -/

/-- The inverse of a lane's measured response at f GHz: gain in 0.01 dB and phase in 0.01°, between points in proportion (R188). -/
def Dev.inverseAt (d : Dev) (lane f : Nat) : Int × Int :=
  let j := f / 5
  let r : Int := f % 5
  let at' := fun k : Fld =>
    let a := signed 16 (d.conf k (33 * lane + j))
    let b := signed 16 (d.conf k (33 * lane + min 32 (j + 1)))
    Int.neg (a + roundDiv ((b - a) * r) 5)
  (at' .respGain, at' .respPhase)

/-- The bandwidths that the last accepted calibration of the core's mode measured of a DAC's slices (R119, R187). -/
def Dev.dacBandwidths (d : Dev) (lane : Nat) : List Int :=
  let l := d.conv.sets.filter fun x => x.full == d.power.coreFull
  match l.find? fun x => l.all fun y => decide (y.order ≤ x.order) with
  | some x => ((x.vals.getD lane {}).slices).map (·.bw)
  | none => []

/-- What a lane's pre-compensation is to have at f GHz: the DAC's roll-off and the table's response inverted, and the static gain and
skew (R166, R187, R188). -/
def Dev.preTarget (d : Dev) (lane f : Nat) : Int × Int :=
  let t := d.inverseAt lane f
  let skew := signed 16 (d.conf .feSkew lane)
  (t.1 - Config.rollOff (d.dacBandwidths lane) f + signed 8 (d.conf .feGain lane), t.2 - roundDiv (36 * f * skew) 100)

/-- The coefficients of a lane. -/
def Dev.preTaps (d : Dev) (lane : Nat) : List Int := Config.preFilter ((List.range 161).map (d.preTarget lane))

/-- The lanes XI, XQ, YI and YQ of a sample, the Q lanes with their static quadrature phase (R166, R187). -/
def Dev.lanesOf (d : Dev) (s : Cx2) : List Int :=
  let q := fun (lane : Nat) (v : Cx) =>
    let c := turnAt (signed 8 (d.conf .fePhase lane)) 3600
    (v.im * c.re + v.re * c.im) / 65536
  [s.x.re, q 1 s.x, s.y.re, q 3 s.y]

/-! ### Band combine and DACs (R99) -/

/-- What a lane's pre-compensation meets over a device frame: the samples that it still holds, then those of the frame. -/
def Dev.laneSamples (d : Dev) (lane : Nat) (l : List (List Int)) : List Int := d.conv.dacTail.getD lane [] ++ l.map fun s => s.getD lane 0

/-- The values of a lane that the band combine meets over a device frame: each sample and those before it through the lane's coefficients. -/
def Dev.combine (d : Dev) (lane : Nat) (l : List (List Int)) : List Int :=
  let c := d.preTaps lane
  let v := (d.laneSamples lane l).toArray
  let old := (d.conv.dacTail.getD lane []).length
  (List.range l.length).map fun m => ((c.mapIdx fun j w => if j ≤ old + m then w * v.getD (old + m - j) 0 else 0).sum) / 2 ^ 32

/-- The samples of the lanes over the device frame that the encoders' symbols fill, before pre-compensation (R97). -/
def Dev.dacLanes (d : Dev) : List (List Int) :=
  (List.range (if d.narrow then 400000 else 3200000)).map fun m => d.lanesOf (d.multiplex m)

/-- The values of the four lanes after pre-compensation. -/
def Dev.dacValues (d : Dev) : List (List Int) := (List.range 4).map fun lane => d.combine lane d.dacLanes

/-- The sample codes of the DACs (R10, R99). -/
def Dev.dacFrame (d : Dev) : List (List Int) := d.dacValues.map fun l => l.map toSample

/-- The samples that the pre-compensation holds after a device frame, one fewer than it has coefficients. -/
def Dev.dacHeld (d : Dev) : List (List Int) :=
  (List.range 4).map fun lane =>
    let l := d.laneSamples lane d.dacLanes
    l.drop (l.length - ((d.preTaps lane).length - 1))

/-- The DACs send what the framers gave, and bursts as they fell due; what they send is measured (R10, R99, R107). -/
def Dev.dacOut (d : Dev) : Dev :=
  if d.runs .core ∧ d.liveScs ≠ [] then
    (d.modConv fun c => { c with
      dacTail := d.dacHeld,
      sent := (List.range 4).map fun lane => (c.sent.getD lane {}).add (d.dacFrame.getD lane []) }).emit (.dac d.dacFrame)
  else if d.conv.dacTail.isEmpty then d else d.modConv fun c => { c with dacTail := [] }

/-! ### The line loopbacks (R240) -/

/-- What a subcarrier's receiver takes of its own transmitter over two frames: two samples a symbol, from seven before the first symbol on,
through the receiver's matched pulse (R132, assumption 207). -/
def EncSc.looped (e : EncSc) : List Cx2 :=
  let l := e.around ((e.sent.getD 1 (0, [])).1)
  (List.range 350013).map fun (j : Nat) => shaped l (128 * ((j : Int) - 7))

/-- The samples that reach a subcarrier's equaliser: with the digital loopback its own transmitter's; with the analogue one those and what
the on-die path adds, which came; else what came (R240, assumption 207). -/
def Dev.rxSamples (d : Dev) (n : Nat) (came : List Cx2) : List Cx2 :=
  match d.conf .loopMode 0 with
  | 1 => (d.sc n).enc.looped
  | 2 => List.zipWith (fun a b => ⟨a.x.add b.x, a.y.add b.y⟩) (d.sc n).enc.looped came
  | _ => came

end Sys2Proof.Machine
end

