-- ==== Sys2Proof/Machine/FrontRx.lean ====
section
/-! DEFINITION. What the receiver makes of the ADCs' sample codes: slice correction, front-end corrections, dispersion compensation, and the
extraction of a subcarrier at two samples per symbol (receive stages 1 to 3; R11, R98, R119, R163, R166, R168, R173, R178). -/

namespace Sys2Proof.Machine

/-! ### Samples in 2^-16 LSB (assumption 223) -/

/-- The value at place m of samples through coefficients in 2^-16 whose middle one meets it. -/
def firAt (c : List Int) (v : Array Int) (m : Nat) : Int :=
  let h := c.length / 2
  ((c.mapIdx fun j w => if j ≤ m + h then w * v.getD (m + h - j) 0 else 0).sum) / 65536

/-- Samples through coefficients. -/
def firAll (c : List Int) (l : List Int) : List Int :=
  let v := l.toArray
  (List.range l.length).map (firAt c v)

/-- Samples whose level is changed by n/d in 1/per dB. -/
def gained (n : Int) (d per : Nat) (l : List Int) : List Int :=
  let g := roundDiv (fxDb n d per) (2 ^ 48)
  l.map fun v => g * v / 65536

/-- The converters' samples in a TC, one from each position of the interleave sequence (R97). -/
def Dev.samplesPerTc (d : Dev) : Nat := if d.narrow then 16 else 128

/-- ADC lane k is converter 4 + k (R99). -/
def adcConv (k : Nat) : Nat := 4 + k

/-- The sample codes of an ADC lane with the offset, gain, skew and bandwidth of the slice that took each taken out, by the coefficients in force
(R11, R98, R121, assumption 223). -/
def Dev.sliceCorrected (d : Dev) (k : Nat) (codes : List Int) : List Int :=
  match d.conv.coef with
  | none => codes.map (· * 65536)
  | some c =>
    let at' := fun m => ((c.vals.getD (adcConv k) {}).slices).getD (d.sliceAt d.power.coreFull (adcConv k) (m % d.samplesPerTc)) {}
    let own := codes.mapIdx fun m v =>
      let s := at' m
      roundDiv (fxDb (-s.gain) (2 * c.den) 1000) (2 ^ 48) * (65536 * v - roundDiv (65536 * s.offset) (200 * c.den)) / 65536
    let a := own.toArray
    (List.range own.length).map fun m => firAt (Config.sliceFilter (roundDiv (at' m).skew (2 * c.den)) (roundDiv (at' m).bw (2 * c.den))) a m

/-- Quadrature phase of a Q lane, in 0.1°, taken back with the I lane beside it. -/
def quadrature (phase : Int) (i q : List Int) : List Int :=
  let c := turnAt phase 3600
  List.zipWith (fun i q => (q * c.re + i * c.im) / 65536) i q

/-- The static corrections of the four lanes: delay, gain and quadrature phase (R163, R166). -/
def Dev.staticFixed (d : Dev) (l : List (List Int)) : List (List Int) :=
  let one := (List.range 4).map fun k =>
    gained (signed 8 (d.conf .feGain (adcConv k))) 1 100 (firAll (Config.delayFilter (signed 16 (d.conf .feSkew (adcConv k)))) (l.getD k []))
  let q := fun k => quadrature (signed 8 (d.conf .fePhase (adcConv k))) (one.getD (k - 1) []) (one.getD k [])
  [one.getD 0 [], q 1, one.getD 2 [], q 3]

/-- DC offset, adaptive gain and phase balance of the Q lanes, and residual skew taken out (R163). -/
def Dev.adaptiveFixed (d : Dev) (l : List (List Int)) : List (List Int) :=
  let x := d.line
  let ac := (List.range 4).map fun k => (l.getD k []).map (· - x.dc.getD k 0)
  let q := fun (k : Nat) (g p : Int) => quadrature p (ac.getD (k - 1) []) (gained g 1 100 (ac.getD k []))
  let bal := [ac.getD 0 [], q 1 x.iqGainX x.iqPhaseX, ac.getD 2 [], q 3 x.iqGainY x.iqPhaseY]
  bal.mapIdx fun k s => firAll (Config.delayFilter (x.skews.getD k 0)) s

/-- The four lanes as the two polarisations. -/
def lanesCx2 (l : List (List Int)) : List Cx2 :=
  List.zipWith (fun (x y : Int × Int) => ⟨⟨x.1, x.2⟩, ⟨y.1, y.2⟩⟩) ((l.getD 0 []).zip (l.getD 1 [])) ((l.getD 2 []).zip (l.getD 3 []))

/-- The mean powers of X and of Y. -/
def meanPowers (l : List Cx2) : List Nat :=
  [(l.map fun s => s.x.power).sum / l.length, (l.map fun s => s.y.power).sum / l.length]

/-- Samples normalised to unit power, by the powers held, else by their own (R163). -/
def Dev.normalised (d : Dev) (l : List Cx2) : List Cx2 :=
  let p := if d.line.norm.isEmpty then meanPowers l else d.line.norm
  let f := fun (a : Nat) (v : Cx) => let r : Int := isqrt a; (⟨v.re * 65536 / r, v.im * 65536 / r⟩ : Cx)
  l.map fun s => ⟨f (p.getD 0 0) s.x, f (p.getD 1 0) s.y⟩

/-- The lanes after slice correction and static correction. -/
def Dev.frontLanes (d : Dev) (codes : List (List Int)) : List (List Int) :=
  d.staticFixed ((List.range 4).map fun k => d.sliceCorrected k (codes.getD k []))

/-- The samples after front-end correction (R163). -/
def Dev.frontEnd (d : Dev) (codes : List (List Int)) : List Cx2 := d.normalised (lanesCx2 (d.adaptiveFixed (d.frontLanes codes)))

/-- An average that follows with a time constant of so many µs over n samples, in 2^-16 of the way to the value (R163). -/
def Dev.followPart (d : Dev) (us n : Nat) : Int :=
  roundDiv (fxOne - fxExp (-((n * fxOne) / (us * 2500 * d.samplesPerTc : Nat)))) (2 ^ 48)

/-- DC removal and normalisation follow what the lowest awake subcarrier's receiver is given (R163, assumption 223). -/
def Dev.frontTrack (d : Dev) (n : Nat) (codes : List (List Int)) : Dev :=
  if d.liveScs.head? ≠ some n ∨ codes.all (·.isEmpty) then d else
  let l := d.frontLanes codes
  let len := (l.getD 0 []).length
  let dc := d.followPart 1000 len
  let pw := d.followPart 20 len
  let now := meanPowers (lanesCx2 (d.adaptiveFixed l))
  d.modLine fun x => { x with
    dc := (List.range 4).map fun k => let o := x.dc.getD k 0; o + dc * (meanInt (l.getD k []) - o) / 65536,
    norm := if x.norm.isEmpty then now else
      (List.range 2).map fun k => let o : Int := x.norm.getD k 0; (o + pw * ((now.getD k 0 : Int) - o) / 65536).toNat }

/-! ### Dispersion compensation (R167, R168) -/

/-- Samples through a filter with the opposite of a dispersion in ps/nm (R168, assumption 223). -/
def dispersed (ps : Int) (l : List Cx2) : List Cx2 :=
  let c := Config.cdTaps ps
  let h := c.length / 2
  let v := l.toArray
  (List.range l.length).map fun m =>
    let f := fun p : Cx2 → Cx => Cx.total (c.mapIdx fun j w => if j ≤ m + h then Cx.mul ⟨w.1, w.2⟩ (p (v.getD (m + h - j) {})) else {})
    ⟨f (·.x), f (·.y)⟩

/-- The wideband tile that has a subcarrier (R17, R18). -/
def Dev.tileOf (d : Dev) (n : Nat) : Nat := if d.narrow then 0 else n / 8

/-! ### Extraction (R132, R156, R173, R178, R180) -/

/-- The frequency in kHz, from the local oscillator, that a subcarrier's receiver mixes down: its place, the line's offset, and the residual
one (R132, R156, R180, R182). -/
def Dev.rxFreq (d : Dev) (n : Nat) (residual : Int) : Int :=
  let place : Int := if d.narrow then 4500 * (2 * (n : Int) - 2 * d.conf .rxFirst - d.conf .rxCount + 1) - signed 16 (d.conf .rxLo)
    else 4500 * (2 * (n : Int) - 31)
  1000 * (place + d.line.freqOffset.getD 0) + residual

/-- The TC between the first sample code that a receiver is given and the TC of the first symbol. -/
def rxLead : Nat := 2400

/-- The samples of a subcarrier, two a symbol from seven before its first symbol on: mixed down by a frequency in kHz from a turn in
1/320,000,000 on, through its matched pulse, each at its symbol's time to 1/64 symbol; the first symbol lies `at'` in 1/256 symbol after the
first code, and the symbol rate differs from the nominal by `rate` in 0.1 ppt (R132, R173, R178, assumption 223). -/
def Dev.extract (d : Dev) (n : Nat) (khz : Int) (turn : Nat) (at' : Int) (rate : Int) (codes : List (List Int)) : List Cx2 :=
  let step : Nat := if d.narrow then 8 else 1
  let l := (dispersed (d.line.cdTiles.getD (d.tileOf n) 0) (d.frontEnd codes)).mapIdx fun m s =>
    let c := (turnAt ((turn + khz * (step * m : Nat)) % 320000000) 320000000).conj
    (((7 * step * m : Nat) : Int), (⟨s.x.mul c, s.y.mul c⟩ : Cx2))
  let count := ((7 * step * l.length : Nat) - at' - 256 * 16).toNat / 128
  (List.range count).map fun (j : Nat) =>
    let t := at' + 4 * roundDiv (32 * ((j : Int) - 7) * (10000000000000 - rate)) 10000000000000
    let v := shaped l t
    ⟨⟨7 * step * v.x.re / 256, 7 * step * v.x.im / 256⟩, ⟨7 * step * v.y.re / 256, 7 * step * v.y.im / 256⟩⟩

end Sys2Proof.Machine
end

