-- ==== Sys2Proof/Machine/Hub.lean ====
section
/-! DEFINITION. The hub's tree: timing, grants, admission, discovery, ranging and messages (R279 to R317). -/

namespace Sys2Proof.Machine

/-! ### The grid and bursts (R283 to R291) -/

/-- The length of a burst of G slots in symbols (R287). -/
def burstLen (g : Nat) : Nat := 21875 * g / 2

/-- `STREAM_BYTES` of a data burst (R290). -/
def burstBytes (g mod code : Nat) : Nat :=
  let p := burstLen g - 352
  let dd := p - p / 64
  let m := if mod = 2 then 6 else 4
  let c := dd * 2 * m
  let full := c / 50
  let l := c % 50
  let gg := full % 80
  let cw := full / 80 * 8 + gg / 10
  let left := gg % 10
  let dcol := cw * 10 * (if code = 1 then 40 else 43) + left * (if code = 1 then 42 else 45) + l
  ((if mod = 0 then dcol - 4 * dd else dcol) - 320) / 8

/-- `EQD` of a leaf with a round trip of `RTD` eighths of a symbol; negative when it is out of reach (R284). -/
def Dev.eqdOf (d : Dev) (rtd : Nat) : Int := ((d.conf .loopFrames : Int) - 1) * 87500 - roundDiv rtd 8

/-- The number of the downstream frame in progress on a subcarrier (R283). -/
def Dev.txFrame (d : Dev) (n : Nat) : Nat := d.frameNo d.now - (d.sc n).tx.start + (d.sc n).tx.first

/-! ### Access -/

/-- Burst reception of a subcarrier. -/
def Dev.burstSc (d : Dev) (n : Nat) : BurstSc := d.ohd.hub.scs.get (fun _ => {}) n

/-- Change burst reception of a subcarrier. -/
def Dev.modBurst (d : Dev) (n : Nat) (f : BurstSc → BurstSc) : Dev :=
  d.modHub fun h => { h with scs := h.scs.modify (fun _ => {}) n f }

/-- Raise an event about a leaf at the hub. -/
def Dev.raiseHub (d : Dev) (ev : Ev) (n info : Nat) : Dev := d.raiseAt ev ⟨.leaf, n⟩ info

/-- The leaves that the configuration admits. -/
def Dev.admitted (d : Dev) : List Nat := (d.listed .leafEn).filter fun n => d.conf .leafEn n == 1

/-- The admitted leaves of a home subcarrier. -/
def Dev.leavesOf (d : Dev) (sc : Nat) : List Nat := d.admitted.filter fun n => d.conf .leafHome n == sc

/-- The admitted leaf of an identity. -/
def Dev.leafOfIdent (d : Dev) (ident : Nat) : Option Nat := d.admitted.find? fun n => d.conf .leafIdent n == ident

/-- An admitted leaf stands against the others: its identity is another's, or its dedicated subcarrier (R279, R313) (DESIGN CHOICE, assumption 112);
or it is the 129th on its time-shared subcarrier (R279, R313). -/
def Dev.admitClash (d : Dev) (n : Nat) : Option Status :=
  let others := d.admitted.filter (· != n)
  let ded := d.conf .leafDed n
  let here := others.filter fun m => d.conf .leafHome m == d.conf .leafHome n && d.conf .leafDed m == ded
  firstOf [
    (others.any fun m => d.conf .leafIdent m == d.conf .leafIdent n, .badParameter),
    (ded == 1 && !here.isEmpty, .badParameter),
    (ded == 0 && decide (here.length ≥ 128), .leafCapacity)]

/-! ### The leaf equaliser memory (R282, R301, R306) -/

/-- An entry of the leaf equaliser memory. -/
def Dev.lemAt (d : Dev) (n : Nat) : Option LemEntry := d.ohd.hub.lem.get (fun _ => none) n

/-- Write an entry. -/
def Dev.setLem (d : Dev) (n : Nat) (e : Option LemEntry) : Dev := d.modHub fun h => { h with lem := h.lem.set (fun _ => none) n e }

/-! ### Message records (R295) -/

/-- Queue a record for a leaf, sent in 4 consecutive frames of a subcarrier; records without a leaf's number are counted under
4,095 (DESIGN CHOICE, assumption 103). -/
def Dev.hubSend (d : Dev) (type sc n : Nat) (field : Nat) (body : List Byte) : Dev :=
  let q := (d.leafAt n).mseq
  let rec' := beBytes 1 type ++ beBytes 1 q ++ beBytes 2 field ++ padTo 20 body
  (d.modLeaf n fun l => { l with mseq := (q + 1) % 256 }).modHub fun h => { h with msgs := h.msgs ++ [⟨sc, 4, rec'⟩] }

/-- An identity's bytes as they stand in records and bursts (R7) (DESIGN CHOICE, assumption 199). -/
def identBytes (ident : Nat) : List Byte := beBytes 8 ident

/-- `ASSIGN` (R295). -/
def Dev.sendAssign (d : Dev) (n sc eqd rtd : Nat) : Dev :=
  d.hubSend 2 sc n n (identBytes (d.conf .leafIdent n) ++ beBytes 3 eqd ++ beBytes 1 (d.conf .leafDed n) ++ beBytes 4 rtd)

/-- How many frames a record behind those that wait is not sent in, eight going in every frame, each four times (R293, R295). -/
def msgDelay : Nat → List Nat → Nat
  | 0, _ => 0
  | fuel + 1, l =>
    if l.length < 8 then 0 else 1 + msgDelay fuel ((((l.take 8).map (· - 1)).filter (· ≠ 0)) ++ l.drop 8)

/-- The frame of a subcarrier that a record created now is first sent in (R295). -/
def Dev.firstSending (d : Dev) (sc : Nat) : Nat :=
  let l := (d.ohd.hub.msgs.filter (·.sc == sc)).map (·.left)
  d.txFrame sc + 1 + msgDelay (4 * l.length) l

/-- `EQD`: the value applies 4 frames after the record's first sending; the hub moves its expected position there (R295, R302) (DESIGN
CHOICE, assumption 102). -/
def Dev.sendEqd (d : Dev) (n eqd : Nat) : Dev :=
  let sc := d.conf .leafHome n
  let f := d.firstSending sc + 4
  (d.hubSend 3 sc n n (beBytes 3 eqd ++ beBytes 1 f ++ beBytes 4 (d.leafAt n).rtd)).modLeaf n fun l => { l with eqdNext := some (eqd, f) }

/-- The expected position moves with this grid frame, or has moved before (R302): the mean restarts. -/
def Dev.eqdSettle (d : Dev) (n g : Nat) : Dev :=
  match (d.leafAt n).eqdNext with
  | some (v, k) => if g ≥ k then d.modLeaf n fun l => { l with eqd := v, eqdNext := none, offs := [] } else d
  | none => d

/-- At a device frame boundary the positions have moved of which the grid frame in progress tells (R283, R302). -/
def Dev.hubSettle (d : Dev) : Dev :=
  (d.ohd.hub.leaves.filter (·.2.eqdNext.isSome)).foldl (fun d e =>
    d.eqdSettle e.1 (d.txFrame (d.conf .leafHome e.1) - d.conf .loopFrames)) d

/-! ### Ranging (R298, R308) -/

/-- The frame that a `RANGE` created now refers to: 4 frames after its first sending, and late enough that none of the 3 grid slots about
the echo's expected arrival has been granted yet (R294, R295, R298, R308) (DESIGN CHOICE, assumption 102). -/
def Dev.rangeFrame (d : Dev) (n : Nat) : Nat :=
  let sc := d.conf .leafHome n
  max (d.firstSending sc + 4) (d.txFrame sc + 4 + d.conf .loopFrames - (87500 + (d.leafAt n).rtd / 8) / 87500)

/-- The slots kept quiet for a leaf's echo are free again. -/
def Dev.unquiet (d : Dev) (n : Nat) : Dev :=
  d.modHub fun h => { h with scs := h.scs.mapVals (fun _ => {}) fun b => { b with quiet := b.quiet.filter (·.1 != n) } }

/-- The leaf goes to `RANGING`: a `RANGE`, the 3 grid slots centred on the echo's expected arrival kept quiet, and 64 frames to wait; `dLOB`
is present (R295, R308, R309). -/
def Dev.startRanging (d : Dev) (n : Nat) : Dev :=
  let sc := d.conf .leafHome n
  let f := d.rangeFrame n
  let x : Int := (f : Int) * 87500 + 87500 + (d.leafAt n).rtd / 8 - (d.conf .loopFrames : Int) * 87500
  let slot := x * 2 / 21875
  let t := (d.sc sc).tx
  let r := d.hubSend 4 sc n n (beBytes 1 f)
  (r.modLeaf n fun l => { l with
    state := .ranging, offs := [], missRun := 0, eqdNext := none, rangeEnd := t.start + f - t.first + 64,
    pm := { l.pm with defect := true } }).modBurst sc fun b => { b with quiet := b.quiet ++ [(n, slot - 1, slot + 1)] }

/-- The operation that asked for a ranging ends. -/
def Dev.rangeOver (d : Dev) (n : Nat) (st : Status) : Dev :=
  match (d.leafAt n).rangeOp with
  | some (slot, serial, seq) => (d.modLeaf n fun l => { l with rangeOp := none }).endOp slot serial seq st
  | none => d

/-- RANGING_TIMEOUT: 64 frames after `RANGE_MFI` without an echo (R308). -/
def execRangingTimeout (leaf : Nat) (s : State) : Host.Outcome State Fault Refusal :=
  s.run fun d =>
    if (d.leafAt leaf).state = .ranging then
      let d := (d.at (d.frameStart (d.leafAt leaf).rangeEnd)).modLeaf leaf fun l => { l with state := .lost }
      ((d.unquiet leaf).raiseHub .leafLost leaf leaf).rangeOver leaf .noEcho
    else d

/-- A leaf becomes `ACTIVE` at a measured round trip (R306, R308). -/
def Dev.leafActive (d : Dev) (n rtd eqd : Nat) : Dev :=
  d.modLeaf n fun l => { l with state := .active, rtd := rtd, eqd := eqd, eqdNext := none, offs := [], missRun := 0 }

/-- Assign an admitted leaf whose burst gave this round trip (R306); a ranging of it is over (DESIGN CHOICE, assumption 210). -/
def Dev.assignLeaf (d : Dev) (n sc rtd : Nat) : Dev :=
  let back := (d.leafAt n).state == .lost
  let eqd := (d.eqdOf rtd).toNat
  (((d.leafActive n rtd eqd).rangeOver n .ok).sendAssign n sc eqd rtd).raiseHub (if back then .leafBack else .leafRanged) n n

/-! ### The open search (R303, R306) -/

/-- Collisions are counted (R303). -/
def Dev.collide (d : Dev) (sc k : Nat) : Dev :=
  d.modBurst sc fun b => { b with collisions := (b.collisions + k) % 2 ^ 32, occasion := b.occasion + k }

/-- The frames from an occasion frame to the first one that begins after its arrival window (R305). -/
def Dev.occasionEnd (d : Dev) : Nat := ceilDiv (87500 + 8750 * d.conf .rtdMax + 10240) 87500

/-- A subcarrier's frame f begins: with the first one after an occasion's arrival window the occasion is over, and its collisions are told of
(R303) (DESIGN CHOICE, assumption 107). -/
def Dev.tellCollisions (d : Dev) (sc f : Nat) : Dev :=
  let k := (d.burstSc sc).occasion
  if f % 4096 ≠ d.occasionEnd ∨ k = 0 then d else
  (d.modBurst sc fun b => { b with occasion := 0 }).raiseSc .burstCollision sc (sat 16 k)

/-- A burst's header, or its body, passes its check. -/
def burstPartOk (n : Nat) (l : List Byte) : Bool := l.length == n && crc16 (l.take (n - 2)) == beNat (l.drop (n - 2))

/-- List a discovery burst: 64 entries, the oldest replaced; answers its place (R306). -/
def HubSt.list (h : HubSt) (e : DiscEntry) : Nat × HubSt :=
  let i := h.discCount % 64
  (i, { h with disc := if h.disc.length < 64 then h.disc ++ [e] else h.disc.set i e, discCount := h.discCount + 1 })

/-! ### Granted bursts: alignment (R300, R302) -/

/-- A granted burst whose unique word was not found (R300, R302). -/
def Dev.burstMissed (d : Dev) (n : Nat) : Dev :=
  let l := d.leafAt n
  let d := d.modLeaf n fun l => { l with missed := (l.missed + 1) % 2 ^ 32, missRun := l.missRun + 1 }
  if l.missRun + 1 ≥ 4 ∧ l.state = .active then d.startRanging n else d

/-- LEAF_ALIGNMENT_LOST: the fourth granted burst in succession without a unique word (R302, R308). -/
def execLeafAlignmentLost (leaf : Nat) (s : State) : Host.Outcome State Fault Refusal :=
  s.run fun d =>
    if (d.leafAt leaf).state = .active ∧ (d.leafAt leaf).missRun ≥ 3 then d.burstMissed leaf else d

/-- The arrival offset of a good burst in 1/8 symbol: a misaligned burst or a drift is corrected (R302). -/
def Dev.burstOffset (d : Dev) (n : Nat) (e : Int) : Dev :=
  let d := d.modLeaf n fun l => { l with missRun := 0, offs := (e :: l.offs).take 16 }
  let l := d.leafAt n
  let move := fun (d : Dev) (x : Int) =>
    let st := roundDiv x 8
    let st : Int := if st > 8 then 8 else if st < -8 then -8 else st
    d.sendEqd n ((l.eqd : Int) - st).toNat
  if e.natAbs > 64 then
    let ev := d.oncePerSecond l.misAt
    let d := d.modLeaf n fun l => { l with
      misaligned := (l.misaligned + 1) % 2 ^ 32, misAt := if ev then some d.now else l.misAt }
    let d := move d e
    if ev then d.raiseHub .burstMisalign n n else d
  else
    if l.offs.length = 16 ∧ l.offs.sum.natAbs > 16 * 16 ∧ l.eqdNext.isNone then move d (roundDiv l.offs.sum 16) else d

/-! ### Grants and the tree field (R293 to R298, R305) -/

/-- A grid slot overlaps the quiet span of the occasion of downstream frame F_d (R305). -/
def Dev.quietFor (d : Dev) (fd g s : Nat) : Bool :=
  let base := ((g : Int) - fd + d.conf .loopFrames) * 87500
  let a := base + slotStart s
  let b := base + slotStart (s + 1)
  let ws : Int := 87500 + 8750 * d.conf .rtdMin
  let we : Int := 87500 + 8750 * d.conf .rtdMax + 10240
  decide (a < we ∧ ws < b)

/-- A grid slot of a subcarrier is reserved: in a discovery quiet span, or for an echo (R298, R305). -/
def Dev.slotQuiet (d : Dev) (n g s : Nat) : Bool :=
  (d.conf .discEn n == 1 && (d.quietFor (g / 4096 * 4096) g s || d.quietFor (g / 4096 * 4096 + 4096) g s)) ||
  (d.burstSc n).quiet.any fun q => decide (q.2.1 ≤ (8 * g + s : Nat) ∧ ((8 * g + s : Nat) : Int) ≤ q.2.2)

/-- The slots of a row that its table and the hub's needs leave granted: the leaf, or none (R297, R298). -/
def Dev.grantRow (d : Dev) (n g : Nat) : List (Option Nat) :=
  (List.range 8).map fun s =>
    let e := d.grantEntry n (g % 2 ^ d.conf .cycleLog n) s % 4096
    if e = 0xFFF ∨ (d.leafAt e).state ≠ .active ∨ d.slotQuiet n g s then none else some e

/-- How many table grants of a row are cancelled (R298). -/
def Dev.grantsCancelled (d : Dev) (n g : Nat) : Nat :=
  ((List.range 8).filter fun s =>
    d.grantEntry n (g % 2 ^ d.conf .cycleLog n) s % 4096 != 0xFFF && ((d.grantRow n g).getD s none).isNone).length

/-- A burst of a row starts at slot s (R297). -/
def Dev.grantStarts (d : Dev) (n g : Nat) (row : List (Option Nat)) (s : Nat) : Bool :=
  (row.getD s none).isSome &&
    (s == 0 || row.getD s none != row.getD (s - 1) none || bit (d.grantEntry n (g % 2 ^ d.conf .cycleLog n) s) 15)

/-- How many slots a burst that starts at slot s of a row has. -/
def Dev.grantSpan (d : Dev) (n g : Nat) (row : List (Option Nat)) (s : Nat) : Nat :=
  1 + (((List.range 8).filter (· > s)).takeWhile fun t =>
    row.getD t none == row.getD s none && !d.grantStarts n g row t).length

/-- The grant record of slot s of grid frame g (R294). -/
def Dev.grantRecord (d : Dev) (n g : Nat) (row : List (Option Nat)) (s : Nat) : Nat :=
  match row.getD s none with
  | some leaf =>
    let start := d.grantStarts n g row s
    leaf * 2 ^ 20 + b2n start * 2 ^ 19 + (if start then d.grantSpan n g row s - 1 else 0) * 2 ^ 16 +
      d.conf .leafMod leaf * 2 ^ 14 + d.conf .leafCode leaf * 2 ^ 13
  | none => 0xFFF * 2 ^ 20 + b2n (d.slotQuiet n g s) * 2 ^ 12

/-- A leaf's grant is sent, and its burst expected; of those that never come the last 1,024 are held (DESIGN CHOICE, assumption 210). -/
def Dev.sentGrant (d : Dev) (m : Nat) (g : SentGrant) : Dev :=
  d.modLeaf m fun l => { l with granted := (l.granted + 1) % 2 ^ 32, grants := (l.grants ++ [g]).drop (l.grants.length - 1023) }

/-- A `REPORT` record for a leaf (R295, R309). -/
def Dev.reportRecord (d : Dev) (n : Nat) : List Byte :=
  let l := d.leafAt n
  let lob := l.state == .ranging || l.state == .lost
  beBytes 1 5 ++ beBytes 1 l.mseq ++ beBytes 2 n ++ padTo 20 (
    beBytes 2 ((l.freq.map (unsigned 16)).getD 0x8000) ++ beBytes 2 (l.snr.getD 0xFFFF) ++
    beBytes 1 (min 8 l.beiAcc * 16 + b2n lob * 8) ++ beBytes 4 l.rtd)

/-- The tree field of a downstream subcarrier's frame F, and the hub after it: grants for upstream frame F + 2 on a time-shared
subcarrier, records in order of creation, then `REPORT` in turn (R293, R295). -/
def Dev.treeField (d : Dev) (n f : Nat) : List Byte × Dev :=
  if d.role ≠ .hub then (List.replicate 240 0, d) else
  let d := d.tellCollisions n f
  let shared := d.rxShared n
  let disc := shared && d.conf .discEn n == 1 && f % 4096 == 0
  let inv := disc && (d.burstSc n).invite
  let g := f + 2
  let row := d.grantRow n g
  let grants := if shared then (List.range 8).flatMap fun s => beBytes 4 (d.grantRecord n g row s) else
    (List.range 8).flatMap fun _ => beBytes 4 (0xFFF * 2 ^ 20)
  let mine := (d.ohd.hub.msgs.filter (·.sc == n)).take 8
  let d := d.modHub fun h => { h with
    msgs := (h.msgs.map fun m => if mine.contains m then { m with left := m.left - 1 } else m).filter (·.left != 0) }
  let leaves := d.leavesOf n
  let k := min (8 - mine.length) leaves.length
  let r0 := d.ohd.hub.robin.get (fun _ => 0) n
  let turn := (List.range k).map fun i => leaves.getD ((r0 + i) % leaves.length) 0
  let reports := turn.map d.reportRecord
  let d := turn.foldl (fun d m => d.modLeaf m fun l => { l with mseq := (l.mseq + 1) % 256, beiAcc := l.beiAcc - min 8 l.beiAcc }) d
  let d := d.modHub fun h => { h with robin := h.robin.set (fun _ => 0) n (if leaves.isEmpty then 0 else (r0 + k) % leaves.length) }
  let d := if shared then
      let starts := (List.range 8).filter (d.grantStarts n g row)
      let d := starts.foldl (fun d s => match row.getD s none with
        | some m => d.sentGrant m ⟨g, s, d.grantSpan n g row s, d.conf .leafMod m, d.conf .leafCode m⟩
        | none => d) d
      d.modBurst n fun b => { b with
        cancelled := (b.cancelled + d.grantsCancelled n g) % 2 ^ 32, invite := b.invite && !disc }
    else d
  let msgs := (mine.map (·.bytes) ++ reports).flatten
  (beBytes 1 (b2n disc * 128 + b2n inv * 64) ++ beBytes 1 (d.conf .loopFrames) ++ grants ++ List.replicate 6 0 ++ padTo 192 msgs ++
    List.replicate 8 0, d)

/-! ### Commands (R310 to R315) -/

/-- Hub verbs elsewhere give `STATE` (R21, R314). -/
def Dev.notHub (d : Dev) : Bool := d.role != .hub

/-- BURST.TREE (R310). -/
def verbBurstTree : Verb where
  code := 0x1801
  role := .operator
  len := 8
  params := [⟨0, 0, 7, .range 1 64⟩, ⟨0, 7, 1, .rsv⟩, ⟨1, 0, 8, .rsv⟩, ⟨2, 0, 16, .range 0 640⟩, ⟨4, 0, 16, .range 0 640⟩,
    ⟨6, 0, 8, .range 3 20⟩, ⟨7, 0, 8, .range 30 95⟩]

/-- What refuses `BURST.TREE` (R310). -/
def burstTreeCheck (c : Call) (d : Dev) : Option Status :=
  firstOf [
    (d.notHub, .state),
    (decide (c.p 4 0 16 < c.p 2 0 16 ∨ 8750 * c.p 4 0 16 > (c.p 0 0 7 - 1) * 87500), .badParameter),
    (c.p 0 0 7 != d.conf .loopFrames && d.ohd.hub.leaves.any (fun e => e.2.state == .active), .state)]

/-- BURST_TREE (R310). -/
def execBurstTree (c : HostCall) (s : State) : Host.Outcome State Fault Refusal :=
  runVerb verbBurstTree (stageOn ⟨.line, 0⟩ burstTreeCheck fun c _ =>
    [fv .loopFrames 0 (c.p 0 0 7) 7, fv .rtdMin 0 (c.p 2 0 16) 16, fv .rtdMax 0 (c.p 4 0 16) 16, fv .captureDb 0 (c.p 6 0 8) 8,
      fv .uwThresh 0 (c.p 7 0 8) 8]) c s

/-- BURST.SHARE (R311). -/
def verbBurstShare : Verb where
  code := 0x1802
  role := .operator
  len := 8
  groups := true
  params := [⟨0, 0, 32, .patch [(.subcarrier, 0, 31)]⟩, ⟨4, 2, 6, .rsv⟩, ⟨5, 0, 24, .rsv⟩]

/-- What refuses `BURST.SHARE` on a subcarrier (R282, R311). -/
def burstShareCheck (c : Call) (d : Dev) (n : Nat) : Option Status :=
  firstOf [
    (d.notHub, .state),
    (c.p 4 0 1 != d.conf .shared n && !(d.leavesOf n).isEmpty, .state),
    (c.p 4 0 1 == 1 && d.lacks .lem, .state)]

/-- The meaning of `BURST.SHARE`. -/
def bodyBurstShare : Body := stageEach burstShareCheck fun c _ n => [fv .shared n (c.p 4 0 1) 1, fv .discEn n (c.p 4 1 1) 1]

/-- BURST_SHARE (R311). -/
def execBurstShare (c : HostCall) (s : State) : Host.Outcome State Fault Refusal := runVerb verbBurstShare bodyBurstShare c s

/-- BURST.GRANTS (R312) (DESIGN CHOICE, assumption 216). -/
def verbBurstGrants : Verb where
  code := 0x1803
  role := .operator
  len := 5
  ext := .always
  size := .pow 20 0 4 16
  params := [⟨16, 0, 32, .patch [(.subcarrier, 0, 31)]⟩, ⟨20, 0, 4, .range 0 8⟩]
  entry := [⟨0, 12, 3, .rsv⟩]
  entryLen := 2

/-- What refuses `BURST.GRANTS` (R312). -/
def burstGrantsCheck (c : Call) (d : Dev) : Option Status :=
  firstOf [
    (d.notHub, .state),
    ((c.insts d 16).any fun n => d.seen c.slot .shared n == 0, .state)]

/-- The meaning of `BURST.GRANTS`. -/
def bodyBurstGrants : Body := onDev fun c d =>
  match burstGrantsCheck c d with
  | some st => (.now st, d)
  | none =>
    d.stageAns c ((c.insts d 16).map fun n => ((⟨.subcarrier, n⟩ : Patch),
      fv .cycleLog n (c.p 20 0 4) 4 ::
        (List.range (2 ^ c.p 20 0 4 * 8)).map fun i => fv .grant (2048 * n + i) (leNat (slice c.bytes (2 * i) 2)) 16))

/-- BURST_GRANTS (R312). -/
def execBurstGrants (c : HostCall) (s : State) : Host.Outcome State Fault Refusal := runVerb verbBurstGrants bodyBurstGrants c s

/-- BURST.ADMIT (R313). -/
def verbBurstAdmit : Verb where
  code := 0x1804
  role := .operator
  len := 16
  params := [⟨0, 0, 12, .range 0 4094⟩, ⟨0, 12, 4, .rsv⟩, ⟨2, 2, 6, .rsv⟩, ⟨3, 5, 3, .rsv⟩, ⟨4, 0, 2, .enum [0, 1, 2]⟩,
    ⟨4, 3, 5, .rsv⟩, ⟨5, 0, 8, .rsv⟩, ⟨6, 10, 6, .rsv⟩]

/-- The fields of `BURST.ADMIT`, on the leaf. -/
def burstAdmitVals (c : Call) : List FieldVal :=
  let n := c.p 0 0 12
  [fv .leafEn n (c.p 2 0 1) 1, fv .leafDed n (c.p 2 1 1) 1, fv .leafHome n (c.p 3 0 5) 5, fv .leafMod n (c.p 4 0 2) 2,
    fv .leafCode n (c.p 4 2 1) 1, fv .leafCont n (c.p 6 0 10) 10, fv .leafIdent n (c.p 8 0 64) 64]

/-- What refuses `BURST.ADMIT`: what it would leave beside the leaves that the session has staged and those admitted (R313). -/
def burstAdmitCheck (c : Call) (d : Dev) : Option Status :=
  let n := c.p 0 0 12
  let on := c.p 2 0 1 == 1
  let new := (d.overlay (d.cfg.staged.filter (·.owner == c.slot))).overlay [⟨c.slot, ⟨.leaf, n⟩, burstAdmitVals c⟩]
  firstOf [(d.notHub, .state)] |>.orElse fun _ =>
    if !on then none else
    (new.admitClash n).orElse fun _ => if (new.conf .shared (c.p 3 0 5) == 1) == (c.p 2 1 1 == 1) then some .state else none

/-- BURST_ADMIT (R313). -/
def execBurstAdmit (c : HostCall) (s : State) : Host.Outcome State Fault Refusal :=
  runVerb verbBurstAdmit (stageAt (fun c => ⟨.leaf, c.p 0 0 12⟩) burstAdmitCheck fun c _ => burstAdmitVals c) c s

/-- Validation of the hub's settings at a commit (R279, R311 to R313). -/
def validateHub (new : Dev) (es : List Entry) : Option Status :=
  ((((stagedAll es .leafEn).filter (·.2 == 1)).findSome? fun e => new.admitClash e.1)).orElse fun _ => firstOf [
    (!((stagedAll es .leafEn).isEmpty && (stagedAll es .shared).isEmpty) &&
      new.admitted.any fun n => (new.conf .shared (new.conf .leafHome n) == 1) == (new.conf .leafDed n == 1), .state),
    ((stagedAll es .grant).any (fun e =>
      let leaf := e.2 % 4096
      leaf != 0xFFF && !(new.conf .leafEn leaf == 1 && new.conf .leafHome leaf == e.1 / 2048)), .grantConflict),
    ((stagedAll es .leafEn).any (fun e => e.2 == 1 && new.conf .contBind (2 * new.conf .leafCont e.1 + 1) == 0), .containerUndefined)]

/-- A commit's admissions, removals and moves; `DEREGISTER` goes to the home that the leaf had (R306, R308, R314). -/
def Dev.hubCommit (d old : Dev) (es : List Entry) : Dev :=
  let d := (stagedAll es .leafEn).foldl (fun d e =>
    let n := e.1
    if e.2 = 0 then
      if (d.leafAt n).state = .free then d else
      (((((d.unquiet n).rangeOver n .aborted).setLem n none).hubSend 8 (old.conf .leafHome n) n n []).modLeaf n fun l => { mseq := l.mseq })
    else if (d.leafAt n).state ≠ .free then d
    else
      let d := d.modLeaf n fun l => { state := .admitted, mseq := l.mseq, pm := d.newPm }
      match d.ohd.hub.disc.find? fun x => x.ident == d.conf .leafIdent n with
      | some x => if decide (d.eqdOf x.rtd < 0) then d.raiseHub .leafOutOfReach n (d.ohd.hub.disc.findIdx fun y => y.ident == x.ident)
                  else d.assignLeaf n x.sc x.rtd
      | none => d) d
  (stagedAll es .leafMove).foldl (fun d e => d.hubSend 7 (d.conf .leafHome e.1) e.1 e.1 (leBytes 6 e.2)) d

/-- BURST.INVITE (R314) (DESIGN CHOICE, assumption 216). -/
def verbBurstInvite : Verb where
  code := 0x1805
  role := .operator
  len := 9

/-- BURST_INVITE (R314). -/
def execBurstInvite (c : HostCall) (s : State) : Host.Outcome State Fault Refusal :=
  runVerb verbBurstInvite (onDev fun c d =>
    if d.notHub then (.now .state, d) else
    let sc := c.p 8 0 5
    (.now .ok, (d.hubSend 6 sc 4095 0xFFF (identBytes (c.p 0 0 64) ++ beBytes 1 sc)).modBurst sc fun b => { b with invite := true })) c s

/-- BURST.RANGE (R314) (DESIGN CHOICE, assumptions 106 and 216). -/
def verbBurstRange : Verb where
  code := 0x1806
  role := .operator
  len := 2

/-- BURST_RANGE (R308, R314). -/
def execBurstRange (c : HostCall) (s : State) : Host.Outcome State Fault Refusal :=
  runVerb verbBurstRange (onDev fun c d =>
    let n := c.p 0 0 12
    match firstOf [(d.notHub, .state), ((d.leafAt n).state == .free, .leafUnknown), ((d.leafAt n).state != .active, .state)] with
    | some st => (.now st, d)
    | none => (.accept, (d.startRanging n).modLeaf n fun l => { l with rangeOp := some (c.slot, (d.slot c.slot).serial, c.seq) })) c s

/-- BURST.LEAF_STATUS (R315). -/
def verbBurstLeafStatus : Verb where
  code := 0x1807
  role := .observer
  len := 4
  groups := true
  reads := true
  params := [⟨0, 0, 32, .patch [(.leaf, 0, 4094)]⟩]

/-- The code of a leaf's state at the hub (R315). -/
def HubLeaf.code : HubLeaf → Nat
  | .free => 0 | .admitted => 1 | .active => 2 | .ranging => 3 | .lost => 4

/-- The result fields of a leaf at the hub (R315). -/
def leafFields (v : Dev) (n : Nat) : List RField :=
  let l := v.leafAt n
  let lob := l.state == .ranging || l.state == .lost
  let sev := fun (o : Nat) (b : Bool) => rf (.severe [1, 0]) 0 o 1 (b2n b)
  [rf (.severe [4, 3, 1, 2, 0]) 0 0 3 l.state.code, rf .conf 0 3 1 (v.conf .leafDed n), sev 4 lob, sev 5 l.dLG, sev 6 l.dBDI,
    rf .conf 1 0 5 (v.conf .leafHome n), rf .conf 2 0 32 l.rtd, rf .conf 6 0 24 l.eqd,
    rf .conf 10 0 16 ((l.freq.map (unsigned 16)).getD 0x8000), rf .minU 12 0 16 (l.snr.getD 0xFFFF),
    rf .conf 14 0 16 (unsigned 16 (if l.offs.isEmpty then 0 else roundDiv l.offs.sum l.offs.length)),
    rf .sum 16 0 32 l.granted, rf .sum 20 0 32 l.good, rf .sum 24 0 32 l.missed, rf .sum 28 0 32 l.hdrErrors,
    rf .sum 32 0 32 l.misaligned, rf .sum 36 0 32 l.uncorr, rf .sum 40 0 32 l.stale]

/-- The meaning of `BURST.LEAF_STATUS`. -/
def bodyBurstLeafStatus : Body := readEach 44 fun _ v n => if v.notHub then none else some (leafFields v n)

/-- BURST_LEAF_STATUS (R315). -/
def execBurstLeafStatus (c : HostCall) (s : State) : Host.Outcome State Fault Refusal :=
  runVerb verbBurstLeafStatus bodyBurstLeafStatus c s

/-- BURST.DISC_READ (R314). -/
def verbBurstDiscRead : Verb where
  code := 0x1808
  role := .observer
  len := 4
  ext := .always
  params := [⟨16, 0, 32, .patch [(.subcarrier, 0, 31)]⟩]

/-- A discovery list entry in the buffer (R314). -/
def DiscEntry.bytes (e : DiscEntry) : List Byte :=
  leBytes 8 e.ident ++ leBytes 4 e.rtd ++ leBytes 2 (unsigned 16 e.freq) ++ leBytes 2 (unsigned 16 e.power) ++
    leBytes 1 (e.sc + 32 * b2n e.far) ++ leBytes 6 e.sec ++ leBytes 1 0

/-- The meaning of `BURST.DISC_READ`: as many entries of the subcarrier as the buffer holds (R314). -/
def bodyBurstDiscRead : Body := onView fun c v =>
  if v.notHub then .now .state else
  match c.insts v 16 with
  | n :: _ =>
    let l := (v.ohd.hub.disc.filter (·.sc == n)).take (c.extLen / 24)
    let b := v.burstSc n
    .wrote (l.flatMap (·.bytes)) (res 20 [fieldAt 0 8 l.length, fieldAt 4 32 b.falsePre, fieldAt 8 32 b.collisions,
      fieldAt 12 32 b.decoded, fieldAt 16 32 b.cancelled])
  | [] => .now .badParameter

/-- BURST_DISC_READ (R314). -/
def execBurstDiscRead (c : HostCall) (s : State) : Host.Outcome State Fault Refusal :=
  runVerb verbBurstDiscRead bodyBurstDiscRead c s

/-- BURST.MOVE (R314) (DESIGN CHOICE, assumption 216). -/
def verbBurstMove : Verb where
  code := 0x1809
  role := .operator
  len := 8
  params := [⟨0, 0, 12, .range 0 4094⟩]

/-- BURST_MOVE (R314). -/
def execBurstMove (c : HostCall) (s : State) : Host.Outcome State Fault Refusal :=
  runVerb verbBurstMove (stageAt (fun c => ⟨.leaf, c.p 0 0 12⟩)
    (fun c d => firstOf [(d.notHub, .state), (d.seen c.slot .leafEn (c.p 0 0 12) == 0, .leafUnknown)])
    fun c _ => [fv .leafMove (c.p 0 0 12) (c.p 2 0 48) 48]) c s

end Sys2Proof.Machine
end

