-- ==== Sys2Proof/Machine/Burst.lean ====
section
/-! DEFINITION. A burst's symbols: how a leaf forms them, and what the hub makes of those that it receives (R282, R288 to R290, R292,
R300, R301, R303). -/

namespace Sys2Proof.Machine

/-! ### Sending (R288 to R290) -/

/-- A burst's preamble. -/
def preamble : List Sym :=
  (List.range 256).map fun q => let s : Int := if q % 2 = 0 then 1 else -1; ⟨s, s, s, -s, (1, 2)⟩

/-- The slots of a burst from its information bits: with `MOD` 0 they fill the data sign slots and every label is 0; else they fill every
data slot, a label's two bits as the value of its amplitude (R289). -/
def burstSlots (mod code c : Nat) (info : List Bool) : List Bool :=
  let m := if mod = 2 then 6 else 4
  if mod = 0 then frameSlots m code c (List.replicate c false) info else
  let roles := (List.range (groupsOf c)).flatMap fun q => (groupCols m code c q).map fun j => decide (j < groupData m code c q)
  let vals := (roles.foldl (fun (r : List Bool × List Bool) isData =>
    if isData then (r.2.headD false :: r.1, r.2.tail) else (false :: r.1, r.2)) ([], info)).1.reverse
  (cut (m / 2) vals).flatMap fun l =>
    ampLabel m (2 * bitsNat (l.take (m / 2 - 1)) + 1) ++ l.drop (m / 2 - 1)

/-- Information bits that a burst of c coded bits carries (R290). -/
def burstInfo (mod code c : Nat) : Nat :=
  let m := if mod = 2 then 6 else 4
  let n := ((List.range (groupsOf c)).map fun q => if q = c / 50 then c % 50 else groupData m code c q).sum
  if mod = 0 then n - c / 2 else n

/-- The p payload symbols of a burst, its pilots among them; `flip` says which coded bits an injection inverts (R217, R288, R289). -/
def burstPayload (sc mod code p : Nat) (flip : Nat → Bool) (bytes : List Byte) : List Sym :=
  let m := if mod = 2 then 6 else 4
  let c := 2 * (p - p / 64) * m
  let info := scramble sc (fitBits (burstInfo mod code c) (msbBits bytes))
  let r := codeSlots m code c [] (burstSlots mod code c info)
  weave (symsOf (dataUnit (32 * mod)) (dimsOf m (r.1.mapIdx fun i b => b != flip i))) (pilots sc (p / 64))

/-- The payload symbols of a burst of so many bytes: an open burst's, else those of the grant whose capacity it fills (R288, R290). -/
def burstRoom (mod code : Nat) (bytes : List Byte) : Nat :=
  match (List.range 9).find? (fun g => g ≠ 0 && 40 + burstBytes g mod code == bytes.length) with
  | some g => burstLen g - 352
  | none => 288

/-- The symbols of a burst, its guard at zero drive (R288) (DESIGN CHOICE, assumption 191). -/
def burstSymbols (sc mod code : Nat) (flip : Nat → Bool) (bytes : List Byte) : List Sym :=
  preamble ++ wordSyms 0x2B false ++ burstPayload sc mod code (burstRoom mod code bytes) flip bytes ++ List.replicate 32 ⟨0, 0, 0, 0, (1, 2)⟩

/-! ### Receiving (R289, R300, R301) -/

/-- The unique word (R288). -/
def uniqueWord : List Cx2 := (wordSyms 0x2B false).map Sym.known

/-- The place of the unique word in a search window: of the 33 whose correlations both reach the threshold, the first with the largest
sum; symbols with their swap taken out (R236, R300). -/
def wordPlace (th : Nat) (w : List Cx2) : Option Nat :=
  let corr := fun i => let r := w.drop i
    (corr100 (r.map (·.x)) (uniqueWord.map (·.x)), corr100 (r.map (·.y)) (uniqueWord.map (·.y)))
  ((List.range 33).foldl (fun (best : Option (Nat × Nat)) i =>
    let c := corr i
    if c.1 < th ∨ c.2 < th ∨ best.any (fun b => decide (c.1 + c.2 ≤ b.2)) then best else some (i, c.1 + c.2)) none).map (·.1)

/-- The reference of an output of a burst: the preamble; the unique word, which the taps do not learn from; the payload's pilots; else the nearest
point of the grant's modulation (R173, R182, R288, R301). -/
def burstRef (pre pil : List Cx2) (mod i : Nat) (o : Cx2) : Option SymRef :=
  if i < 256 then (pre[i]?).map fun s => ⟨s, true, true⟩
  else if i < 320 then (uniqueWord[i - 256]?).map fun s => ⟨s, true, false⟩
  else if i % 64 = 63 then (pil[(i - 320) / 64]?).map fun s => ⟨s, true, true⟩
  else some ⟨nearPoint (32 * mod) o, false, true⟩

/-- A burst as received: its information bytes with the marked ones by position, whether an outer codeword failed, its pilot SNR in 0.01 dB,
the state that the equaliser has converged to, and the slips undone. -/
structure BurstGot where
  bytes : List Byte
  marks : List Nat
  outerFail : Bool
  snr : Nat
  entry : LemEntry
  slips : Nat

/-- The information bits of a burst's decoded slots: of `MOD` 0 its data sign slots, else of every data slot, a label read as the value of its
amplitude (R289). -/
def burstBits (mod code c : Nat) (slots : List (Bool × Bool)) : List (Bool × Bool) :=
  let m := if mod = 2 then 6 else 4
  if mod = 0 then signsOf m code c slots else
  let roles := (List.range (groupsOf c)).flatMap fun q => (groupCols m code c q).map fun j => decide (j < groupData m code c q)
  let vals := (cut (m / 2) slots).flatMap fun l =>
    let lb := l.take (m / 2 - 1)
    ((natBits (m / 2 - 1) (labelAmp m (lb.map (·.1)) / 2)).map fun v => (v, lb.any (·.2))) ++ l.drop (m / 2 - 1)
  ((vals.zip roles).filter (·.2)).map (·.1)

/-- Ratios of positions outside the burst, every bit of which reads as 0 (R289). -/
def zeroPositions : List (List (List Int)) := List.replicate 2 (List.replicate 80 (List.replicate 50 31))

/-- Decode a burst's payload of p symbols: its data symbols through the demapper, the chain of its own positions, and descrambled (R206, R289,
R290). -/
def burstDecode (sc mod code p : Nat) (nz : (Nat × Nat) × (Nat × Nat)) (payload : List Cx2) : List Byte × List Nat × Bool :=
  let m := if mod = 2 then 6 else 4
  let c := 2 * (p - p / 64) * m
  let data := (payload.zipIdx.filter fun e => e.2 % 64 != 63).map (·.1)
  let ws := cut 80 (softGroups m code c (demap (32 * mod) nz.1 nz.2 data))
  let r := decodePositions code (iterations false) ws.length (c / 50) zeroPositions (ws ++ zeroPositions)
  let l := (burstBits mod code c (decodedSlots m code c r.1)).take (burstInfo mod code c)
  let marks := (cut 8 (l.map (·.2))).map (·.any id)
  ((cut 8 (scramble sc (l.map (·.1)))).map bitsByte, (List.range marks.length).filter fun i => marks.getD i false,
   r.1.any fun x => x.words.any (·.isNone))

/-- Where a burst's first symbol lies, in 1/256 symbol after the first of its sample codes, when it is expected so many 1/8 symbols after a TC
boundary: 28 of them are one TC (R5, R543). -/
def burstAt (eighths : Int) : Int := rxLead * 896 + 32 * (eighths % 28)

/-- The samples of a burst, two a symbol, from a place in 1/256 symbol after its first code on (R11, R173). -/
def Dev.burstSamples (d : Dev) (sc : Nat) (freq at' : Int) (codes : List (List Int)) : List Cx2 :=
  d.extract sc (d.rxFreq sc (1000 * freq)) 0 at' 0 codes

/-- The outputs of an entry's taps from 16 symbols before the unique word's expected place to 79 after it (R300). -/
def Dev.burstWindow (d : Dev) (e : Option LemEntry) (sc : Nat) (freq at' : Int) (codes : List (List Int)) : List Cx2 :=
  let l := (d.burstSamples sc freq at' codes).drop 480
  (eqRun 0 0 (fun _ _ => none) (min 96 (symbolCount l)) 0 ⟨(e.map (·.taps)).getD (.identity 0), {}⟩ l).1

/-- Receive a burst of p payload symbols from the state of an entry, or from nothing, its first symbol at a place in 1/256 symbol after its first
code (R282, R300, R301); `sw`: the polarisations are swapped. -/
def Dev.receiveBurst (d : Dev) (e : Option LemEntry) (sw : Bool) (sc mod code p : Nat) (codes : List (List Int)) (at' freq fine : Int) :
    BurstGot :=
  let turn := fun s : Cx2 => if sw then s.swap else s
  let pre := preamble.map Sym.known
  let pil := (pilots sc (p / 64)).map Sym.known
  let l := d.burstSamples sc freq at' codes
  let r := eqRun (Config.eqStep (d.conf .sopMode sc == 1)) Config.carrierHold
    (fun i o => (burstRef pre pil mod i (turn o)).map fun r => { r with sym := turn r.sym }) (min (320 + p) (symbolCount l)) 0
    ⟨(e.map (·.taps)).getD (.identity 0), {}⟩ l
  let out := r.1.map turn
  let payload := (out.drop 320).take p
  let sums := pilotSums ((payload.zipIdx.filter fun x => x.2 % 64 == 63).map (·.1)) pil
  let x := burstDecode sc mod code p (noiseOf sums) payload
  let level := (((out.take 256).map fun s => s.x.power + s.y.power).sum) / 512
  ⟨x.1, x.2.1, x.2.2, db100 (combined sums.1.ratio sums.2.ratio), ⟨r.2.taps, fine, freq, sw, level, d.now⟩, r.2.car.slips⟩

/-! ### The preamble (R303) -/

/-- The normalised autocorrelation in 0.01 of symbols with those one symbol on (R303) (DESIGN CHOICE, assumption 210). -/
def autoCorr100 (r : List Cx2) : Nat :=
  let prod := List.zipWith (fun a b => (a.x.mulFull b.x.conj).add (a.y.mulFull b.y.conj)) r r.tail
  let e := ((r.take prod.length).map fun s => s.x.power + s.y.power).sum
  if e = 0 then 0 else 100 * (Cx.total prod).abs / e

/-- The mean power of a preamble's 128 symbols in 2^-32 of the mean power (R303). -/
def preamblePower (r : List Cx2) : Nat := ((r.take 128).map fun s => s.x.power + s.y.power).sum / 256

/-- Context i's preamble power exceeds the other's by `CAPTURE_DB` or more (R303). -/
def Dev.captures (d : Dev) (p q : Nat) : Bool := decide (db100 (p, q) ≥ 100 * d.conf .captureDb) && decide (q < p)

end Sys2Proof.Machine
end

