-- ==== Sys2Proof/Machine/Queues.lean ====
section
/-! DEFINITION. Queues: configuration, admission, scheduling, the trap ring, and PTP stamping of frames (R328 to R332, R424 to R431,
R445 to R447). -/

namespace Sys2Proof.Machine

/-! ### PTP event messages (R328 to R330) -/

/-- Write bytes into a frame at an offset. -/
def patchBytes (f : List Byte) (o : Nat) (b : List Byte) : List Byte := f.take o ++ b ++ f.drop (o + b.length)

/-- A frame with its FCS computed anew. -/
def reFcs (f : List Byte) : List Byte := let b := bodyOf f; b ++ fcs b

/-- The event message that a frame carries, its L3 header at an offset: over Ethernet, or over UDP with IPv4 or IPv6 to port 319
(R328) (PRESUMED, assumption 146). -/
def ptpInfo (f : List Byte) (l3 : Nat) : Option PtpInfo :=
  let e := frame16 f (l3 - 2)
  let at' := fun (o : Nat) (v4 v6 : Bool) =>
    let t := frameByte f o % 16
    if t ≤ 3 then some (⟨o, v4, v6, t, frame16 f (o + 30)⟩ : PtpInfo) else none
  if e = 0x88F7 then at' l3 false false
  else if e = 0x0800 ∧ frameByte f l3 = 0x45 ∧ frameByte f (l3 + 9) = 17 ∧ frame16 f (l3 + 22) = 319 then at' (l3 + 28) true false
  else if e = 0x86DD ∧ frameByte f l3 / 16 = 6 ∧ frameByte f (l3 + 6) = 17 ∧ frame16 f (l3 + 42) = 319 then at' (l3 + 48) false true
  else none

/-- The UDP checksum of a message over IPv4 becomes 0, and the FCS follows (R329, R330). -/
def PtpInfo.seal (i : PtpInfo) (f : List Byte) : List Byte := reFcs (if i.v4 then patchBytes f (i.off - 2) [0, 0] else f)

/-- Add to a message's `correctionField`, in 2^-16 ns. -/
def PtpInfo.correct (i : PtpInfo) (f : List Byte) (x : Int) : List Byte :=
  patchBytes f (i.off + 8) (beBytes 8 (unsigned 64 (signed 64 (beNat (slice f (i.off + 8) 8)) + x)))

/-- The ingress time of an event message at a host port is written into it, or kept for the egress (R328, R330) (DESIGN CHOICE, assumption 212). -/
def Dev.ingressStamp (d : Dev) (port : Option Nat) (mode : Nat) (info : Option PtpInfo) (p : Pkt) : Pkt × Dev :=
  match info, p.arr, port with
  | some i, some t, some n =>
    let took := fun (d : Dev) => (d.modStamps n fun x => { x with rx := (x.rx + 1) % 2 ^ 32 }).count (.port n) 8
    if mode = 0 then (p, d)
    else if mode = 3 then ({ p with keep := some t, arr := none }, took d)
    else if i.v6 then (p, d.modStamps n fun x => { x with unstamped := (x.unstamped + 1) % 2 ^ 32 })
    else
      let f := patchBytes (i.correct p.frame (-(t % 65536))) (i.off + 16) (beBytes 4 (compact t))
      ({ p with frame := i.seal f, arr := none }, took d)
  | _, _, _ => (p, d)

/-- The egress of an event message on a host port at a device time: a stamp item, the time written into it, or its residence added
(R328, R329) (DESIGN CHOICE, assumption 212). -/
def Dev.egressStamp (d : Dev) (n : Nat) (t : Int) (p : Pkt) : Pkt × Dev :=
  let fall := fun (d : Dev) => d.modStamps n fun x => { x with fallback := (x.fallback + 1) % 2 ^ 32 }
  let took := fun (d : Dev) => (d.modStamps n fun x => { x with tx := (x.tx + 1) % 2 ^ 32 }).count (.port n) 8
  match p.ptp with
  | none => (p, d)
  | some i =>
    if p.mode = 1 then (p, took ((d.stamp p.id i.seq n i.type t false false).count .dev 6))
    else if p.mode = 2 then
      if i.v6 then (p, took (fall ((d.stamp p.id i.seq n i.type t false true).count .dev 6)))
      else
        let q := toQTime t
        ({ p with frame := i.seal (patchBytes p.frame (i.off + 34) (beBytes 6 q.sec ++ beBytes 4 q.ns)) },
          took ((d.stamp p.id i.seq n i.type t true false).count .dev 6))
    else if p.mode = 3 then
      match p.keep with
      | some a => if i.v6 then (p, fall d) else ({ p with frame := i.seal (i.correct p.frame (t - a)) }, took d)
      | none => (p, fall d)
    else (p, d)

/-! ### Configuration (R424 to R426, R446) -/

/-- QUEUE.SET (R446). -/
def verbQueueSet : Verb where
  code := 0x3301
  role := .operator
  len := 16
  groups := true
  params := [⟨0, 0, 32, .patch [(.queue, 0, 16383)]⟩, ⟨4, 1, 2, .enum [0, 1, 2]⟩, ⟨5, 0, 8, .range 1 255⟩, ⟨6, 10, 6, .rsv⟩,
    ⟨8, 0, 32, .range 1 33554432⟩, ⟨12, 0, 16, .range 0 4096⟩, ⟨14, 0, 7, .range 1 100⟩, ⟨14, 7, 1, .rsv⟩, ⟨15, 0, 8, .rsv⟩]
  ranges := fun c => (c.p 4 1 2 == 1 && decide (c.p 6 0 10 > 15)) || (c.p 4 1 2 == 2 && c.p 6 0 10 != 0)

/-- What refuses a queue at staging (R446). -/
def queueSetCheck (c : Call) (_ : Dev) (_ : Nat) : Option Status :=
  if c.p 4 4 1 = 1 ∧ (c.p 4 3 1 = 1 ∨ c.p 4 1 2 = 2) then some .badParameter else none

/-- The meaning of `QUEUE.SET`. -/
def bodyQueueSet : Body := stageEach queueSetCheck fun c _ q =>
  [fv .qEn q (c.p 4 0 1) 1, fv .qKind q (c.p 4 1 2) 2, fv .qBuf q (c.p 4 3 1) 1, fv .qExpress q (c.p 4 4 1) 1, fv .qPrio q (c.p 4 5 3) 3,
    fv .qWeight q (c.p 5 0 8) 8, fv .qDest q (c.p 6 0 10) 10, fv .qMax q (c.p 8 0 32) 32, fv .qOndie q (c.p 12 0 16) 13,
    fv .qHigh q (c.p 14 0 7) 7]

/-- QUEUE_SET (R446). -/
def execQueueSet (c : HostCall) (s : State) : Host.Outcome State Fault Refusal := runVerb verbQueueSet bodyQueueSet c s

/-- A destination as one number: a container, 1,024 + a port, 1,040 the trap ring (R424). -/
def destKey (kind id : Nat) : Nat := if kind = 0 then id else if kind = 1 then 1024 + id else 1040

/-- The destination of a queue. -/
def Dev.qDest (d : Dev) (q : Nat) : Nat := destKey (d.conf .qKind q) (d.conf .qDest q)

/-- Validation of queues at a commit (R426, R446). -/
def validateQueue (new : Dev) (es : List Entry) : Option Status :=
  let qs := ((stagedAll es .qEn).map (·.1)).filter fun q => new.conf .qEn q == 1
  let ports := (stagedAll es .portEn).map (·.1) ++ (stagedAll es .contBind).map (·.1)
  let all := if ports.isEmpty then qs else (List.range 16384).filter fun q => new.conf .qEn q == 1
  let on := fun (q : Nat) => (List.range 16384).filter fun k => new.conf .qEn k == 1 && new.qDest k == new.qDest q
  firstOf [
    (all.any fun q => new.conf .qKind q == 0 && new.conf .contBind (2 * new.conf .qDest q) != 1, .containerUndefined),
    (all.any fun q => new.conf .qKind q == 1 && !new.portDirs (new.conf .qDest q) 1, .state),
    (qs.any fun q => (on q).any fun k => new.conf .qExpress k != new.conf .qExpress q, .queueExpressMix)]

/-- A commit's queues take effect: one that is disabled loses its content (R425). -/
def Dev.queueCommit (d : Dev) (es : List Entry) : Dev :=
  (stagedAll es .qEn).foldl (fun d e =>
    if e.2 = 0 then (d.qLose e.1 true).modQueue e.1 fun q => { q with deficit := 0, high := false }
    else d.modQueue e.1 fun q => { q with on := true }) d

/-! ### Admission (R430, R431) -/

/-- Bytes held on die. -/
def QueueSt.ondie (q : QueueSt) : Nat := ((q.items.filter (!·.hbm)).map (·.len)).sum
/-- Part of the queue lies in HBM. -/
def QueueSt.hbmPart (q : QueueSt) : Bool := q.items.any (·.hbm)

/-- A length padded to whole lines (R431). -/
def padLine (n : Nat) : Nat := 64 * ceilDiv n 64

/-- The bytes that a queue takes in HBM, and the pages of 16 KiB for them (R431). -/
def QueueSt.hbmBytes (q : QueueSt) : Nat := q.drained + ((q.items.filter (·.hbm)).map fun i => padLine i.len).sum
/-- Pages. -/
def pagesOf (bytes : Nat) : Nat := ceilDiv bytes 16384

/-- The scheduler of a queue: false transmit, true receive (R424). -/
def Dev.qRx (d : Dev) (q : Nat) : Bool := d.conf .qKind q != 0

/-- The buffer regions of a scheduler on stacks that run. -/
def Dev.bufRegions (d : Dev) (rx : Bool) : List Nat := (d.regions (1 + b2n rx)).filter fun r => d.runs (.hbm (d.rgStack r))

/-- Bytes of the on-die packet buffer in use by a scheduler (R430). -/
def Dev.poolUsed (d : Dev) (rx : Bool) : Nat := ((d.pkt.queues.filter fun e => d.qRx e.1 == rx).map fun e => e.2.ondie).sum

/-- Pages of a scheduler that are free on a stack (R431). -/
def Dev.pagesFree (d : Dev) (rx : Bool) (stack : Nat) : Nat :=
  (((d.bufRegions rx).filter fun r => d.rgStack r == stack).map fun r => 64 * d.conf .rgSize r).sum -
    ((d.pkt.queues.filter fun e => d.qRx e.1 == rx).map fun e => e.2.pages.count stack).sum

/-- The stacks of the next n pages of a scheduler: in turn where it has a region on each, on the other where one is full; none where they do
not all fit (R431) (DESIGN CHOICE, assumption 165). -/
def Dev.newPages (d : Dev) (rx : Bool) (n : Nat) : Option (List Nat) :=
  let on := ((d.bufRegions rx).map d.rgStack).eraseDups
  let turn := d.pkt.paged.getD (b2n rx) 0
  (List.range n).foldl (fun l i => l.bind fun l =>
    let first := on.getD ((turn + i) % on.length) 0
    ((first :: on).find? fun s => decide (l.count s < d.pagesFree rx s)).map fun s => l ++ [s]) (some [])

/-- The lines of each stack from one byte to another of a queue's HBM part, by its pages (R431). -/
def stackLines (pages : List Nat) (from' to' stack : Nat) : Nat :=
  ((pages.zipIdx.filter fun p => p.1 == stack).map fun p => (min to' (16384 * (p.2 + 1)) - max from' (16384 * p.2)) / 64).sum

/-- Lines are read (1) or written (2) in the pages of a queue. -/
def Dev.countLines (d : Dev) (code : Nat) (pages : List Nat) (from' to' : Nat) : Dev :=
  [0, 1].foldl (fun d m => d.count (.hbm m) code (stackLines pages from' to' m)) d

/-- The drop counters of a queue (R447). -/
inductive DropKind where
  | limit | noSpace | bw | other
deriving DecidableEq, Repr

/-- A packet is dropped at a queue: counted, and reported at most once per second for the whole device (R430) (DESIGN CHOICE, assumption 139). -/
def Dev.qDrop (d : Dev) (q : Nat) (k : DropKind) : Dev :=
  let d := d.modQueue q fun x =>
    if !x.on then x else
    match k with
    | .limit => { x with dropLimit := (x.dropLimit + 1) % 2 ^ 32 }
    | .noSpace => { x with dropNoSpace := (x.dropNoSpace + 1) % 2 ^ 32 }
    | .bw => { x with dropBw := (x.dropBw + 1) % 2 ^ 32 }
    | .other => { x with dropOther := (x.dropOther + 1) % 2 ^ 32 }
  d.qDropped q 1

/-- Demand of a user beyond its bandwidth is refused, reported at most once per second per user (R436). -/
def Dev.bwRefused (d : Dev) (user stack : Nat) : Dev :=
  (d.count (.hbm stack) 7).perSecond (7 * 2 ^ 20 + user) 1 fun d _ => d.raiseAt .hbmBwDrop ⟨.hbm, stack⟩ user

/-- A packet goes to new and open pages of its queue in HBM (R431). -/
def Dev.placeHbm (d : Dev) (q : Nat) (rx : Bool) (new : List Nat) (len : Nat) : Dev :=
  let x := d.queue q
  let pages := x.pages ++ new
  let d := d.modPkt fun p => { p with paged := p.paged.mapIdx fun k n => if k = b2n rx then n + new.length else n }
  (d.modQueue q fun x => { x with pages := pages }).countLines 2 pages x.hbmBytes (x.hbmBytes + padLine len)

/-- A packet is placed in its queue. -/
def Dev.place (d : Dev) (q : Nat) (p : Pkt) (hbm : Bool) : Dev :=
  (d.modQueue q fun x => { x with items := x.items ++ [⟨p, hbm⟩], enq := (x.enq + 1) % 2 ^ 64 }).checkHigh q

/-- Admission of a packet to a queue (R426, R430) (DESIGN CHOICE, assumption 165). -/
def Dev.enqueue (d : Dev) (q : Nat) (p : Pkt) (e : PktEnv) : Dev :=
  let x := d.queue q
  let len := p.frame.length
  let rx := d.qRx q
  let buf := d.conf .qBuf q == 1
  let new := d.newPages rx (pagesOf (x.hbmBytes + padLine len) - x.pages.length)
  let w := d.bwWindow (e.late.headD 0)
  let share := w.bwAllows (b2n rx) (padLine len) !e.noShare
  if d.conf .qEn q = 0 ∨ d.conf .qExpress q = 1 then d.qDrop q .other
  else if x.occ + len > d.conf .qMax q * 1024 then d.qDrop q .limit
  else if !x.hbmPart ∧ x.ondie + len ≤ d.conf .qOndie q * 1024 ∧ d.poolUsed rx + len ≤ 4 * 2 ^ 20 then d.place q p false
  else if buf ∧ new.isSome ∧ share then ((w.bwTake (b2n rx) (padLine len)).placeHbm q rx (new.getD []) len).place q p true
  else if buf ∧ !share then (w.qDrop q .bw).bwRefused (b2n rx) (((d.bufRegions rx).map d.rgStack).headD 0)
  else d.qDrop q .noSpace

/-! ### Sending (R425, R428, R445) -/

/-- The trap region, while its stack runs (DESIGN CHOICE, assumption 145). -/
def Dev.trapRegion (d : Dev) : Option Nat := (d.regions 7).find? fun r => d.runs (.hbm (d.rgStack r))

/-- A destination is blocked (R425) (DESIGN CHOICE, assumption 145). -/
def Dev.blocked (d : Dev) (kind id : Nat) : Bool :=
  if kind = 0 then (d.txCarriers id).isEmpty else if kind = 1 then !d.portServes id else d.trapRegion.isNone

/-- A packet is written to the trap ring as a record (R445). -/
def Dev.trapWrite (d : Dev) (q : Nat) (f : List Byte) : Dev :=
  match d.trapRegion with
  | none => d
  | some r =>
    let size := 64 + padLine f.length
    let off := if d.mem.trapOff + size > d.conf .rgSize r * 2 ^ 20 then 0 else d.mem.trapOff
    let head := leBytes 4 d.mem.trapSeq ++ leBytes 2 f.length ++ leBytes 2 q ++ leBytes 4 (compact d.time16)
    let bytes := padTo 64 head ++ padTo (padLine f.length) f
    let base := ((d.rgSpan r).1 * 2 ^ 20 + off) / 64
    let d := (List.range (size / 64)).foldl (fun d k => d.writeLine (base + k) (leNat (slice bytes (64 * k) 64))) d
    d.modMem fun a => { a with trapOff := off + size, trapSeq := (a.trapSeq + 1) % 2 ^ 32 }

/-- A packet of a queue goes to a destination; at a port it leaves at an instant in AC cycles and 2^-16 of one, and in a near-end
loopback comes back (R383, R424, R445). -/
def Dev.sendTo (d : Dev) (q kind id : Nat) (p : Pkt) (cnt cfr : Nat) : Dev :=
  let n := p.frame.length
  let d := d.modQueue q fun x => { x with deq := (x.deq + 1) % 2 ^ 64, deqBytes := (x.deqBytes + n) % 2 ^ 64 }
  if kind = 0 then
    d.modCont id false fun c => { c with
      out := c.out ++ [streamFrame p.outFrame], frames := (c.frames + 1) % 2 ^ 64, bytes := (c.bytes + n) % 2 ^ 64,
      stomped := (c.stomped + b2n (p.stomp || p.failed)) % 2 ^ 32 }
  else if kind = 1 then
    let t := d.time.timeAt cnt cfr + ps16 (signed 32 (d.conf .portTxDelay id))
    let r := d.egressStamp id t p
    let near := d.nearLoop (d.portSpan id)
    let d := r.2.modPort id fun x => { x with
      txFrames := (x.txFrames + 1) % 2 ^ 64, txBytes := (x.txBytes + n) % 2 ^ 64,
      looped := if near then x.looped ++ [r.1.outFrame] else x.looped }
    ((d.count (.port id) 3).count (.port id) 4 n).emit (.hostFrame id r.1.outFrame)
  else d.trapWrite q p.outFrame

/-- An express packet takes its queue's destination without being stored (R411, R426) (DESIGN CHOICE, assumption 139). -/
def Dev.expressSend (d : Dev) (q : Nat) (p : Pkt) (e : PktEnv) : Dev :=
  let kind := d.conf .qKind q
  let id := d.conf .qDest q
  if d.conf .qEn q = 0 ∨ d.blocked kind id then d.qDrop q .other else
  let d := if e.busy then
      (d.modQueue q fun x => { x with waits := (x.waits + 1) % 2 ^ 32 }).perSecond (8 * 2 ^ 20 + q) 1
        fun d _ => d.raiseAt .expressWait ⟨.queue, q⟩ q
    else d
  (d.modQueue q fun x => { x with enq := (x.enq + 1) % 2 ^ 64 }).sendTo q kind id p e.outCnt e.outCfr

/-! ### Scheduling (R427) -/

/-- The queues of a destination that hold a packet. -/
def Dev.ready (d : Dev) (kind id : Nat) : List Nat :=
  (d.pkt.queues.filter fun e => d.conf .qEn e.1 == 1 && d.qDest e.1 == destKey kind id && !e.2.items.isEmpty).map (·.1)

/-- The length of the packet at a queue's head. -/
def Dev.headLen (d : Dev) (q : Nat) : Nat := match (d.queue q).items with
  | i :: _ => i.len
  | [] => 0

/-- Deficit round robin: the turn moves on, each queue taking its quantum, until a queue's deficit covers its packet. The list holds the
queues in the order in which their turns come; at most n visits (DESIGN CHOICE, assumption 143). -/
def Dev.visit (d : Dev) : Nat → List Nat → Option (Nat × Dev)
  | 0, _ => none
  | n + 1, order =>
    match order with
    | [] => none
    | q :: r =>
      let d := d.modQueue q fun x => { x with deficit := x.deficit + 256 * d.conf .qWeight q }
      if d.headLen q ≤ (d.queue q).deficit then some (q, d) else Dev.visit d n (r ++ [q])

/-- The queue that a destination serves next: of the highest level, by deficit round robin in order of queue number (R427) (DESIGN CHOICE, assumption 143). -/
def Dev.choose (d : Dev) (kind id : Nat) : Option (Nat × Dev) :=
  let l := d.ready kind id
  let top := l.foldl (fun m q => max m (d.conf .qPrio q)) 0
  let all := l.filter fun q => d.conf .qPrio q == top
  let k := 8 * destKey kind id + top
  let cur := d.pkt.robin.get (fun _ => 0) k
  let pick := if all.contains cur && decide (d.headLen cur ≤ (d.queue cur).deficit) then some (cur, d)
    else d.visit (65 * all.length) ((all.filter (· > cur)) ++ (all.filter (· ≤ cur)))
  pick.map fun x => (x.1, x.2.modPkt fun p => { p with robin := p.robin.set (fun _ => 0) k x.1 })

/-- The credit that a destination holds in bytes: a container's that of its next chunk's packet stream, a port's that of its MAC
(R428) (DESIGN CHOICE, assumption 144). -/
def Dev.credit (d : Dev) (s : ServiceSlot) : Nat :=
  if s.kind = 0 then
    let c := d.cont s.id false
    d.contK false s.id * 6250 - 8 - ((c.out.map (·.length)).sum - c.sent)
  else if s.kind = 1 then s.credit else 16384

/-- The packet at a queue's head is taken out (R427, R430). -/
def QueueSt.pop (q : QueueSt) : QueueSt :=
  match q.items with
  | [] => q
  | i :: r =>
    let left := r.any (·.hbm)
    let done := if i.hbm then q.drained + padLine i.len else q.drained
    { q with items := r, deficit := if r.isEmpty then 0 else q.deficit - i.len,
             drained := if left then done % 16384 else 0, pages := if left then q.pages.drop (done / 16384) else [] }

/-- QUEUE_SERVICE: the scheduler of a destination starts its next packet where it holds credit for its first 256 bytes; a word in
error that it reads stomps the packet, or costs the queue what its descriptor held (R425 to R428, R439, R440). -/
def execQueueService (q : ServiceSlot) (s : State) : Host.Outcome State Fault Refusal :=
  s.run fun d =>
    if d.blocked q.kind q.id then d else
    match d.choose q.kind q.id with
    | none => d
    | some (n, d') =>
      if d.credit q < min 256 (d.headLen n) then d else
      let d := d'
      match (d.queue n).items with
      | [] => d
      | i :: _ =>
        let d := match q.hit with
          | some h => d.memHit h 1
          | none => d
        let lost := q.hit.any (·.uncorr) && q.descriptor
        let onDie := q.hit.any (·.mem == 5)
        if lost && (onDie || i.hbm) then d.queueLost n onDie
        else
          let d := if lost then d.queueLost n false else d
          let x := d.queue n
          let d := if i.hbm then
              ((d.bwWindow 0).bwTake (b2n (d.qRx n)) (padLine i.len)).countLines 1 x.pages x.drained (x.drained + padLine i.len)
            else d
          let p := if q.hit.any (·.uncorr) && !q.descriptor then { i.pkt with stomp := true } else i.pkt
          ((d.modQueue n QueueSt.pop).sendTo n q.kind q.id p q.cnt q.cfr).checkHigh n

/-! ### Status (R447) -/

/-- QUEUE.STATUS (R447). -/
def verbQueueStatus : Verb where
  code := 0x3302
  role := .observer
  len := 4
  groups := true
  reads := true
  params := [⟨0, 0, 32, .patch [(.queue, 0, 16383)]⟩]

/-- The result fields of a queue (R447). -/
def queueFields (v : Dev) (q : Nat) : List RField :=
  let x := v.queue q
  let stuck := v.conf .qEn q == 1 && v.blocked (v.conf .qKind q) (v.conf .qDest q)
  [rf .sum 0 0 48 x.occ, rf .or 6 0 1 (b2n x.hbmPart), rf .or 6 1 1 (b2n stuck), rf .or 6 2 1 (b2n (decide (100 * x.occ > v.highMark q))),
    rf .sum 8 0 64 x.enq, rf .sum 16 0 64 x.deq, rf .sum 24 0 64 x.deqBytes, rf .sum 32 0 32 x.dropLimit,
    rf .sum 36 0 32 x.dropNoSpace, rf .sum 40 0 32 x.dropBw, rf .sum 44 0 32 x.dropOther, rf .sum 48 0 32 x.waits]

/-- The meaning of `QUEUE.STATUS`. -/
def bodyQueueStatus : Body := readEach 56 fun _ v q => some (queueFields v q)

/-- QUEUE_STATUS (R447). -/
def execQueueStatus (c : HostCall) (s : State) : Host.Outcome State Fault Refusal := runVerb verbQueueStatus bodyQueueStatus c s

end Sys2Proof.Machine
end

