-- ==== Sys2Proof/Machine/Engine.lean ====
section
/-! DEFINITION. A packet's way through the engine: spread, classification, flow action, recirculation, verified release and
exceptions (R10 to R12, R378, R409 to R415, R454 to R466). -/

namespace Sys2Proof.Machine

/-! ### The pipelines (R409) -/

/-- The pipelines of a direction that are awake. -/
def Dev.pipes (d : Dev) (rx : Bool) : List Nat := ((List.range 4).map fun k => 4 * b2n rx + k).filter fun n => d.runs (.pipe n)

/-- Change an entry of a list. -/
def modAt (l : List α) (i : Nat) (f : α → α) : List α := l.mapIdx fun k x => if k = i then f x else x

/-- A packet finds no place in a direction's intake (R409) (DESIGN CHOICE, assumption 134). -/
def Dev.pipeOverrun (d : Dev) (rx : Bool) : Dev :=
  let d := d.modPkt fun p => { p with overrun := modAt p.overrun (b2n rx) fun n => (n + 1) % 2 ^ 32 }
  let d := (List.range 4).foldl (fun d k => d.count (.pipe (4 * b2n rx + k)) 7) d
  d.perSecond (9 * 2 ^ 20 + b2n rx) 1 fun d _ => d.raiseAt .pipeOverrun (clsPatch rx) (b2n rx)

/-- A pass takes the next awake pipeline in strict round robin; none where none is awake or 64 packets wait in the intake, from which each
awake pipeline takes one in a packet cycle (R409) (DESIGN CHOICE, assumption 133, DESIGN CHOICE, assumption 134). -/
def Dev.takePipe (d : Dev) (rx : Bool) (e : PktEnv) : Option Nat × Dev :=
  let l := d.pipes rx
  let q := d.pkt.intake.getD (b2n rx) (0, 0)
  let t := d.pktCycle (e.late.headD 0)
  let left := q.1 - (t - q.2) * l.length
  if l.isEmpty ∨ left ≥ 64 then (none, d.pipeOverrun rx) else
  let k := d.pkt.turn.getD (b2n rx) 0
  let n := l.getD (k % l.length) 0
  (some n, d.modPkt fun p => { p with
    intake := modAt p.intake (b2n rx) fun _ => (left + 1, max t q.2),
    turn := modAt p.turn (b2n rx) (· + 1), spread := p.spread.modify (fun _ => 0) n fun x => (x + 1) % 2 ^ 64 })

/-! ### Where a packet ends (R411 to R415) -/

/-- A packet takes an exception class: counted, reported at most once per second per class and direction, and dropped or queued
unchanged (R415). -/
def Dev.exception (d : Dev) (g : RuleGen) (rx : Bool) (cls pipe : Nat) (p : Pkt) (e : PktEnv) : Dev :=
  let k := 8 * b2n rx + cls
  let d := (d.modPkt fun x => { x with excs := x.excs.modify (fun _ => 0) k fun n => (n + 1) % 2 ^ 64 }).count (.pipe pipe) 3
  let d := d.perSecond (10 * 2 ^ 20 + k) 1 fun d n => d.raiseAt .parseException (clsPatch rx) (cls + 8 * b2n rx + 16 * sat 12 n)
  match g.exc.get (fun _ => none) k with
  | some q => d.enqueue q { p with mode := 0, ptp := none } e
  | none => d

/-- A packet for the controller: discarded when its tag failed, dropped when it is too long or the intake of 64 packets is full (R413, R465). -/
def Dev.toController (d : Dev) (rx : Bool) (pipe : Nat) (port : Option Nat) (p : Pkt) : Dev :=
  if p.failed then d
  else if d.pkt.ctrlIn.length ≥ 64 ∨ p.frame.length > 2048 then
    (d.modPkt fun x => { x with ctrlDrops := (x.ctrlDrops + 1) % 2 ^ 32 }).perSecond (11 * 2 ^ 20) 1
      fun d n => d.raiseAt .ctrlQueueDrop (clsPatch rx) (sat 16 n)
  else (d.modPkt fun x => { x with ctrlIn := x.ctrlIn ++ [(port, p.frame)] }).count (.pipe pipe) 8

/-- Decapsulation: the named bytes go, a frame of less than 64 bytes is padded with zeros, and its FCS computed anew (R411). -/
def FlowAct.decap (a : FlowAct) (p : Pkt) : Pkt :=
  if a.decapLen = 0 then p else
  let b := bodyOf p.frame
  let b := b.take a.decapOff ++ b.drop (a.decapOff + a.decapLen)
  let b := b ++ List.replicate (60 - b.length) 0
  { p with frame := b ++ fcs b }

/-- The rules of a generation number: the active one, else the former one (R418, R419). -/
def Dev.rulesOf (d : Dev) (n : Nat) : RuleGen :=
  if d.pkt.active.gen = n then d.pkt.active else d.pkt.former.getD d.pkt.active

/-- What a flow action's last step does with a packet that makes no further pass (R411, R413) (DESIGN CHOICE, assumption 136). -/
def Dev.deliver (d : Dev) (rx : Bool) (pipe : Nat) (port : Option Nat) (a : FlowAct) (express : Bool) (p : Pkt) (e : PktEnv) : Dev :=
  if a.dest = 1 then (if express then d.expressSend a.queue p e else d.enqueue a.queue p e)
  else if a.dest = 2 then d.toController rx pipe port p
  else d

/-- The ingress port of a source. -/
def PktSrc.port? : PktSrc → Option Nat
  | .port p => some p
  | _ => none

/-- The event message that a packet carries, by its own tags (R328, R398). -/
def RuleGen.ptp (g : RuleGen) (p : Pkt) : Option PtpInfo :=
  match g.tags p.frame with
  | some (_, o) => ptpInfo p.frame (o + 2)
  | none => none

/-- The stamping part of a flow action: what the egress needs, and the ingress stamp of a host port (R328, R330) (DESIGN CHOICE, assumption 137). -/
def Dev.stampStep (d : Dev) (g : RuleGen) (src : PktSrc) (a : FlowAct) (p : Pkt) : Pkt × Dev :=
  let i := g.ptp p
  let r := d.ingressStamp src.port? a.stampMode i p
  ({ r.1 with mode := a.stampMode, id := a.stampId, ptp := i }, r.2)

/-- The discard of a packet under verified release: 1 memory, 2 bandwidth, 3 store full (R466) (DESIGN CHOICE, assumption 156). -/
def Dev.vrDrop (d : Dev) (rx : Bool) (why : Nat) : Dev :=
  ((d.modCrypt fun c => { c with vrDrops := (c.vrDrops + 1) % 2 ^ 64 }).cipherCount 8).perSecond (12 * 2 ^ 20) 1
    fun d _ => d.raiseAt .vrDrop (clsPatch rx) why

/-- The bytes of the verified-release store that are taken (R466). -/
def Dev.heldBytes (d : Dev) : Nat := (d.pkt.held.map fun h => padLine h.pkt.frame.length).sum

/-- A decrypted packet enters the verified-release store, and takes twice its padded length of that share (R436, R466). -/
def Dev.hold (d : Dev) (h : HeldPkt) (e : PktEnv) : Dev :=
  let room := (((d.regions 4).filter fun r => d.runs (.hbm (d.rgStack r))).map fun r => d.conf .rgSize r * 2 ^ 20).sum
  let w := d.bwWindow (e.late.headD 0)
  let n := padLine h.pkt.frame.length
  if !w.bwAllows 3 (2 * n) !e.noVerify then (w.vrDrop h.rx 2).bwRefused 3 (((d.regions 4).map d.rgStack).headD 0)
  else if d.heldBytes + n > room then d.vrDrop h.rx 3
  else ((w.bwTake 3 (2 * n)).modPkt fun p => { p with held := p.held ++ [h] }).cipherCount 7

/-! ### Passes (R405 to R412, R464 to R466) -/

/-- One pass of a packet and those that follow it: at most three (R412) (DESIGN CHOICE, assumption 132, DESIGN CHOICE, assumption 137, DESIGN CHOICE, assumption 138). -/
def Dev.pass : Nat → Bool → PktSrc → Nat → Nat → Pkt → PktEnv → Dev → Dev
  | 0, _, _, _, _, _, _, d => d
  | fuel + 1, rx, src, pass, gen, p, e, d =>
    let t := d.takePipe rx e
    match t.1 with
    | none => t.2
    | some pipe =>
      let d := ((t.2.count (.pipe pipe) 1).count (.pipe pipe) 2 p.frame.length).count (.pipe pipe) 6 (b2n (pass != 0))
      let g := d.rulesOf gen
      match g.classify rx (pass != 0) src.port? p.frame with
      | .exception cls => d.exception g rx cls pipe p e
      | .flow n express missed =>
        let d := d.modPkt fun x => { x with
          flows := x.flows.modify (fun _ => (0, 0)) n fun c => ((c.1 + 1) % 2 ^ 64, (c.2 + p.frame.length) % 2 ^ 64) }
        let d := (d.count (.pipe pipe) 4 (b2n express)).count (.pipe pipe) 5 (b2n missed)
        let a := g.act n
        let next := fun (p : Pkt) (d : Dev) =>
          if a.recirc = 0 then d.deliver rx pipe src.port? a express p e
          else Dev.pass fuel rx src (pass + 1) gen p { e with late := e.late.tail } d
        if a.recirc ≠ 0 ∧ pass ≥ 2 then d.exception g rx 5 pipe p e
        else
          let p := a.decap p
          if a.crypt = 0 then let r := d.stampStep g src a p; next r.1 r.2
          else if a.crypt = 1 then
            let r := d.stampStep g src a p
            match r.2.encrypt rx src.port?.isSome a.ctx r.1 e with
            | (none, d) => d
            | (some q, d) => next q d
          else if a.verified && p.failed then d
          else match d.decrypt rx a.ctx p e with
            | (none, d) => d
            | (some x, d) =>
              if a.verified then d.hold ⟨rx, src, pass, gen, n, a, x.pkt, x.an, x.pn, x.good⟩ e
              else
                let d := d.tagVerdict rx a.ctx x.an x.pn x.good
                let r := d.stampStep g src a { x.pkt with failed := p.failed || !x.good }
                next r.1 r.2

/-- The effect on the device of a word in error that a packet's passage reads: its report, and whether the packet is dropped (R440,
R470) (DESIGN CHOICE, assumption 133). -/
def Dev.pktHit (d : Dev) (e : PktEnv) : Bool × Dev :=
  match e.hit with
  | none => (false, d)
  | some h =>
    let d := d.memHit h 1
    let lost := h.uncorr && (h.mem == 2 || h.mem == 8)
    (lost, if h.mem = 3 then d.wordLost h
      else if lost then d.modPkt fun p => { p with hitDrops := p.hitDrops.modify (fun _ => 0) h.mem (· + 1) } else d)

/-- A packet enters the engine (R10, R11, R418) (DESIGN CHOICE, assumption 132). -/
def Dev.pktIn (d : Dev) (rx : Bool) (src : PktSrc) (p : Pkt) (e : PktEnv) : Dev :=
  let r := d.pktHit e
  if r.1 then r.2 else Dev.pass 3 rx src 0 d.pkt.active.gen p e r.2

/-- VERIFIED_RELEASE: the verdict of the oldest packet held: released, it goes on; failed, it never leaves (R466). -/
def execVerifiedRelease (e : PktEnv) (s : State) : Host.Outcome State Fault Refusal :=
  s.run fun d =>
    match d.pkt.held with
    | [] => d
    | h :: r =>
      let d := d.modPkt fun p => { p with held := r }
      let d := (d.pktHit e).2
      if e.hit.any (·.uncorr) then d.vrDrop h.rx 1
      else
        let d := d.tagVerdict h.rx h.act.ctx h.an h.pn h.good
        if !h.good then d
        else
          let x := d.stampStep (d.rulesOf h.gen) h.src h.act h.pkt
          let pipe := (d.pipes h.rx).headD (4 * b2n h.rx)
          if h.act.recirc = 0 then x.2.deliver h.rx pipe h.src.port? h.act false x.1 e
          else Dev.pass (2 - h.pass) h.rx h.src (h.pass + 1) h.gen x.1 e x.2

/-! ### Host frames (R378) -/

/-- What a port takes in: in a near-end loopback of all its lanes the frames that it sends, one after another, and of some of them nothing,
since words of two streams make no codeword row; in a far-end one every frame leaves again, and the stores' slips count (R383,
assumption 215). -/
def Dev.hostSeen (d : Dev) (f : HostFrame) : Option HostFrame × Dev :=
  let span := d.portSpan f.port
  let d := (List.range span.length).foldl (fun d i =>
    let k := f.port + i
    let d := d.modLane k fun x => { x with symbols := (x.symbols + f.symbols.getD i 0) % 2 ^ 64 }
    if d.farLoop [k] then d.laneSlip k (f.slips.getD i 0) else d) d
  if span.any (fun k => d.nearLoop [k]) && !d.nearLoop span then (none, d)
  else if d.nearLoop span then
    match (d.portSt f.port).looped with
    | [] => (none, d)
    | b :: r => (some { f with frame := b }, d.modPort f.port fun x => { x with looped := r })
  else (some f, if d.farLoop span ∧ d.portAwake f.port 1 then d.emit (.hostFrame f.port f.frame) else d)

/-- A frame of a port that is up: discarded for its FCS or length, or taken in (R330, R378). -/
def Dev.hostFrame (d : Dev) (f : HostFrame) (e : PktEnv) : Dev :=
    let n := f.frame.length
    let x := d.portSt f.port
    let say := x.uncorrSaid.add d.now f.uncorr
    let d := (d.count (.port f.port) 6 f.corrected).count (.port f.port) 7 f.uncorr
    let d := d.modPort f.port fun x => { x with
      corrected := (x.corrected + f.corrected) % 2 ^ 64, uncorr := (x.uncorr + f.uncorr) % 2 ^ 64,
      uncorrSaid := if f.uncorr = 0 then x.uncorrSaid else say.2 }
    let d := match f.uncorr, say.1 with
      | 0, _ | _, none => d
      | _, some c => d.raiseAt .portFecUncorr ⟨.port, f.port⟩ (sat 16 c)
    if n < 64 ∨ n > d.conf .portMax f.port ∨ f.frame.drop (n - 4) ≠ fcs (bodyOf f.frame) then
      (d.modPort f.port fun x => { x with discards := (x.discards + 1) % 2 ^ 32 }).count (.port f.port) 5
    else
      let d := d.modPort f.port fun x => { x with rxFrames := (x.rxFrames + 1) % 2 ^ 64, rxBytes := (x.rxBytes + n) % 2 ^ 64 }
      let d := (d.count (.port f.port) 1).count (.port f.port) 2 n
      let t := d.time.timeAt f.cnt f.cfr - ps16 (signed 32 (d.conf .portRxDelay f.port))
      d.pktIn false (.port f.port) { frame := f.frame, arr := some t } e

/-- HOST_FRAME_RECEIVED (R330, R378, R383). -/
def execHostFrameReceived (f : HostFrame) (e : PktEnv) (s : State) : Host.Outcome State Fault Refusal :=
  s.run fun d =>
    if f.port > 15 ∨ !d.portAwake f.port 0 then d else
    let r := d.hostSeen f
    match r.1, (d.portSt f.port).up with
    | some f, true => r.2.hostFrame f e
    | _, _ => r.2

end Sys2Proof.Machine
end

