-- ==== Sys2Proof/Machine/LineRx.lean ====
section
/-! DEFINITION. What a subcarrier's receiver takes in: frames, multiframe boundaries and chunks, and the transmit multiframe boundary
(R150, R151, R226, R227, R233, R234, R239, R333). -/

namespace Sys2Proof.Machine

/-! ### Multiframe boundaries -/

/-- TX_MULTIFRAME_BOUNDARY: the announcement advances, time-transfer settings come into force, and the departure of the frame
with k = 0 is stamped at the last register before the DAC (R150, R283, R327, R333, R340, R545). -/
def execTxMultiframeBoundary (sc : Nat) (s : State) : Host.Outcome State Fault Refusal :=
  s.run fun d =>
    if sc ≥ 32 ∨ !d.runs (.sc sc) then d else
    let t := (d.sc sc).tx
    let k := t.start + 256 * (t.mf + 1) - t.first
    let d := (d.at (d.frameStart k)).modTx sc fun t => { t with mf := t.mf + 1 }
    let d := ((d.announceStep sc).ttSettings 0).frameTick 1 sc
    let i := d.tcInstant (d.departs sc (256 * (t.mf + 1))).toNat
    d.ttDepart 0 sc (d.newStamp ((t.mf + 1) % 2 ^ 24) i.1 i.2 d.now)

/-- The subcarriers that are in frame with their phase known. -/
def Dev.phased (d : Dev) : List Nat := d.contScs.filter fun n => (d.sc n).fr.state == .inFrame && (d.sc n).fr.phase

/-- Once a multiframe, at the received boundary of the lowest subcarrier that is in frame with its phase known, and at a leaf of its
home subcarrier, the offset of the line is computed (R335, R337). -/
def Dev.ttMultiframe (d : Dev) (n : Nat) : Dev :=
  match d.role with
  | .p2p => if d.phased.head? = some n then d.ttPair 0 d.phased d.line.cdApplied else d
  | .leaf =>
    if n = d.home ∧ d.homeUp then
      d.ttLeaf n (if d.leaf.state = .active ∧ d.leaf.rtdKnown then some (d.leaf.rtd : Int) else none) d.line.cdApplied
    else d
  | _ => d

/-- RX_MULTIFRAME_BOUNDARY: the estimates of the multiframe that ends, then the switch of an armed plan (R137, R151, R155, R156,
R176, R179, R335). -/
def execRxMultiframeBoundary (sc : Nat) (m : MultiMeas) (s : State) : Host.Outcome State Fault Refusal :=
  s.run fun d =>
    if !d.contScs.contains sc ∨ (d.sc sc).eq.state = .off then d else
    let d := ((d.snrMultiframe sc).eqMultiframe sc m).narrowPosition sc
    (((d.rxArmed sc).checkFacility sc).ttMultiframe sc).frameTick 2 sc

/-! ### A frame's overhead (R226, R227) -/

/-- An overhead is used (R226): its CRC and its subcarrier number are right. -/
def ohGood (n : Nat) (oh : List Byte) : Bool :=
  oh.length == 512 && crc32 (oh.take 508) == beNat (oh.drop 508) && (oh.getD 4 0).toNat % 32 == n

/-- An overhead is ignored: counted, and reported at most once per second with the errors of the last second (R226). -/
def Dev.ohError (d : Dev) (n : Nat) : Dev :=
  let r := (d.sc n).fr.ohSaid.add d.now 1
  let d := (d.modFr n fun f => { f with ohErrors := (f.ohErrors + 1) % 2 ^ 32, ohSaid := r.2 }).count (.sc n) 8
  match r.1 with
  | some c => d.raiseSc .ohCrc n (sat 16 c)
  | none => d

/-- The plan and the entries of a slot map's 36 bytes (R227). -/
def mapOfBytes (b : List Byte) : Nat × List Nat :=
  ((b.getD 0 0).toNat / 16, trimMap ((List.range 17).map fun p => beNat (slice b (2 + 2 * p) 2)))

/-- The maps that a good overhead carries are stored under their `PLAN_ID`; the plan in force takes the one stored under its own from the
next frame on (R227). -/
def Dev.takeMaps (d : Dev) (n : Nat) (oh : List Byte) : Dev :=
  let act := mapOfBytes (slice oh 32 36)
  let nxt := mapOfBytes (slice oh 68 36)
  d.modRx n fun r =>
    let maps := (r.maps.set (fun _ => []) nxt.1 nxt.2).set (fun _ => []) act.1 act.2
    { r with
      maps := maps,
      plan := r.plan.map fun p => if p.id = act.1 then { p with map := some act.2 }
        else if p.id = nxt.1 then { p with map := some nxt.2 }
        else if p.map.isNone then { p with map := some act.2 } else p }

/-- Received protection signalling is stored under its group (R267). -/
def Dev.takePs (d : Dev) (oh : List Byte) : Dev :=
  let g := (oh.getD 208 0).toNat
  if g < 80 then d.modProt g fun x => { x with farPs := beNat (slice oh 208 2) } else d

/-- The grants of a frame that name this leaf, for upstream frame F + 2, on its time-shared home subcarrier (R293, R294, R299) (DESIGN CHOICE, assumption 109). -/
def Dev.takeGrants (d : Dev) (n : Nat) (oh : List Byte) : Dev :=
  if d.role ≠ .leaf ∨ n ≠ d.home ∨ !d.txShared n then d else
  let l := (List.range 8).filterMap fun s =>
    let r := beNat (slice oh (258 + 4 * s) 4)
    if r / 2 ^ 20 = d.leaf.id ∧ d.leaf.id ≠ 0xFFF ∧ bit r 19 then some (⟨n, (d.leaf.no + 2) % 2 ^ 32, s, r⟩ : LeafGrant) else none
  let f := (d.leaf.no + 2) % 256
  d.modOwn fun o => { o with grants := o.grants ++ l, starts := (o.starts.filter (·.1 != f)) ++ l.map fun g => (f, g.slot) }

/-- What a good overhead of the frame with index k gives. -/
def Dev.takeOverhead (d : Dev) (n cnt cfr : Nat) (o : List Byte) (k : Nat) : Dev :=
  let d := d.modFr n fun x => { x with oh := o }
  let d := (d.rxLoading n (slice o 8 8)).takeMaps n o
  let d := if d.role = .leaf then d else
    let v := beNat (slice o 6 2)
    d.modLine fun l => { l with farReport := if v = 0x8000 then none else some (signed 16 v) }
  let d := (d.secOverhead n k o).takePs o
  let own := match d.role with
    | .p2p => d.phased.head? == some n
    | .leaf => n == d.home
    | _ => true
  let d := if own then d.cellIn (d.lineLink n) (slice o 16 16) else d
  let d := d.ttTake 0 n k (beNat (slice o 1 3)) (slice o 160 16)
  let d := if k = 0 then
      let i := d.atAdc cnt (cfr % 65536)
      d.ttArrive 0 n (d.newStamp (beNat (slice o 1 3)) i.1 i.2 cnt)
    else d
  d.takeGrants n o

/-- A facility loopback takes in a payload area: its store holds one; a second one drops the first (R240). -/
def Dev.loopTake (d : Dev) (n : Nat) (payload : List Byte) : Dev :=
  if d.conf .loopMode (1 + n) ≠ 3 ∨ d.conf .loopMode 0 ≠ 0 then d else
  d.modFr n fun f => { f with
    loop := [payload], looped := false, slips := if f.loop.length ≥ 1 ∧ !f.looped then (f.slips + 1) % 2 ^ 32 else f.slips }

/-- The containers of a delivered frame, by the plan's slot map and the chunk pointers of the last good overhead; where the frame is flagged
or the section fails every byte is marked (R227, R228, R230, R233, R259). -/
def Dev.lineCut (d : Dev) (n : Nat) (map : List Nat) (good flagged : Bool) (x : RxInfo) : Dev :=
  let slots := x.payload.length / 6250
  let o := (d.sc n).fr.oh
  let marks := if flagged || d.secFailed n then List.range x.payload.length else x.marks
  (mapConts map).foldl (fun d c =>
    let ps := (List.range slots).filter fun p => entryCont (map.getD p 0) == some c
    let low := ps.headD 0
    d.cutShare false n c (6250 * ps.length) (shareOf slots (ps.contains ·) x.payload marks) (beNat (slice o (104 + 3 * low) 3) / 128)
      (if good then some (o.getD (180 + low) 0).toNat else none)) d

/-- What has come of chunks of the containers that a subcarrier carries is dropped, with a frame of it that is not delivered. -/
def Dev.dropCuts (d : Dev) (n : Nat) : Dev :=
  let d := (mapConts (((d.sc n).rx.plan.bind (·.map)).getD [])).foldl Dev.pathGap d
  d.modOver fun o => { o with cuts := o.cuts.filter fun e => decide (1024 ≤ e.1) || !(d.rxCarriers e.1).all (· == n) }

/-- A delivered frame: its overhead, its section block, a facility loopback, and its containers (R210, R226, R227, R251, R260). `flagged`:
by R209 or R210; `bad`: uncorrectable. -/
def Dev.deliverFrame (d : Dev) (n : Nat) (f : TakenFrame) (k : Nat) (flagged bad : Bool) : Dev :=
  let x := f.info
  let good := ohGood n x.oh
  let map := f.plan.map
  let d := if map.isNone then d.modRx n fun r => { r with lost := (r.lost + 1) % 2 ^ 32 } else d
  let d := if d.role = .leaf ∧ n = d.home then
      d.homeFrame f.cnt (f.cfr % 65536) (if good then some (beNat (slice x.oh 1 3) * 256 + k) else none)
    else d
  let d := if f.first then d.modSec n fun s => { s with bip := none } else d
  let d := if good then d.takeOverhead n f.cnt f.cfr x.oh k else (d.ohError n).traceGap n
  let d := ((d.secJudge n).secBlock n bad (if good && !flagged then some (bip8 x.payload) else none)).loopTake n x.payload
  match map with
  | some m => d.lineCut n m good flagged x
  | none => d.dropCuts n

/-- A decoded frame that is not delivered (R239): it is a section block, nothing of it is compared, and no chunk runs through it. -/
def Dev.undelivered (d : Dev) (n : Nat) (bad : Bool) : Dev := (((d.secJudge n).secBlock n bad none).traceGap n).dropCuts n

/-- The index mod 64 of the frame that its matcher blocks are read by: the next one while the phase is known, else 0 (R221, R239). -/
def FrSc.nextK (f : FrSc) : Nat :=
  match f.phase, f.k with
  | true, some k => (k + 1) % 256
  | _, _ => 0

/-- A decoded frame is counted, and delivered where the phase is known (R213, R239). -/
def Dev.finishFrame (d : Dev) (n : Nat) (t : TakenFrame) : Dev :=
  let d := d.fecFrame n t
  let flagged := t.first || t.due
  match t.phase, t.k with
  | true, some k => d.deliverFrame n t k flagged (flagged || t.found.bad)
  | _, _ => d.undelivered n (flagged || t.found.bad)

/-- A frame that the plan beacon's path counts as lost: it is not delivered, and no statistic has it (R152, R213). -/
def Dev.loseFrame (d : Dev) (n : Nat) (t : TakenFrame) : Dev := d.undelivered n (t.first || t.due || t.found.bad)

/-- The frame that was held for its beacon's sake is not lost after all (R152) (DESIGN CHOICE, assumption 90). -/
def Dev.releaseHeld (d : Dev) (n : Nat) : Dev :=
  match (d.sc n).fr.held with
  | some t => (d.modFr n fun f => { f with held := none }).finishFrame n t
  | none => d

/-- A frame in `IN_FRAME` whose receive plan is known: decoded, deframed and its mark read. One whose beacon names another plan waits for
the next frame's: where that names the same, both are lost (R152, R209, R210, R213, R227, R239) (DESIGN CHOICE, assumption 9, DESIGN CHOICE,
assumption 90). -/
def Dev.frameDecoded (d : Dev) (f : RxFrame) (p : Plan) (beacon : Nat) (mark : Bool) (m : RxDecoded) : Dev :=
  let n := f.sc
  let named := match beaconPlan beacon with
    | some b => b.id != p.id || b.h != p.h || b.code != p.code
    | none => false
  let due := d.fastDue n
  let w := if due then d.draw else (0, d)
  let m := if due then m.lapse w.1 else m
  let x := deframe n p.h p.code (d.sc n).fr.nextK (d.sc n).fec.tail m
  let d := w.2.phaseFrame n mark (if ohGood n x.oh then some (x.oh.getD 0 0).toNat else none)
  let here := (d.sc n).fr
  let t : TakenFrame := ⟨f.cnt, f.cfr, p, here.phase, here.k, (d.sc n).fec.first, due, { m with slots := [], after := [], hist := [] }, x⟩
  let d := d.modFec n fun c => { c with decoding := true, first := false, hist := m.hist, tail := x.tail }
  if !named then (d.releaseHeld n).finishFrame n t
  else if (d.sc n).rx.beacon = some beacon then
    match (d.sc n).fr.held with
    | some h => ((d.modFr n fun f => { f with held := none }).loseFrame n h).loseFrame n t
    | none => d.loseFrame n t
  else (d.releaseHeld n).modFr n fun f => { f with held := some t }

/-- A frame in `IN_FRAME`: its pilots and its word, the decoder, then its beacon, which counts from the next frame on (R136, R152, R206,
R210). -/
def Dev.frameIn (d : Dev) (f : RxFrame) (out ahead : List Cx2) (sums : PilotSum × PilotSum) : Dev :=
  let n := f.sc
  let beacon := beaconOf n (pilotsOf out)
  let own := noiseOf sums
  let d := d.count (.sc n) 1
  let d := match (d.sc n).rx.plan with
    | some p => d.frameDecoded f p beacon (markOf (out.take 64)) (d.decode n p out ahead own)
    | none => (d.releaseHeld n).fecIdle n
  (d.rxBeacon n beacon).modSc n fun s => { s with
    snr := { s.snr with sumX := s.snr.sumX.join sums.1, sumY := s.snr.sumY.join sums.2, noise := some own } }

/-- A frame's sample codes begin in this TC: 2,400 before that of its first symbol at the ADC sample register (R543). -/
def Dev.codesFrom (d : Dev) (f : RxFrame) : Int := d.adcTotal f.cnt f.cfr / 1000000000000000 - rxLead

/-- The turn in 1/320,000,000 of the mixing of a frame as its codes begin: it goes on from where the frame before left it (R180, R182). -/
def Dev.mixFrom (d : Dev) (f : RxFrame) : Nat :=
  let e := (d.sc f.sc).eq
  match e.mixAt with
  | some t => ((e.mixTurn + e.mixKhz * 128 * (d.codesFrom f - t)) % 320000000).toNat
  | none => 0

/-- A frame's samples, two a symbol, and of the symbols that follow it (R11, R173, R178). -/
def Dev.frameSamples (d : Dev) (f : RxFrame) : List Cx2 :=
  let e := (d.sc f.sc).eq
  let frac := d.adcTotal f.cnt f.cfr % 1000000000000000
  d.rxSamples f.sc (d.extract f.sc (d.rxFreq f.sc e.freqKhz) (d.mixFrom f)
    (rxLead * 896 + 4 * roundDiv (frac * 224) 1000000000000000) e.rateFine f.codes)

/-- What the receiver makes of a frame: its outputs and those of the symbols that follow, with swap and turns taken out where the aligner is in
frame; the loops after it; and the slips that its known symbols and the next one have undone. -/
structure Equalised where
  out : List Cx2
  ahead : List Cx2
  loop : RxLoop
  slips : Nat

/-- The reference of a symbol of a frame, or of those that follow it (R173, R238). -/
def Dev.refOf (d : Dev) (f : RxFrame) (word pil : List Cx2) (i : Nat) (o : Cx2) : Option SymRef :=
  let s := d.sc f.sc
  let h := s.rx.plan.map (·.h)
  if s.eq.state = .preconv then some (modulusRef o)
  else if s.fr.state = .inFrame then
    (frameRef word pil h (i % 87500) (s.fr.correct o)).map fun r => { r with sym := s.fr.uncorrect r.sym }
  else gridRef f.grid h i o

/-- The equaliser and carrier recovery over a frame; over the symbols that follow, which the next frame brings again, the taps stay (R173, R174,
R182, R238). -/
def Dev.equalise (d : Dev) (f : RxFrame) : Equalised :=
  let s := d.sc f.sc
  let ref := d.refOf f wordKnown (knownPilots f.sc 1366)
  let l := d.frameSamples f
  let n := min 87500 (symbolCount l)
  let a := eqRun (Config.eqStep (d.conf .sopMode f.sc == 1)) Config.carrierHold ref n 0 ⟨s.eq.taps, { s.eq.car with adv := {}, slips := 0 }⟩ l
  let rest := l.drop (2 * n)
  let b := eqRun 0 Config.carrierHold ref (symbolCount rest) n a.2 rest
  let next := eqRun 0 Config.carrierHold ref (min 1 (symbolCount rest)) n a.2 rest
  let fix := fun l : List Cx2 => if s.fr.state = .inFrame then l.map s.fr.correct else l
  ⟨fix a.1, fix b.1, a.2, next.2.car.slips⟩

/-- The frequency in kHz that pilots' turns advance by, from one to the next 64 symbols on (R182). -/
def Carrier.khz (c : Carrier) : Int := roundDiv (fxTurn c.adv.re c.adv.im * 8750000) (64 * fxOne)

/-- After a frame: taps and carrier go on, the residual frequency follows within ±20 MHz, the frame's arrival is taken in, and the taps'
rotation against those before (R173, R176, R178, R182, assumption 223). -/
def Dev.eqAfter (d : Dev) (f : RxFrame) (e : Equalised) : Dev :=
  let from' := d.codesFrom f
  let turn := d.mixFrom f
  let khz := d.rxFreq f.sc (d.sc f.sc).eq.freqKhz
  let t := d.adcTotal f.cnt f.cfr
  d.modEq f.sc fun q => { q with
    taps := e.loop.taps, hist := (e.loop.taps :: q.hist).take 5, car := e.loop.car,
    freqKhz := clampTo 20000 (q.freqKhz + e.loop.car.khz), mixAt := some from', mixTurn := turn, mixKhz := khz,
    sopPeak := max q.sopPeak (Config.tapsSop q.taps.nums e.loop.taps.nums),
    arrived := some t }

/-- A frame in `PRECONV`: the taps learn from the outputs' moduli, whose error stands for the attempt (R173, R190). -/
def Dev.preconvFrame (d : Dev) (f : RxFrame) : Dev :=
  let e := d.equalise f
  d.modEq f.sc fun q => { q with taps := e.loop.taps, modErr := if e.out.isEmpty then q.modErr else some (modulusError e.out) }

/-- The sums of a frame's pilots: in frame of the first 1,350 known ones, else of those at the grid (R137, R191). -/
def Dev.frameSums (d : Dev) (n : Nat) (grid : Option Nat) (out : List Cx2) : PilotSum × PilotSum :=
  if (d.sc n).fr.state = .inFrame then pilotSums (pilotsOf out) (knownPilots n 1350)
  else match grid with
    | some g => gridPilots g out
    | none => ({}, {})

/-- The equaliser's checks of a frame: in `TRACK` its convergence, else its grid (R190, R191). -/
def Dev.frameCheck (d : Dev) (n : Nat) (grid : Option Nat) (out : List Cx2) (sums : PilotSum × PilotSum) : Dev :=
  match (d.sc n).eq.state with
  | .track => d.convFrame n (db100 (combined sums.1.ratio sums.2.ratio)) (singular out)
  | _ => d.gridFrame n grid

/-- A frame in `GRID` or `TRACK`: the equaliser's checks, the aligner's, by the word that ends the frame and the frame's pilots, then the frame
itself (R190, R191, R226, R238). -/
def Dev.alignedFrame (d : Dev) (f : RxFrame) : Dev :=
  let n := f.sc
  let e := d.equalise f
  let sums := d.frameSums n f.grid e.out
  let d := ((d.eqAfter f e).slips n e.slips).frameCheck n f.grid e.out sums
  let d := d.alignFrame n (({ word := e.ahead.take 64, pilots := pilotsOf e.out } : FrameSyms).meas n)
  if (d.sc n).fr.state = .inFrame then d.frameIn f e.out e.ahead sums else d.releaseHeld n

/-- After a frame the section's defects, and the paths and groups that depend on it, are evaluated (R257 to R259, R267). -/
def Dev.sectionAfter (d : Dev) (n : Nat) : Dev :=
  let d := d.secEval n
  ((d.pathKeys.filter fun k => k < 1024 && (d.rxCarriers k).contains n).foldl Dev.pathEval d).protEvalAll

/-- LINE_FRAME_RECEIVED: stages 1 to 3 over the frame's sample codes; in `PRECONV` the taps learn from them, in `GRID` and `TRACK` the frame goes on
(R11, R163, R173, R190). -/
def execLineFrameReceived (f : RxFrame) (s : State) : Host.Outcome State Fault Refusal :=
  s.run fun d =>
    if !d.contScs.contains f.sc ∨ !d.bandUp f.sc then d else
    let d := d.frontTrack f.sc f.codes
    match (d.sc f.sc).eq.state with
    | .preconv => d.preconvFrame f
    | .grid | .track => (d.alignedFrame f).sectionAfter f.sc
    | _ => d

/-! ### Chunks (R233, R234, R259) -/

/-- Deliveries of a packet stream go to the packet engine, each with what it meets there. -/
def Dev.deliverAll (d : Dev) (src : PktSrc) : List Delivery → List PktEnv → Dev
  | [], _ => d
  | x :: r, es => Dev.deliverAll (d.pktIn true src { frame := x.1, stomp := x.2 } (es.headD {})) src r (es.drop 1)

/-- A loss of a container's stream position, reported at most once per second (R233). -/
def Dev.delineation (d : Dev) (c : Nat) : Dev :=
  let x := d.cont c true
  let ev := d.oncePerSecond x.delinAt
  let d := (d.modCont c true fun x => { x with
    delin := (x.delin + 1) % 2 ^ 32, delinAt := if ev then some d.now else x.delinAt }).count .line 6
  if ev then d.raiseLine .containerDelineation c else d

/-- What `FRAME.CONTAINER_STATUS` counts of a received chunk: errors, jumps of `PFN`, and the last one (R246). -/
def ContSt.counted (x : ContSt) (c : Nat) (ch : Chunk) : ContSt :=
  let jump := ch.ok && x.rxPfn.any fun p => (p + 1) % 65536 != ch.pfn
  { x with
    chunkErrors := (x.chunkErrors + b2n (!ch.ok || ch.ci != 0 || ch.cid != c)) % 2 ^ 32, pfnJumps := (x.pfnJumps + b2n jump) % 2 ^ 32,
    rxPfn := if ch.ok then some ch.pfn else x.rxPfn, lastPfn := if ch.ok then ch.pfn else x.lastPfn }

/-- A chunk at the decapsulator of a container that ends here: a bad one cuts the frame in progress and drops the stream position; a
good one continues the stream or starts it again (R233) (DESIGN CHOICE, assumption 93). -/
def Dev.sinkChunk (d : Dev) (c : Nat) (ch : Chunk) (envs : List PktEnv) : Dev :=
  let x := d.cont c true
  let jump := ch.ok && x.rxPfn.any fun p => (p + 1) % 65536 != ch.pfn
  let wrong := ch.ok && ch.cid != c
  let bad := !ch.ok || jump || wrong || ch.ci != 0
  let x := x.counted c ch
  let r : List Delivery × Bool × ContSt :=
    if bad then
      let y := x.cutFrame
      (y.1, x.sync, y.2)
    else x.stretch ch.first ch.payload (ch.marks.filterMap fun m => if m < 8 then none else some (m - 8))
  let d := d.modCont c true fun _ => r.2.2
  let d := if r.2.1 then d.delineation c else d
  let d := d.count .line 7 (r.1.filter (·.2)).length
  d.deliverAll (.cont c) r.1 envs

/-- A chunk that ends here and whose container differs from the slot map's, or, for the copy of a protected container, from its
working one's, whose bytes it carries (R233, R268). -/
def Dev.mapMismatch (d : Dev) (n : Nat) (ch : Chunk) (c : Nat) : Dev :=
  if ch.ok ∧ ch.cid ≠ c then
    (d.modFr n fun f => { f with mapMismatch := (f.mapMismatch + 1) % 2 ^ 32 }).raiseSc .slotmapMismatch n ch.cid
  else d

/-- The transmit container that a stitch identifier feeds (R243, R388). -/
def Dev.stitchTarget (d : Dev) (id : Nat) : Option Nat :=
  (d.listed .contBind).findSome? fun i =>
    if i % 2 = 0 ∧ d.conf .contBind i = 2 ∧ d.conf .contStitch i = id then some (i / 2) else none

/-- A relay store slips: it is emptied, the slip counted and reported (R234) (DESIGN CHOICE, assumption 166). -/
def Dev.relaySlip (d : Dev) (c : Nat) : Dev :=
  ((d.modCont c false fun x => { x with relay := [], relaying := false, slips := (x.slips + 1) % 2 ^ 32 }).raiseLine .containerSlip c).count .stitch 5

/-- The level in TC of a relay store when the next chunk arrives, t being the TC count: 768 with the first, and less by as much as a later
one comes late (R234). -/
def ContSt.level (x : ContSt) (t : Int) : Int := 768 - (t - x.relayFrom - x.relayIn * 25000)

/-- The TC count of a counter value. -/
def Dev.tcOf (d : Dev) (c : Nat) : Int := d.tcTotal c / 1000000000000000

/-- A chunk for the stitch port leaves unchanged with the next stitch frame (R234). -/
def Dev.relayOut (d : Dev) (c : Nat) (ch : Chunk) : Dev :=
  (d.modCont c true fun x => { x with relay := x.relay ++ [ch], relaying := true }).count .stitch 4

/-- A chunk from the stitch port enters the relay store of a transmit container: the first sets the level; one that would take it out of
0 to 1,536 TC makes the store slip (R234) (DESIGN CHOICE, assumption 166). -/
def Dev.relayIn (d : Dev) (c : Nat) (ch : Chunk) (at' : Nat) : Dev :=
  let x := d.cont c false
  let t := d.tcOf at'
  if x.relaying ∧ (x.level t < 0 ∨ 1536 < x.level t) then d.relaySlip c
  else
    (d.modCont c false fun x => { x with
      relay := x.relay ++ [ch], relaying := true, relayFrom := if x.relaying then x.relayFrom else t,
      relayIn := if x.relaying then x.relayIn + 1 else 1 }).count .stitch 4

/-- A chunk of a receive container, with what meets its store's chunk or its packets: to a group's store, to the sink, to the stitch port, or nowhere (R233, R234, R258, R259, R264). -/
def Dev.lineChunk (d : Dev) (r : RxPiece) (envs : List PktEnv) : Dev :=
  let n := r.sc
  let c := r.id
  let ch := Chunk.read r.bytes r.marks r.pm
  let kept := { ch with hit := (envs.headD {}).hit }
  let own := match d.memberOf c with
    | some (g, _) => d.wKey g
    | none => c
  let d := if d.pathKeys.contains c then (d.mapMismatch n ch own).pathChunk c ch (ch.good (some own)) else d
  match d.memberOf c with
  | some (g, p) => (d.protArrive g p kept).protEval g
  | none =>
    match d.conf .contBind (2 * c + 1) with
    | 1 => d.sinkChunk c ch envs
    | 2 =>
      let d := d.modCont c true (·.counted c ch)
      if d.secFailed n then (d.relayOut c (substitute ch.pfn c (d.contK true c) 1)).count .line 8 else d.relayOut c kept
    | _ => d.modOver fun o => { o with unbound := (o.unbound + 1) % 2 ^ 32 }

/-- A chunk from the stitch port: a protection member's, or one for the transmit container that its identifier feeds (R23, R234, R264,
R386). -/
def Dev.stitchChunk (d : Dev) (r : RxPiece) (hit : Option MemHit) : Dev :=
  let none' := fun (d : Dev) => (d.modStitch fun x => { x with discarded := (x.discarded + 1) % 2 ^ 32 }).count .stitch 6
  if d.conf .stitchUse = 0 then none' d else
  let ch := { Chunk.read r.bytes r.marks r.pm with hit := hit }
  let k := 1024 + r.id % 1024
  match d.memberOf k with
  | some (g, p) => ((d.pathChunk k ch (d.memberGood g ch)).protArrive g p ch).protEval g
  | none =>
    match d.stitchTarget (r.id % 1024) with
    | some c => d.relayIn c ch r.at'
    | none => none' d

/-- CHUNK_RECEIVED: the oldest chunk that waits goes on (R233, R234). -/
def execChunkReceived (envs : List PktEnv) (s : State) : Host.Outcome State Fault Refusal :=
  s.run fun d =>
    match d.ohd.chunks with
    | [] => d
    | r :: rest =>
      let d := d.modOver fun o => { o with chunks := rest }
      if r.stitch then d.stitchChunk r (envs.headD {}).hit else d.lineChunk r envs

end Sys2Proof.Machine
end

