-- ==== Sys2Proof/Machine/BurstRx.lean ====
section
/-! DEFINITION. Bursts at the hub and the bursts that a leaf sends (R285 to R292, R294, R300 to R302, R309). -/

namespace Sys2Proof.Machine

/-! ### The open search (R303, R306, R308) -/

/-- OPEN_SEARCH_CONTEXT: a detection, or how the open contexts are decided (R303). -/
def execOpenSearchContext (sc : Nat) (e : SearchEvent) (s : State) : Host.Outcome State Fault Refusal :=
  s.run fun d =>
    if d.role ≠ .hub ∨ sc ≥ 32 ∨ !d.rxShared sc then d else
    let l := (d.burstSc sc).contexts
    let shut := fun (d : Dev) (l : List Nat) (f : Nat) =>
      d.modBurst sc fun b => { b with contexts := l, falsePre := (b.falsePre + f) % 2 ^ 32 }
    match e with
    | .detected r =>
      if autoCorr100 r < 50 then d
      else if l.length < 2 then shut d (l ++ [preamblePower r]) 0 else d.collide sc 1
    | .noWord i => if l.length ≤ i then d else shut d (l.eraseIdx i) 1
    | .oneWord i => if l.length < 2 ∨ 2 ≤ i then d else shut d (l.eraseIdx (1 - i)) 1
    | .bothWords gap =>
      match l with
      | [p, q] =>
        if gap ≥ 640 then d
        else if d.captures p q then (shut d [p] 0).collide sc 1
        else if d.captures q p then (shut d [q] 0).collide sc 1
        else (shut d [] 0).collide sc 2
      | _ => d

/-- An open burst as received: the older open context is over; entry 4,095 holds the state that it leaves (R282, R303, R306). -/
def Dev.openBurst (d : Dev) (b : OpenBurst) : BurstGot × Dev :=
  let d := d.frontTrack b.sc b.codes
  let x := d.receiveBurst none false b.sc 0 0 288 b.codes (burstAt b.arrival) b.freq (b.arrival % 8)
  (x, ((d.slips b.sc x.slips).modBurst b.sc fun c => { c with contexts := c.contexts.drop 1 }).setLem 4095 (some x.entry))

/-- The indications of a good burst header (R291, R309): runs and defects of the leaf, its SNR report, its far end's block and its quilt cell.
`dLG` and `dBDI` clear with the first header without their indication and with the fifth (assumption 34) (DESIGN CHOICE, assumption 110). -/
def Dev.headTaken (d : Dev) (n : Nat) (head : List Byte) : Dev :=
  let l := d.leafAt n
  let h := fun i => (head.getD i 0).toNat
  let lg := bit (h 11) 2
  let bdi := bit (h 11) 3
  let rep := beNat (slice head 14 2)
  let lgRun := if lg then min 3 (l.lgRun + 1) else 0
  let on := if bdi then min 5 (l.bdiOn + 1) else 0
  let off := if bdi then 0 else min 5 (l.bdiOff + 1)
  let dLG := decide (lgRun ≥ 3) || (l.dLG && lg)
  let d := d.modLeaf n fun l => { l with
    lgRun := lgRun, dLG := dLG, bdiOn := on, bdiOff := off,
    dBDI := if on ≥ 5 then true else if off ≥ 5 then false else l.dBDI,
    reports := if rep ≤ 3000 then
        l.reports.modify (fun _ => none) (h 12 % 32) fun o => some (smoothStep o rep (d.conf .smooth)) else l.reports,
    pm := { l.pm with
      farErrored := l.pm.farErrored + (if bits (h 11) 4 4 > 0 then 1 else 0), farDefect := l.pm.farDefect || bdi } }
  let d := if dLG && !l.dLG then d.raiseHub .leafLastGasp n n else d
  d.cellIn (64 + n) (slice head 16 16)

/-- A discovery burst with this header and body (R284, R303, R306). -/
def Dev.discovered (d : Dev) (b : OpenBurst) (head body : List Byte) : Dev :=
  if !(burstPartOk 40 head && burstPartOk 24 body) then d.collide b.sc 1 else
  let d := d.modBurst b.sc fun x => { x with decoded := (x.decoded + 1) % 2 ^ 32 }
  let sub := (body.getD 8 0).toNat % 16
  let rtd := (b.arrival - 700000 - 5120 * (sub : Int)).toNat
  let far := decide (d.eqdOf rtd < 0)
  let ident := beNat (body.take 8)
  match d.leafOfIdent ident, far with
  | some n, false => ((d.setLem n (d.lemAt 4095)).assignLeaf n b.sc rtd).headTaken n head
  | _, _ =>
    let sec := (toQTime d.time16).sec
    let r := d.ohd.hub.list ⟨ident, rtd, b.freq, b.power, b.sc, far, sec⟩
    let d := ((d.modHub fun _ => r.2).hubSend 1 b.sc 4095 0xFFF (identBytes ident)).raiseSc .leafDiscovered b.sc r.1
    if far then d.raiseSc .leafOutOfReach b.sc r.1 else d

/-- DISCOVERY_BURST_RECEIVED: a burst of the open search, decoded (R284, R303, R306). -/
def execDiscoveryBurstReceived (b : OpenBurst) (s : State) : Host.Outcome State Fault Refusal :=
  s.run fun d =>
    if d.role ≠ .hub ∨ b.sc ≥ 32 ∨ !d.rxShared b.sc ∨ !d.runs .lem then d else
    let r := d.openBurst b
    r.2.discovered b (r.1.bytes.take 40) ((r.1.bytes.drop 40).take 24)

/-- The place of a leaf's identity in the discovery list; of one that is not listed it is open (R316, assumption 1). -/
def Dev.listPlace (d : Dev) (n : Nat) : Nat × Dev :=
  let i := d.ohd.hub.disc.findIdx fun x => x.ident == d.conf .leafIdent n
  if i < d.ohd.hub.disc.length then (i, d) else
  let r := d.draw
  (r.1 % 65536, r.2)

/-- An echo with this header and body: one that fails a check counts as a collision; the leaf that is being ranged is active again at the round
trip measured, and its entry takes the state that the burst left unless a codeword failed (R284, R301, R303, R308). -/
def Dev.echoed (d : Dev) (b : OpenBurst) (head body : List Byte) (fail : Bool) : Dev :=
  let n := beNat (head.take 2) % 4096
  if !(burstPartOk 40 head && burstPartOk 24 body) then d.collide b.sc 1
  else if (d.leafAt n).state ≠ .ranging then d
  else
    let rtd := (b.arrival - 700000).toNat
    let eqd := d.eqdOf rtd
    let d := (if fail then d else d.setLem n (d.lemAt 4095)).headTaken n head
    if eqd < 0 then
      let i := d.listPlace n
      (i.2.modLeaf n fun l => { l with rtd := rtd }).raiseHub .leafOutOfReach n i.1
    else (((d.unquiet n).leafActive n rtd eqd.toNat).sendEqd n eqd.toNat).rangeOver n .ok

/-- ECHO_BURST_RECEIVED: the echo of a leaf being ranged, decoded (R284, R301, R308). -/
def execEchoBurstReceived (b : OpenBurst) (s : State) : Host.Outcome State Fault Refusal :=
  s.run fun d =>
    if d.role ≠ .hub ∨ !d.runs .lem then d else
    let r := d.openBurst b
    r.2.echoed b (r.1.bytes.take 40) ((r.1.bytes.drop 40).take 24) r.1.outerFail

/-! ### Granted bursts (R292, R300 to R302, R309) -/

/-- A data burst as received: header, stream bytes with the marked ones, whether an outer codeword failed, and pilot SNR in 0.01 dB. -/
structure DataGot where
  head : List Byte
  body : List Byte
  marks : List Nat
  outerFail : Bool
  snr : Nat

/-- The parts of a received burst with n stream bytes (R290). -/
def BurstGot.data (x : BurstGot) (n : Nat) : DataGot :=
  ⟨x.bytes.take 40, slice x.bytes 40 n, x.marks.filterMap fun m => if m < 40 then none else some (m - 40), x.outerFail, x.snr⟩

/-- A good data burst is counted, with the parity of the burst before, its carrier offset and its header's indications (R291, R309). -/
def Dev.burstHeader (d : Dev) (n : Nat) (freq : Int) (b : DataGot) : Dev :=
  let l := d.leafAt n
  let seq := beNat (slice b.head 2 2)
  let follows := l.bseq.any fun s => (s + 1) % 65536 == seq
  let viol := match l.bip, follows with
    | some p, true => diffBits p (b.head.getD 10 0)
    | _, _ => 0
  let d := d.modLeaf n fun l => { l with
    good := (l.good + 1) % 2 ^ 32, freq := some freq, snr := some (min b.snr 3000),
    bseq := some seq, bip := if b.outerFail then none else some (bip8 b.body), beiAcc := l.beiAcc + viol,
    pm := l.pm.late (if viol > 0 then 1 else 0) }
  let d := (d.leafJudge n).modLeaf n fun l => { l with
    pm := { l.pm with blocks := l.pm.blocks + 1, errored := l.pm.errored + b2n b.outerFail } }
  d.headTaken n b.head

/-- The stream of a burst: a bad header, a gap in `BSEQ` or another container acts as a bad chunk; the stream goes to receive stage 9
as the leaf's container, or to the stitch port, under that container's binding (R292) (DESIGN CHOICE, assumption 111). -/
def Dev.burstStream (d : Dev) (n : Nat) (envs : List PktEnv) (b : DataGot) (gap : Bool) : Dev :=
  let c := d.conf .leafCont n
  let ok := burstPartOk 40 b.head && !gap && beNat (slice b.head 4 2) / 64 == c
  let x := d.cont c true
  let r : List Delivery × Bool × ContSt :=
    if ok then x.stretch (beNat (slice b.head 6 3) / 128) b.body b.marks
    else
      let y := x.cutFrame
      (y.1, x.sync, y.2)
  let d := (d.modCont c true fun _ => r.2.2).pathBurst c ok (!b.marks.isEmpty)
  let d := if r.2.1 then d.delineation c else d
  match d.conf .contBind (2 * c + 1) with
  | 1 => (d.count .line 7 (r.1.filter (·.2)).length).deliverAll (.leaf n) r.1 envs
  | 2 => d.modCont c true fun x => { x with
      out := x.out ++ r.1.map fun e => streamFrame ({ frame := e.1, stomp := e.2 } : Pkt).outFrame }
  | _ => d.modOver fun o => { o with unbound := (o.unbound + 1) % 2 ^ 32 }

/-- A burst whose unique word arrived e eighths of a symbol from where it is expected: its header, its stream, and its entry written back if
the header is good and no codeword failed (R292, R300 to R302). -/
def Dev.burstCame (d : Dev) (n : Nat) (e freq : Int) (envs : List PktEnv) (entry : LemEntry) (b : DataGot) : Dev :=
  let d := d.modLeaf n fun l => { l with uncorr := (l.uncorr + b2n b.outerFail) % 2 ^ 32 }
  if !burstPartOk 40 b.head then
    (d.modLeaf n fun l => { l with hdrErrors := (l.hdrErrors + 1) % 2 ^ 32, missRun := 0, bip := none }).leafJudge n |>.burstStream n envs b false
  else
    let gap := (d.leafAt n).bseq.any fun s => (s + 1) % 65536 != beNat (slice b.head 2 2)
    let d := if b.outerFail then d else d.setLem n (some entry)
    ((d.burstOffset n e).burstHeader n freq b).burstStream n envs b gap

/-- The symbols by which a leaf's measured offset corrects where its unique word is expected (R300). -/
def LeafAt.shift (l : LeafAt) : Int := if l.offs.isEmpty then 0 else roundDiv (roundDiv l.offs.sum l.offs.length) 8

/-- BURST_RECEIVED: the burst of a grant that was sent to an active leaf: the leaf's entry is loaded and its unique word looked for; where it
is found the burst is received (R282, R292, R300 to R302, R309). -/
def execBurstReceived (b : DataBurst) (s : State) : Host.Outcome State Fault Refusal :=
  s.run fun d =>
    let n := b.leaf
    if d.role ≠ .hub ∨ (d.leafAt n).state ≠ .active ∨ !d.runs .lem then d else
    match (d.leafAt n).grants.find? fun g => g.frame == b.frame && g.slot == b.slot with
    | none => d
    | some g =>
      let d := d.eqdSettle n g.frame
      let l := d.leafAt n
      let sc := d.conf .leafHome n
      let entry := d.lemAt n
      let stale := match entry with
        | some x => decide (d.now > x.at' + msCycles 100)
        | none => true
      let d := d.modLeaf n fun l => { l with
        stale := (l.stale + b2n stale) % 2 ^ 32, grants := l.grants.filter fun x => decide (g.frame < x.frame ∨ g.frame = x.frame ∧ g.slot < x.slot) }
      let sw := entry.any (·.swap)
      let at' := burstAt (8 * (slotStart g.slot + l.shift))
      let d := d.frontTrack sc b.codes
      match wordPlace (d.conf .uwThresh) ((d.burstWindow entry sc b.freq at' b.codes).map fun s => if sw then s.swap else s) with
      | none => d.burstMissed n
      | some p =>
        let x := d.receiveBurst entry sw sc g.mod g.code (burstLen g.span - 352) b.codes (at' + 256 * ((p : Int) - 16) + 32 * b.fine) b.freq b.fine
        (d.slips sc x.slips).burstCame n (8 * ((p : Int) - 16 + l.shift) + b.fine) b.freq b.envs x.entry (x.data (burstBytes g.span g.mod g.code))

/-! ### At the leaf -/

/-- The subcarriers of the leaf's receive group, and the next of them after one (R291). -/
def Dev.nextRpt (d : Dev) (sc : Nat) : Nat :=
  let first := d.conf .rxFirst
  if sc < first ∨ sc + 1 ≥ first + d.conf .rxCount then first else sc + 1

/-- A burst header (R291). -/
def burstHead (btype leaf seq cont first bip ind rpt snr : Nat) (cell : List Byte) : List Byte :=
  let h := beBytes 2 (btype * 4096 + leaf) ++ beBytes 2 seq ++ beBytes 2 (cont * 64) ++ beBytes 3 (first * 128) ++ beBytes 1 0 ++
    beBytes 1 bip ++ beBytes 1 ind ++ beBytes 1 rpt ++ beBytes 1 0 ++ beBytes 2 snr ++ cell ++ List.replicate 6 0
  h ++ beBytes 2 (crc16 h)

/-- The body of a discovery or echo burst (R291) (DESIGN CHOICE, assumption 34). -/
def openBody (ident : List Byte) (sub attempt : Nat) (invited : Bool) : List Byte :=
  let b := ident ++ beBytes 1 sub ++ beBytes 1 attempt ++ beBytes 1 (b2n invited) ++ List.replicate 11 0
  b ++ beBytes 2 (crc16 b)

/-- A subcarrier's injection of errors, and the draw that says which bits it inverts (R217). -/
def Dev.injection (d : Dev) (n : Nat) : Option (Nat × Nat × Nat) × Dev :=
  if d.conf .inject n ≠ 1 then (none, d) else
  let r := d.draw
  (some (d.conf .injMant n, d.conf .injExp n, r.1), r.2)

/-- A burst leaves: its information bytes are scrambled and coded, with what an injection inverts of them, and its symbols go to pulse shaping,
the first of them at this instant at the last register before the DAC (R10, R217, R285, R288 to R290). -/
def Dev.sendBurst (d : Dev) (sc mod code : Nat) (start : Int) (bytes : List Byte) : Dev :=
  let d := d.at (d.tcReach start.toNat)
  let r := d.injection sc
  let l := burstSymbols sc mod code (flipOf r.1) bytes
  let i := d.tcInstant start.toNat
  ((r.2.modSc sc fun s => { s with enc := s.enc.push start l }).modOwn fun o => { o with lastEnd := start + symTime l.length }).emit
    (.burst sc i.1 i.2 l)

/-- What a burst header says of a leaf's reception: `SM_BIP8`, the indications of its downstream home subcarrier, the SNR of a subcarrier, and a
quilt cell; what it returns is used up (R291, R309). -/
def Dev.headFields (d : Dev) (sc rpt : Nat) : (Nat × Nat × Nat × List Byte) × Dev :=
  let acc := (d.sec sc).beiAcc
  let bei := min 8 acc
  let d := d.modSec sc fun s => { s with beiAcc := acc - bei }
  let snr := match (d.sc rpt).snr.smooth with
    | some _ => smoothVal (d.sc rpt).snr.smooth
    | none => 0xFFFF
  let k := (d.link sc).nextCell
  ((d.leaf.bip.toNat, bei * 16 + b2n (d.secFailed sc) * 8 + (if d.boot.lastGasp ≠ 0 then 4 else 0), snr, k.1),
   d.modLink sc fun _ => k.2)

/-- The leaf's data burst for a grant: its stream, its header with the section's backward indications, its SNR report and a quilt
cell (R287, R290, R291, R294) (DESIGN CHOICE, assumption 104). -/
def Dev.dataBurst (d : Dev) (g : LeafGrant) (start : Int) : Dev :=
  let mod := bits g.record 14 2
  let code := bits g.record 13 1
  let c := d.conf .ownCont
  let x := d.cont c false
  let b := streamBytes (burstBytes (bits g.record 16 3 + 1) mod code) x.out x.sent
  let d := d.modCont c false fun x => { x with out := b.2.1, sent := b.2.2.1 }
  let l := d.leaf
  let rpt := d.nextRpt l.rptSc
  let f := d.headFields g.sc rpt
  let h := burstHead 0 l.id l.bseq c (b.2.2.2.getD 0x1FFFF) f.1.1 f.1.2.1 rpt f.1.2.2.1 f.1.2.2.2
  (f.2.modOwn fun l => { l with bseq := (l.bseq + 1) % 65536, bip := bip8 b.1, rptSc := rpt }).sendBurst g.sc mod code start (h ++ b.1)

/-- A discovery or echo burst for a frame: one frame after A_F, with no delay of its own but that of its sub-position (R285, R291) (DESIGN CHOICE,
assumption 104). -/
def Dev.openSend (d : Dev) (btype leaf frame sub attempt : Nat) (invited : Bool) : Dev :=
  match d.arrival frame with
  | none => d
  | some a =>
    let f := d.headFields d.home d.leaf.rptSc
    let h := burstHead btype leaf d.leaf.bseq 0 0x1FFFF f.1.1 f.1.2.1 d.leaf.rptSc f.1.2.2.1 f.1.2.2.2
    f.2.sendBurst d.home 0 0 (a + tcFrame + symTime (640 * sub)) (h ++ openBody d.identLine sub attempt invited)

/-- LEAF_BURST_SEND: the next burst of its kind that is due: a data burst for the oldest grant, only in `ACTIVE`; a discovery burst at
its sub-position; or an echo (R283, R285, R294, R305, R307). Nothing is sent while the home subcarrier is out of frame. -/
def execLeafBurstSend (kind : BurstKind) (s : State) : Host.Outcome State Fault Refusal :=
  s.run fun d =>
    if d.role ≠ .leaf ∨ !d.homeUp then d else
    let l := d.leaf
    match kind with
    | .data =>
      match l.grants with
      | [] => d
      | g :: r =>
        let d := (d.ownEqdSettle g.frame).modOwn fun l => { l with grants := r }
        if l.state = .active ∧ g.record / 2 ^ 20 = l.id ∧ slotStart g.slot + burstLen (bits g.record 16 3 + 1) ≤ 87500 then
          match d.upInstant g.frame with
          | some t => d.dataBurst g (t + symTime (slotStart g.slot))
          | none => d
        else d
    | .disc =>
      match l.state, l.disc with
      | .discSent, some (attempt, sub, inv, f) => (d.modOwn fun l => { l with disc := none }).openSend 1 0xFFF f sub attempt inv
      | _, _ => d
    | .echo =>
      match l.state, l.echo with
      | .active, some f => (d.modOwn fun l => { l with echo := none }).openSend 2 l.id f 0 0 false
      | _, _ => d

/-- A leaf's transmit stages are clock-gated: with `SLEEP_EN`, from the end of a burst to 2 slots before the next granted one, where at least 4
lie between; one not granted yet is further away (R304). -/
def Dev.gated (d : Dev) : Bool :=
  let t := d.tcTotal d.now
  let slot := tcFrame / 8
  d.txShared d.home && d.conf .ownSleep == 1 && d.leaf.state == .active && decide (d.leaf.lastEnd ≤ t) &&
  match d.leaf.grants with
  | [] => true
  | g :: _ => match (d.ownEqdSettle g.frame).upInstant g.frame with
    | some a =>
      let next := a + symTime (slotStart g.slot)
      decide (d.leaf.lastEnd + 4 * slot ≤ next ∧ t + 2 * slot < next)
    | none => true

/-- What gating takes off the device's draw, in mW: the home tile's and the converter core's (R304, R478). -/
def Dev.gateSaves (d : Dev) : Nat := if d.gated then 250 + 300 else 0

end Sys2Proof.Machine
end

