-- ==== Sys2Proof/Machine/QuiltNet.lean ====
section
/-! DEFINITION. The quilt's routing tree, the relay of messages, and the start of a quilt commit (R79 to R93). -/

namespace Sys2Proof.Machine

/-- A span of microseconds in units of device time, 2^-16 ns. -/
def us16 (n : Nat) : Nat := n * 1000 * 65536

/-- The patch of the quilt. -/
def quiltId : Nat := Patch.id 0 ⟨.quilt, 0⟩

/-- The device is a member of a quilt, or its coordinator (R79). -/
def Dev.inQuilt (d : Dev) : Bool := d.conf .quiltEnable == 1

/-! ### Bodies (R86) -/

/-- The body of `HELLO`. -/
def HelloBody.bytes (b : HelloBody) : List Byte :=
  beBytes 2 b.coord ++ beBytes 1 (b.distance % 64) ++ beBytes 1 (b2n b.detached + 2 * b2n b.isCoord) ++ beBytes 4 b.quiltGen ++
  beBytes 2 b.subtree ++ beBytes 1 b.maxDepth ++ beBytes 1 0

/-- The body of `DETACH`. -/
def detachBody (dev gen reason : Nat) : List Byte := beBytes 2 dev ++ beBytes 4 gen ++ beBytes 1 reason ++ beBytes 1 0

/-- A part of a stream. -/
def PartBody.bytes' (b : PartBody) : List Byte :=
  beBytes 1 b.slot ++ beBytes 1 (128 * b2n b.last + b.part % 128) ++ beBytes 2 b.offset ++ b.bytes

/-- A time of a body. -/
def QTime.bytes (t : QTime) : List Byte := beBytes 6 t.sec ++ beBytes 4 t.ns

/-- The body of `PREPARE`. -/
def PrepareBody.bytes (b : PrepareBody) : List Byte :=
  beBytes 4 b.target ++ beBytes 4 b.newGen ++ b.ackDeadline.bytes ++ b.tMax.bytes ++ beBytes 1 b.policy ++ beBytes 1 0

/-- The body of `ACK`. -/
def AckBody.bytes (b : AckBody) : List Byte :=
  beBytes 4 b.newGen ++ beBytes 2 b.count ++ beBytes 2 b.missCount ++ beBytes 16 b.digest.toNat ++
  ((List.range 5).map fun i => beBytes 2 (b.missing.getD i 0)).flatten

/-- The body of `VETO`. -/
def vetoBody (gen dev status : Nat) : List Byte := beBytes 4 gen ++ beBytes 2 dev ++ beBytes 2 status

/-- The body of `COMMIT_AT`. -/
def commitAtBody (gen : Nat) (t : QTime) : List Byte := beBytes 4 gen ++ t.bytes ++ beBytes 2 0

/-- The body of `ABORT`. -/
def abortBody (gen status : Nat) : List Byte := beBytes 4 gen ++ beBytes 2 status ++ beBytes 2 0

/-! ### Relaying (R85) -/

/-- The link key of a message's link. -/
def Dev.headLink (d : Dev) (h : QHead) : Nat := match h.link with
  | .line n => d.lineLink n
  | .burst n => d.conf .leafHome n
  | .stitch => 32

/-- The links on which a message goes on: a broadcast to every child; another towards its destination. -/
def Dev.onward (d : Dev) (h : QHead) : List Nat :=
  let from' := d.headLink h
  if h.bcast then d.childLinks
  else if h.dst = d.num then []
  else match d.quilt.members.get (fun _ => none) h.dst with
    | some k => [k]
    | none =>
      if d.quilt.parent.any (· / 4096 == from') then d.childLinks
      else (d.quilt.parent.map (· / 4096)).toList

/-- Relay a message, its count of hops reduced; one that arrives at 0 is dropped (R85). -/
def Dev.relay (d : Dev) (h : QHead) (t : MsgType) (body : List Byte) : Dev :=
  if h.hopsLeft = 0 then d else
  (d.onward h).foldl (fun d k => d.sendOn k t h.bcast (h.hopsLeft - 1) h.dst h.src h.opId body) d

/-- The message is for this device (R85). -/
def Dev.isFor (d : Dev) (h : QHead) : Bool := d.inQuilt && h.hopsLeft != 0 && (h.bcast || h.dst == d.num)

/-- The message came from the parent: only those come down the tree (R80). -/
def Dev.fromParent (d : Dev) (h : QHead) : Bool := d.quilt.parent.any (· / 4096 == d.headLink h)

/-! ### Routing (R80, R81) -/

/-- The links of this device that carry cells: its line's, or the subcarriers of a hub, or a leaf's home, and the stitch port (R83). -/
def Dev.quiltLinks (d : Dev) : List Nat :=
  let scs := (List.range 32).filter fun n => d.runs (.sc n)
  (match d.role with
    | .p2p => if scs.isEmpty then [] else [0]
    | .hub => scs
    | .leaf => scs.filter (· == d.conf .ownHome)
    | .unset => []) ++ (if d.lane.stitch.state = .up then [32] else [])

/-- The delivery bound in µs of a link to a neighbour, over the worse direction: 10 on the stitch link; 70 on a line, whose downstream is
continuous always; where its upstream is time-shared the bound of the leaf's grants, and no link without one (R80, R299). -/
def Dev.linkBound (d : Dev) (k : Nat) (x : NbrSt) : Option Nat :=
  let shared := fun (gap : Option Nat) => gap.map fun g => max 70 (7 * g + 10)
  if k = 32 then some 10
  else if d.role = .leaf ∧ !d.ohd.leaf.dedicated then shared d.ownGap
  else if d.rxShared k then (match x.leaf with
    | some n => shared (d.leafGap n)
    | none => some 70)
  else some 70

/-- The weight of a link: delivery bound and one-way delay in units of 100 µs, rounded up (R80, R299). -/
def Dev.linkWeight (d : Dev) (k : Nat) (x : NbrSt) : Option Nat :=
  let tt := if k = 32 then d.time.stitch else d.time.line
  (d.linkBound k x).map fun b => ceilDiv (us16 b + (if tt.valid then tt.delay.toNat else 0)) (us16 100)

/-- A neighbour offers a route: it is heard, and admitted. No rule keeps a member from adopting a neighbour that routes through it: such
a loop ends where the distance exceeds 64 (R80, R81, assumption 198). -/
def Dev.offers (d : Dev) (x : NbrSt) : Bool := !x.dup && decide (d.now < x.lastHello + msCycles 10)

/-- The routes offered: neighbour key and distance over it. -/
def Dev.routes (d : Dev) : List (Nat × Nat) :=
  d.quilt.nbrs.filterMap fun e => e.2.bind fun x =>
    if d.offers x then (d.linkWeight (e.1 / 4096) x).map fun w => (e.1, x.dist + w) else none

/-- The order of routes: the least distance, the stitch link before a line link, then the lower link number (R80). -/
def routeBefore (a b : Nat × Nat) : Bool :=
  if a.2 ≠ b.2 then decide (a.2 < b.2)
  else if a.1 / 4096 = 32 ∧ b.1 / 4096 ≠ 32 then true
  else if a.1 / 4096 ≠ 32 ∧ b.1 / 4096 = 32 then false
  else decide (a.1 ≤ b.1)

/-- Adopt the best route within 64; a changed distance is reported, as is one that exceeds 64 where no other is left (R80, R81). -/
def Dev.chooseRoute (d : Dev) : Dev :=
  match (sortBy routeBefore d.routes).head? with
  | none => d.modQuilt fun q => { q with parent := none }
  | some b =>
    if b.2 > 64 then
      if d.quilt.parent.isNone ∧ d.quilt.distance = b.2 then d
      else (d.modQuilt fun q => { q with parent := none, distance := b.2 }).raise .quiltHopsExceeded quiltId b.2
    else
      let was := d.quilt.distance
      let d := d.modQuilt fun q => { q with parent := some b.1, distance := b.2 }
      if was = b.2 then d else d.raise .quiltRouteChanged quiltId b.2

/-- Members in a subtree, with this device, and the greatest distance there (R86). -/
def Dev.subtree (d : Dev) : Nat × Nat :=
  d.children.foldl (fun r e => (r.1 + e.2.subtree, max r.2 e.2.depth)) (1, d.quilt.distance)

/-- The `HELLO` that this device sends (DESIGN CHOICE, assumption 175). -/
def Dev.helloBody (d : Dev) : HelloBody :=
  ⟨d.conf .coordNum, if d.isCoord then 0 else d.quilt.distance, d.quilt.member == .detached, d.isCoord, d.cfg.quiltGen, d.subtree.1,
   d.subtree.2⟩

/-- A device is on the coordinator's list of detached devices no longer (R90, R92). -/
def Dev.unmark (d : Dev) (n : Nat) : Dev :=
  d.modQuilt fun q => { q with
    detachedList := q.detachedList.set (fun _ => none) n none, resync := q.resync.filter (· != n), dups := q.dups.filter (· != n) }

/-- A detached device is reported towards the coordinator, which lists it (R91, R93) (DESIGN CHOICE, assumption 176). -/
def Dev.reportDetached (d : Dev) (dev gen reason : Nat) : Dev :=
  if d.isCoord then d.modQuilt fun q => { q with detachedList := q.detachedList.set (fun _ => none) dev (some gen) }
  else d.sendUp .detach 0 (detachBody dev gen reason)

/-- The devices of a child's subtree: those known behind its link that are no neighbours themselves. Where another child of the link has
a subtree of its own, which device is whose is known to them alone: a free value for each (R91, assumption 1). -/
def Dev.subtreeOf (d : Dev) (key : Nat) : List Nat × Dev :=
  let k := key / 4096
  let nbrs := (d.quilt.nbrs.filter fun e => e.2.isSome && e.1 / 4096 == k).map (·.1 % 4096)
  let cand := (d.quilt.members.filter fun e => e.2 == some k && !nbrs.contains e.1).map (·.1)
  let sole := d.children.all fun e => e.1 / 4096 != k || e.1 == key || decide (e.2.subtree ≤ 1)
  if sole then (cand, d) else
  cand.foldl (fun (r : List Nat × Dev) n =>
    let f := r.2.draw
    (if f.1 % 2 = 1 then r.1 ++ [n] else r.1, f.2)) ([], d)

/-- A child is silent for 10 ms: it is no longer a neighbour, and it and its subtree are reported (R91) (DESIGN CHOICE, assumption 176). -/
def Dev.childSilent (d : Dev) (key : Nat) (x : NbrSt) : Dev :=
  let r := d.subtreeOf key
  let d := (r.2.modQuilt fun q => { q with nbrs := q.nbrs.set (fun _ => none) key none }).reportDetached (key % 4096) x.gen 1
  r.1.foldl (fun d n => d.reportDetached n d.cfg.quiltGen 1) d

/-- HELLO_TIMER: once per millisecond, `HELLO` on every link; a child that has been silent for 10 ms is lost (R87, R91). -/
def execHelloTimer (s : State) : Host.Outcome State Fault Refusal :=
  s.run fun d =>
    if !d.inQuilt ∨ !d.fwRuns then d else
    let d := d.at (25000 * (d.now / 25000 + 1))
    let d := (d.children.filter fun e => e.2.lastHello + msCycles 10 ≤ d.now).foldl (fun d e => d.childSilent e.1 e.2) d
    d.quiltLinks.foldl (fun d k =>
      let d := d.modLink k fun l => { l with txq := l.txq.filter fun m => m.started || m.cls != 1 }
      d.sendOn k .hello false 64 0 d.num 0 d.helloBody.bytes) d

/-! ### Detaching (R91) -/

/-- The staging of an `OP_ID` that another device sent here is gone, and the commit that held it (R91). -/
def Dev.dropOp (d : Dev) (op : Nat) : Dev :=
  let mine := fun (o : Nat) => decide (o ≥ 8) && o / 8 - 1 == op
  let d := { d with cfg := { d.cfg with
    staged := d.cfg.staged.filter fun e => !mine e.owner,
    commits := d.cfg.commits.filter fun (c : PCommit) => !(mine c.slot && c.phase == CommitPhase.waiting) } }
  let d := if d.pkt.staged.any (fun (p : Nat × RuleGen) => mine p.1) then { d with pkt := { d.pkt with staged := none } } else d
  d.modQuilt fun q => { q with held := q.held.set (fun _ => []) op [] }

/-- All remote staging is gone (R91). -/
def Dev.dropRemote (d : Dev) : Dev := (d.quilt.held.map (·.1)).foldl Dev.dropOp d

/-- A member detaches for a reason: 1 route, 2 silent, 3 late, 4 hops (R91, R94). -/
def Dev.detach (d : Dev) (reason : Nat) : Dev :=
  (d.modQuilt fun q => { q with member := .detached, prep := none, detachNext := false }).raise .quiltDetached quiltId reason

/-! ### The coordinator's side (R88 to R90, R92) -/

/-- The digest of accepted streams under an `OP_ID` (R87). -/
def opDigest (streams : List Byte) (op : Nat) : Item16 := BitVec.ofNat 128 (beNat ((sha256 (streams ++ beBytes 2 op)).take 16))

/-- The devices that hold staging of an `OP_ID`. -/
def Dev.opTargets (d : Dev) (op : Nat) : List Nat := ((d.quilt.sentStreams.filter (·.1 == op)).map (·.2.dev)).eraseDups

/-- What a device accepted under an `OP_ID`. -/
def Dev.opStreams (d : Dev) (op dev : Nat) : List Byte :=
  (d.quilt.sentStreams.filter fun e => e.1 == op && e.2.dev == dev).flatMap (·.2.bytes)

/-- The digest that the coordinator expects of some devices (DESIGN CHOICE, assumption 184). -/
def Dev.opExpected (d : Dev) (op : Nat) (devs : List Nat) : Item16 :=
  devs.foldl (fun x n => x ^^^ opDigest (d.opStreams op n) op) 0

/-- `ACK_DEADLINE` − now, and the lead time, in 2^-16 ns (R88). -/
def Dev.quiltTimes (d : Dev) : Nat × Nat := (us16 (200 * d.hops + 1000), max (us16 (100 * d.hops + 1000)) (us16 2000))

/-- The coordinator gives up a commit: `ABORT` to the members, and nothing of it runs or waits (R89, R90) (DESIGN CHOICE, assumption 181). -/
def Dev.quiltDrop (d : Dev) (op : Nat) (st : Status) : Dev :=
  let gen := match d.quilt.running with
    | some q => if q.opId = op then q.newGen else 0
    | none => 0
  let ids := (d.cfg.commits.filter fun c => c.quilt.any (·.1 == op)).map (·.id)
  (d.sendDown .abort none op (abortBody gen st.code)).modQuilt fun q => { q with
    running := q.running.filter (·.opId != op), ack := if q.running.any (·.opId == op) then none else q.ack,
    queued := q.queued.filter fun i => !ids.contains i, sentStreams := q.sentStreams.filter (·.1 != op) }

/-- The coordinator sends `PREPARE` and gathers (R88, R89); `dst` names the one device that a replay is for. -/
def Dev.quiltGo (d : Dev) (q : QCommit) (dst : Option Nat) : Dev :=
  let target := match dst with
    | some n => Patch.id n ⟨.device, 0⟩
    | none => quiltId
  let tMax := if q.timed then q.t else q.ackDeadline + q.lead
  let body : PrepareBody := ⟨target, q.newGen, toQTime q.ackDeadline, toQTime tMax, q.policy⟩
  let waiting := match dst with
    | some n => [n]
    | none => d.children.map (·.1 % 4096)
  (d.modQuilt fun x => { x with
    running := some { q with t := tMax },
    ack := some ⟨q.opId, q.newGen, q.ackDeadline, 0, 0, 0, [], waiting, false, false⟩ }).sendDown .prepare dst q.opId body.bytes

/-- A quilt commit starts; one whose `T` is too near by now ends with `TOO_LATE` (R88). -/
def Dev.quiltStart (d : Dev) (id : Nat) : Dev :=
  match d.commit? id with
  | none => d
  | some c =>
    let op := (c.quilt.map (·.1)).getD 0
    let x := d.quiltTimes
    let now := d.time16.toNat
    if c.timed ∧ (c.t.getD 0 : Nat) < now + x.1 + x.2 then (d.quiltDrop op .tooLate).refuseCommit c .tooLate else
    let gen := (d.cfg.quiltGen + 1) % 2 ^ 32
    let targets := d.opTargets op
    let d := d.modCommit id fun c => { c with quilt := some (op, gen) }
    d.quiltGo ⟨id, op, gen, targets, c.policy, c.timed, c.t.getD 0, now + x.1, x.2, d.opExpected op targets, false, none⟩ none

/-- The generations of a device that have been missed are kept (R92). -/
def Dev.replayable (d : Dev) (gen : Nat) : Bool :=
  let k := (d.cfg.quiltGen + 2 ^ 32 - gen) % 2 ^ 32
  decide (0 < k ∧ k ≤ 16) &&
  (List.range k).all fun i => d.quilt.kept.any (·.gen == (gen + 1 + i) % 2 ^ 32)

/-- A detached device is heard with a generation: each one it missed is replayed in order, or its full configuration is needed; one that has missed
none is read again as R90 has it (R92) (DESIGN CHOICE, assumption 180). -/
def Dev.planReplay (d : Dev) (dev gen : Nat) : Dev :=
  let d := d.modQuilt fun q => { q with
    detachedList := q.detachedList.set (fun _ => none) dev (some gen), dups := q.dups.filter (· != dev) }
  if d.quilt.replays.any (·.1 == dev) ∨ d.quilt.running.any (·.replay == some dev) then d
  else if gen = d.cfg.quiltGen then
    if d.quilt.recheck.any (·.2.2.contains dev) then d
    else d.modQuilt fun q => { q with recheck := q.recheck ++ [(d.time16.toNat, gen, [dev])] }
  else if d.replayable gen then
    let k := (d.cfg.quiltGen + 2 ^ 32 - gen) % 2 ^ 32
    d.modQuilt fun q => { q with replays := q.replays ++ (List.range k).map fun i => (dev, (gen + 1 + i) % 2 ^ 32) }
  else if d.quilt.resync.contains dev then d
  else (d.modQuilt fun q => { q with resync := q.resync ++ [dev] }).raise .quiltResyncNeeded quiltId dev

/-- A replay starts: the kept streams of the generation go to the device again, then a commit for it alone (R92) (DESIGN CHOICE, assumption 180). -/
def Dev.replayStart (d : Dev) (dev gen : Nat) : Dev :=
  let op := d.newOp
  let streams := (d.quilt.kept.filter fun k => k.gen == gen && k.dev == dev).map (·.bytes)
  let idle := streams.isEmpty
  let d := (d.useOp op).modQuilt fun q => { q with replays := q.replays.erase (dev, gen) }
  let d := streams.foldl (fun d s => (streamParts 0 s).foldl (fun d b => d.sendDown .cmd (some dev) op b) d) d
  let x := d.quiltTimes
  d.quiltGo ⟨0, op, gen, if idle then [] else [dev], 0, false, 0, d.time16.toNat + x.1, x.2,
    if idle then 0 else opDigest streams.flatten op, false, some dev⟩ (some dev)

/-- A replay that was decided is over at its `T`: the device then has the generation that was replayed, and is detached no longer once
that is the coordinator's (R92). -/
def Dev.replayOver (d : Dev) : Dev :=
  match d.quilt.running with
  | some q => match q.replay with
    | some n => if !q.decided then d else
      let d := (d.at (d.time.countAt q.t)).modQuilt fun x => { x with running := none }
      if q.newGen = d.cfg.quiltGen then d.unmark n
      else d.modQuilt fun x => { x with detachedList := x.detachedList.set (fun _ => none) n (some q.newGen) }
    | none => d
  | none => d

/-- The coordinator's next commit or replay starts once none runs (R88, R92). -/
def Dev.quiltNext (d : Dev) : Dev :=
  let d := d.replayOver
  if d.quilt.running.isSome then d else
  match d.quilt.queued with
  | id :: r => (d.modQuilt fun q => { q with queued := r }).quiltStart id
  | [] => match d.quilt.replays with
    | (n, g) :: _ => d.replayStart n g
    | [] => d

end Sys2Proof.Machine
end

