-- ==== Sys2Proof/Machine/Cfg.lean ====
section
/-! DEFINITION. The `CFG` verbs but for `CFG.COMMIT`: discard, cancel, generations, snapshot pins and groups (R65, R70, R76 to
R78, R90). -/

namespace Sys2Proof.Machine

/-! ### Discard and cancel -/

/-- CFG.DISCARD (R78). -/
def verbCfgDiscard : Verb where
  code := 0x0402
  role := .operator
  len := 0

/-- CFG_DISCARD (R70, R78). -/
def execCfgDiscard (c : HostCall) (s : State) : Host.Outcome State Fault Refusal :=
  runVerb verbCfgDiscard (onDev fun c d => let r := d.discard c.slot; (.now .ok (res 4 [fieldAt 0 32 r.1]), r.2)) c s

/-- CFG.CANCEL (R78). -/
def verbCfgCancel : Verb where
  code := 0x0403
  role := .operator
  len := 2

/-- Cancel a quilt commit: one still waiting is dropped; a running one while the `ABORT` can reach every member by `T` − 500 µs
(R90) (DESIGN CHOICE, assumption 181). -/
def Dev.cancelQuilt (d : Dev) (c : PCommit) (op : Nat) : Option Dev :=
  let late := d.quilt.running.any fun q => q.opId == op && decide (d.time16 + us16 (100 * d.hops) + us16 500 > (q.t : Int))
  if late then none else some ((d.quiltDrop op .cancelled).refuseCommit c .cancelled)

/-- Cancel an accepted commit that is early enough (R78, R90). -/
def cfgCancel (c : Call) (d : Dev) : Ans × Dev :=
  match (d.slot c.slot).ops.find? (fun o => o.seq == c.p 0 0 16 && o.code == 0x0401) with
  | none => (.now .badParameter, d)
  | some o =>
    let found := d.cfg.commits.find? fun x =>
      x.slot == c.slot && x.serial == (d.slot c.slot).serial && x.seq == o.seq && x.answered
    match found with
    | none => (.now .tooLate, d)
    | some x =>
      if o.status ≠ .accepted ∨ x.phase ≠ .waiting then (.now .tooLate, d) else
      match x.quilt with
      | some q =>
        match d.cancelQuilt x q.1 with
        | some d' => (.now .ok, d')
        | none => (.now .tooLate, d)
      | none =>
        if x.timed ∧ d.time16 < (x.t.getD 0 : Int) - us16 500 then (.now .ok, d.refuseCommit x .cancelled)
        else (.now .tooLate, d)

/-- CFG_CANCEL (R78, R90). -/
def execCfgCancel (c : HostCall) (s : State) : Host.Outcome State Fault Refusal :=
  runVerb verbCfgCancel (onDev cfgCancel) c s

/-! ### Generations and pins -/

/-- CFG.GEN_READ (R78). -/
def verbCfgGenRead : Verb where
  code := 0x0404
  role := .observer
  len := 0

/-- The slot's session holds a pin (R77). -/
def State.pinned (s : State) (slot : Nat) : Bool := s.pins.any fun p => p.slot == slot && s.pinHolds p

/-- The meaning of `CFG.GEN_READ`: the view's generations; whether a pin is held now. -/
def bodyCfgGenRead : Body := fun c s =>
  let v := (s.view c.slot).cfg
  (.now .ok (res 23 [fieldAt 0 32 v.cfgGen, fieldAt 4 32 v.quiltGen, fieldAt 8 32 v.snapGen, fieldAt 12 48 v.snapTime.sec,
    fieldAt 18 32 v.snapTime.ns, at' 22 0 1 (b2n (s.pinned c.slot))]), s)

/-- CFG_GEN_READ (R78). -/
def execCfgGenRead (c : HostCall) (s : State) : Host.Outcome State Fault Refusal := runVerb verbCfgGenRead bodyCfgGenRead c s

/-- CFG.SNAP_PIN (R78). -/
def verbCfgSnapPin : Verb where
  code := 0x0405
  role := .observer
  len := 1
  params := [⟨0, 1, 7, .rsv⟩]

/-- Pin or unpin the session's view; at most two sessions hold a pin (R77). -/
def cfgSnapPin : Body := fun c s =>
  let mine := s.pins.find? fun p => p.slot == c.slot && s.pinHolds p
  let others := s.pins.filter fun p => p.slot != c.slot && s.pinHolds p
  if c.p 0 0 1 = 0 then
    (.now .ok (res 4 [fieldAt 0 32 ((mine.map (·.view.cfg.snapGen)).getD 0)]), { s with pins := others })
  else if others.length ≥ 2 then (.now .limitReached, s)
  else
    (.now .ok (res 4 [fieldAt 0 32 s.snap.cfg.snapGen]),
      { s with pins := others ++ [⟨c.slot, (s.dev.slot c.slot).serial, s.dev.now, s.snap⟩] })

/-- CFG_SNAP_PIN (R77). -/
def execCfgSnapPin (c : HostCall) (s : State) : Host.Outcome State Fault Refusal := runVerb verbCfgSnapPin cfgSnapPin c s

/-- SNAP_PIN_EXPIRY: a pin ends 1 s after it was set (R77). -/
def execSnapPinExpiry (slot : Nat) (s : State) : Host.Outcome State Fault Refusal :=
  s.runAll fun s =>
    match s.pins.find? (·.slot == slot) with
    | none => s
    | some p => { s with dev := s.dev.at (p.at' + secCycles 1), pins := s.pins.filter (·.slot != slot) }

/-! ### Groups -/

/-- CFG.GROUP_SET (R78). -/
def verbCfgGroupSet : Verb where
  code := 0x0410
  role := .operator
  len := 6
  ext := .ifSet 4 0 16
  size := .per 4 0 16 4
  shift := true
  params := [⟨0, 0, 32, .group⟩, ⟨4, 0, 16, .range 0 4096⟩]
  entry := [⟨0, 0, 32, .unit⟩]
  entryLen := 4

/-- A group's nesting ends within n levels, of this device's groups or of its coordinator's (R65) (DESIGN CHOICE, assumption 62). -/
def Dev.groupDepthOk (d : Dev) (cls : PClass) : Nat → Bool → Nat → Bool
  | 0, _, _ => false
  | n + 1, own, i => (d.groupMembers own cls i).all fun m => !m.group ||
    match d.groupHere (d.memberDev m) with
    | some o => d.groupDepthOk cls n o m.inst
    | none => true

/-- The patch that holds the staging of a group: the group itself (DESIGN CHOICE, assumption 61). -/
def groupPatch (own : Bool) (cls : PClass) (i : Nat) : Patch := ⟨cls, (if own then 2 ^ 19 else 2 ^ 20) + i⟩

/-- The fields of a group's membership. -/
def groupVals (own : Bool) (cls : PClass) (i : Nat) (ms : List Member) : List FieldVal :=
  let g := groupIdx own cls i
  fv .groupCount g ms.length 16 :: ms.mapIdx fun k m => fv .groupMember (4096 * g + k) m.enc 32

/-- Stage a group of this device, or what a member holds of its coordinator's: a wrong class, a cycle or too deep a nesting are refused;
members of other devices need the coordinator (R65, R78, R79). -/
def cfgGroupSetHere (c : Call) (d : Dev) (g : PatchRef) : Ans × Dev :=
  let own := g.dev == d.num
  let refs := (chunks 4 (c.p 4 0 16) c.bytes).filterMap fun b => PatchRef.ofId (leNat b)
  if refs.any (fun r => r.cls != g.cls || (r.cls == .sram && !r.group && decide (r.inst > 7))) then (.now .badParameter, d) else
  let ms := refs.map fun r => (⟨if r.dev = d.num then none else some r.dev, r.group, r.cls, r.inst⟩ : Member)
  if own ∧ ms.any (·.dev.isSome) ∧ !d.isCoord then (.now .notCoordinator, d) else
  let e : Entry := ⟨c.slot, groupPatch own g.cls g.inst, groupVals own g.cls g.inst ms⟩
  let d' := (d.overlay d.basting).overlay [e]
  if !((List.range 1024).all fun i => d'.conf .groupCount (groupIdx own g.cls i) = 0 || d'.groupDepthOk g.cls 4 own i) then
    (.now .badParameter, d)
  else d.stageAns c [(e.patch, e.vals)]

/-- The other members of the quilt that the coordinator knows and that are not detached. -/
def Dev.quiltMembers (d : Dev) : List Nat :=
  (d.quilt.members.filter fun e => e.2.isSome && e.1 != d.num && !d.isDetached e.1).map (·.1)

/-- A group of this device names units of other devices, committed or with what is staged (R65, R82). -/
def Dev.groupSpreads (d : Dev) (g : PatchRef) : Bool :=
  !(d.remoteDevices g).isEmpty || !((d.overlay d.basting).remoteDevices g).isEmpty

/-- The devices that are to take a coordinator's group: every member known, and those whose units it names or named, which a broadcast reaches
wherever they are (R82). -/
def Dev.groupTargets (d old : Dev) (g : PatchRef) : List Nat :=
  ((d.quiltMembers ++ old.remoteDevices g ++ (d.overlay d.basting).remoteDevices g).filter (!d.isDetached ·)).eraseDups

/-- Stage a group here, or forward the command to the device whose group it is; a coordinator's group that names units of other devices goes
to every member, which expands it (R65, R66, R82) (DESIGN CHOICE, assumption 61). -/
def cfgGroupSet (c : Call) (d : Dev) : Ans × Dev :=
  match c.patch 0 with
  | none => (.now .badParameter, d)
  | some g =>
    let w := FwdWait.start false (d.cfg.staged.filter (·.owner == c.slot))
    if c.slot ≥ 8 then cfgGroupSetHere c d g
    else if g.dev = d.num then
      let r := cfgGroupSetHere c d g
      if r.1 = .now .ok ∧ d.isCoord ∧ (d.groupSpreads g ∨ r.2.groupSpreads g) then
        let f := r.2.forward c (r.2.groupTargets d g) w true
        (.wait f.1, f.2)
      else r
    else if !d.isCoord then (.now .notCoordinator, d)
    else if d.isDetached g.dev ∧ !d.rejoins c.slot g.dev then (.now .detached, d)
    else
      let f := d.forward c [g.dev] w
      (.wait f.1, f.2)

/-- The meaning of `CFG.GROUP_SET`. -/
def bodyCfgGroupSet : Body := onDev cfgGroupSet

/-- CFG_GROUP_SET (R65). -/
def execCfgGroupSet (c : HostCall) (s : State) : Host.Outcome State Fault Refusal := runVerb verbCfgGroupSet bodyCfgGroupSet c s

/-- CFG.GROUP_READ (R78). -/
def verbCfgGroupRead : Verb where
  code := 0x0411
  role := .observer
  len := 0

/-- CFG_GROUP_READ (R67, R78). -/
def execCfgGroupRead (c : HostCall) (s : State) : Host.Outcome State Fault Refusal :=
  runVerb verbCfgGroupRead (onDev fun c d =>
    let g := (d.slot c.slot).groupRec
    (.now .ok (res 25 [fieldAt 0 16 g.read, fieldAt 2 16 g.notRead, at' 4 0 1 (b2n g.mixed), fieldAt 5 48 g.oldest.sec,
      fieldAt 11 32 g.oldest.ns, fieldAt 15 48 g.newest.sec, fieldAt 21 32 g.newest.ns]), d)) c s

end Sys2Proof.Machine
end

