-- ==== Sys2Proof/Machine/Frame.lean ====
section
/-! DEFINITION. The device frame boundary: the frames that the framers and the stitch port send, the chunks in them, the releases of
protection, and the snapshot (R73, R76, R225 to R234, R249 to R254, R266, R268, R384 to R387). -/

namespace Sys2Proof.Machine

/-! ### What is sent of a container (R229 to R234, R253, R268) -/

/-- The backward indications that a transmit container returns for the receive container that names it (R253, R271) (DESIGN CHOICE, assumption 169). -/
def Dev.pathReturn (d : Dev) (c : Nat) : Nat × Dev :=
  match d.pathKeys.find? fun k => k < 1024 && d.conf .returnEn k == 1 && d.conf .returnId k == c with
  | none => (0, d)
  | some k =>
    let p := d.path k
    let n := min 4 p.beiAcc
    (2 * n + b2n p.failed, d.modPath k fun p => { p with beiAcc := p.beiAcc - n })

/-- The chunk that a relayed container sends: the next one of its store, or a substitute with `CI` 1, whose `PFN` follows the last one
sent (R234, assumption 35). -/
def Dev.relayChunk (d : Dev) (c k : Nat) : Chunk × Dev :=
  let x := d.cont c false
  let sub := fun pfn => substitute pfn c k 1
  let sent := fun (d : Dev) (ch : Chunk) => (ch, d.modCont c false fun x => { x with pfn := (ch.pfn + 1) % 65536, lastPfn := ch.pfn })
  match x.relay with
  | [] => sent (if x.relaying then d.relaySlip c else d) (sub x.pfn)
  | ch :: rest =>
    if rest.length ≥ 2 then sent (d.relaySlip c) (sub x.pfn)
    else
      let d := d.modCont c false fun x => { x with relay := rest }
      if ch.k = k ∧ ch.payload.length + 8 = 6250 * k then let r := d.readChunk ch c k; sent r.2 r.1
      else sent ((d.modCont c false fun x => { x with slips := (x.slips + 1) % 2 ^ 32 }).raiseLine .containerSlip c) (sub ch.pfn)

/-- The chunk that a transmit container sends in this device frame, with its path entry; none for one without a source (R232, R253). The
entry of a chunk that came with none is open (assumption 1). -/
def Dev.txChunk (d : Dev) (c : Nat) : Option (Chunk × Nat) × Dev :=
  let k := d.contK false c
  match d.conf .contBind (2 * c) with
  | 1 =>
    let x := d.cont c false
    let s := streamBytes (6250 * k - 8) x.out x.sent
    let ch : Chunk := ⟨chunkHeader x.pfn c 0 k (s.2.2.2.getD 0x1FFFF), s.1, [], none, none⟩
    let r := d.pathReturn c
    let d := r.2.modCont c false fun x => { x with
      out := s.2.1, sent := s.2.2.1, pfn := (x.pfn + 1) % 65536, lastPfn := x.pfn, bip4 := bip4 ch }
    (some (ch, 16 * x.bip4 + r.1), d)
  | 2 =>
    let r := d.relayChunk c k
    match r.1.pm with
    | some p => (some (r.1, p), r.2)
    | none =>
      let f := r.2.draw
      (some (r.1, f.1 % 256), f.2)
  | _ => (none, d)

/-- What the device sends of every container in this device frame: containers of the transmit maps, then the copies that transmit
groups make of them, under the number of P, 1,024 and above for a stitch container (R232, R268). -/
abbrev Sent := List (Nat × Chunk × Nat)

/-- The chunks of the containers that the given subcarriers carry; a transmit group's line P has none of its own (R268). -/
def Dev.txChunks (d : Dev) (scs : List Nat) : Sent × Dev :=
  let cs := ((scs.flatMap fun n => mapConts ((d.sc n).tx.plan.map.getD [])).eraseDups).filter fun c => !d.isCopy c
  cs.foldl (fun (r : Sent × Dev) c =>
    match r.2.txChunk c with
    | (some x, d) => (r.1 ++ [(c, x)], d)
    | (none, d) => (r.1, d)) ([], d)

/-- The copies of the transmit groups (R268): a copy's path entry covers its own chunk before, and returns for itself (DEDUCED, assumption 168). -/
def Dev.txCopies (d : Dev) (l : Sent) : Sent × Dev :=
  d.txGroups.foldl (fun (r : Sent × Dev) g =>
    let w := d.conf .grpW (grpIdx g false)
    let st := d.conf .grpStitch (grpIdx g false)
    let p := d.conf .grpP (grpIdx g false)
    match l.find? (·.1 == w) with
    | none => r
    | some (_, ch, pm) =>
      if d.conf .contBind (2 * w) = 2 then (r.1 ++ [(1024 * st + p, ch, pm)], r.2)
      else
        let key := 1024 * st + p
        let q := if st = 1 then (0, r.2) else r.2.pathReturn p
        let old := (q.2.cont key false).bip4
        (r.1 ++ [(key, ch, 16 * old + q.1)], q.2.modCont key false fun x => { x with bip4 := bip4 ch })) (l, d)

/-! ### A line frame (R222 to R230, R249 to R254) -/

/-- The positions of a map that carry a container, and the lowest of each. -/
def lowest (l : List Nat) (p : Nat) : Option Nat :=
  match entryCont (l.getD p 0) with
  | some c => if (l.take p).any (fun e => entryCont e == some c) then none else some c
  | none => none

/-- The bytes of a slot map in overhead (R227). -/
def Plan.mapBytes (p : Plan) : List Byte :=
  let m := p.map.getD []
  beBytes 1 (p.id % 16 * 16) ++ beBytes 1 (slotsOf p.h p.code) ++ (List.range 17).flatMap fun i => beBytes 2 (m.getD i 0)

/-- A time-transfer record as it stands: the departure, the newest arrival, or the sender's parameters (R333, R334) (DEDUCED, assumption 67). -/
def Dev.ttNew (d : Dev) (k sc r mfc : Nat) (dep cd : Int) : List Byte :=
  if r = 1 then ttStampRecord 1 mfc dep
  else if r = 2 then match ((d.time.tt k).scs.get (fun _ => {}) sc).arr with
    | a :: _ => ttStampRecord 2 a.mfc a.time
    | [] => ttStampRecord 2 0xFFFFFF 0
  else d.ttParRecord k cd

/-- The time-transfer field of frame i of a multiframe, and what sending it keeps: the second copy of a record is the first again; a hub sends
type 2 on dedicated upstream subcarriers only, and nothing is sent with `TT_EN` 0 (R333, R337, R340) (DEDUCED, assumption 67). -/
def Dev.ttField (d : Dev) (k sc i mfc : Nat) (dep cd : Int) : List Byte × Dev :=
  let r := i % 128
  let s := (d.time.tt k).scs.get (fun _ => {}) sc
  if !(d.time.tt k).en || r == 0 || 3 < r || (k == 0 && r == 2 && d.role == .hub && (d.dedLeaf sc).isNone) then (List.replicate 16 0, d) else
  let kept := s.sent.get (fun _ => []) r
  let b := if i < 128 ∨ kept.isEmpty then d.ttNew k sc r mfc dep cd else kept
  (b, d.modTt k fun x => { x with scs := x.scs.modify (fun _ => {}) sc fun s =>
    { s with sent := s.sent.set (fun _ => []) r (if i < 128 then b else []) } })

/-- The receive group whose turn it is: the next from where the turn stands, else the first (R267). -/
def Dev.psGroup (d : Dev) : Option Nat := (d.rxGroups.find? (fun g => g ≥ d.ohd.psNext)).orElse fun _ => d.rxGroups.head?

/-- Protection signalling: the receive groups in turn (R249, R267) (DEDUCED, assumption 168). -/
def Dev.psField (d : Dev) : List Byte :=
  match d.psGroup with
  | none => [0xFF] ++ List.replicate 7 0
  | some g =>
    let x := d.prot g
    beBytes 1 g ++ beBytes 1 (topReq x.reqs * 16 + b2n x.active * 8 + d.conf .grpRev (grpIdx g true) * 4) ++
    beBytes 2 (sat 16 (d.psRescued g)) ++ List.replicate 4 0

/-- The turn of protection signalling moves on by one group per frame. -/
def Dev.psTurn (d : Dev) : Dev :=
  match d.psGroup with
  | none => d
  | some g => d.modOver fun o => { o with psNext := g + 1 }

/-- The report that goes into `SNR_REPORT` of a subcarrier's loading field (R138, R296). -/
def Dev.snrReport (d : Dev) (n : Nat) : Nat :=
  let own := match (d.sc n).snr.smooth with
    | some _ => smoothVal (d.sc n).snr.smooth
    | none => 0xFFFF
  match d.role with
  | .hub => if d.contScs.contains n ∧ (d.dedLeaf n).isSome then own else 0xFFFF
  | .leaf => if d.contScs.contains n ∧ d.ownDedicated n then own else 0xFFFF
  | _ => own

/-- The columns of a payload area side by side (R228). -/
def interleave : Nat → List (List Byte) → List Byte
  | 0, _ => []
  | k + 1, l => l.map (·.headD 0) ++ interleave k (l.map (·.drop 1))

/-- The payload area of a frame: each position carries its part of its container's chunk; a position without one carries bytes that the
spec leaves open (assumption 1) (DESIGN CHOICE, assumption 167). -/
def Dev.payload (d : Dev) (map : List Nat) (slots : Nat) (l : Sent) : List Byte × Dev :=
  let share := fun p => (entryCont (map.getD p 0)).bind fun c => (l.find? (·.1 == c)).map fun x => (c, x.2.1)
  let open' := (List.range slots).any fun p => (share p).isNone
  let f := if open' then d.draw else (0, d)
  let cols := (List.range slots).map fun p => match share p with
    | some (c, ch) =>
      let k := mapSlots map c
      let j := mapSlots (map.take p) c
      (chunks k 6250 ch.bytes).map (·.getD j 0)
    | none => beBytes 6250 (f.1 / 2 ^ (50000 * p))
  (interleave 6250 cols, f.2)

/-- Whether a subcarrier sends a line frame at this boundary: in point-to-point role and on a hub every running tile, on a leaf its
dedicated subcarriers while it is active (R222, R283, R307). -/
def Dev.sendsFrames (d : Dev) (n : Nat) : Bool :=
  d.runs (.sc n) && decide (d.frameNo d.now ≥ (d.sc n).tx.start) &&
  match d.role with
  | .leaf => d.ownDedicated n && d.leaf.state == .active && d.homeUp
  | _ => true

/-- The overhead of a subcarrier's frame, bytes 0 to 507, and what sending it uses up; the payload area's parity is kept for the next
frame (R225, R249). -/
def Dev.overhead (d : Dev) (n : Nat) (cell : List Byte) (l : Sent) : List Byte × Dev :=
  let s := d.sc n
  let t := s.tx
  let at' := t.frameAt (d.frameNo d.now)
  let k := at'.1
  let f := d.txFrame n
  let map := t.plan.map.getD []
  let ann := t.state != .steady
  let fac := d.conf .loopMode (1 + n) == 3
  let used := !(mapConts map).isEmpty
  let label := if !used then 0 else if d.conf .labelMode n = 1 then 0x07 else 0x2C
  let d := if k % 64 = 0 then d.modSec n fun x => { x with txTrace := d.conf .ttiTx n } else d
  let x := d.sec n
  let back := !d.rxShared n
  let bei := if back then min 8 x.beiAcc else 0
  let bdi := back && d.secFailed n
  let dep := let i := d.tcInstant (d.departs n (f - k)).toNat; d.time.timeAt i.1 i.2
  let ptrs := (List.range 17).flatMap fun p => match lowest map p with
    | some c => beBytes 3 ((if l.any (·.1 == c) then 0 else 0x1FFFF) * 128)
    | none => beBytes 3 0
  let pms := (List.range 17).flatMap fun p => match (lowest map p).bind fun c => l.find? (·.1 == c) with
    | some e => beBytes 1 e.2.2
    | none => [0]
  let tree := d.treeField n f
  let tt := tree.2.ttField 0 n k at'.2 dep d.line.cdApplied
  let d := tt.2.modSec n fun x => { x with beiAcc := x.beiAcc - bei }
  (beBytes 1 k ++ beBytes 3 at'.2 ++ beBytes 1 n ++
    beBytes 1 (b2n (d.boot.lastGasp != 0) * 128 + b2n (d.role == .hub) * 64 + b2n fac * 32) ++
    beBytes 2 ((d.line.freqOffset.map (unsigned 16)).getD 0x8000) ++ loadField s (d.snrReport n) ++ cell ++
    t.plan.mapBytes ++ (if ann then t.next else t.plan).mapBytes ++ ptrs ++ [0] ++ beBytes 1 label ++ List.replicate 3 0 ++
    tt.1 ++
    beBytes 1 (d.sec n |>.txTrace |> fun v => v / 256 ^ (63 - k % 64) % 256) ++ [x.txBip] ++ beBytes 1 (bei * 16 + b2n bdi * 8) ++ [0] ++
    pms ++ List.replicate 11 0 ++ d.psField ++ List.replicate 40 0 ++ tree.1 ++ List.replicate 12 0, d)

/-- An overhead with its CRC (R225). -/
def sealOverhead (b : List Byte) : List Byte := b ++ beBytes 4 (crc32 b)

/-- A facility loopback's payload area: what its store holds; without a new one the last is repeated, a slip (R240). Before any has come
the bytes are open (assumption 1) (DESIGN CHOICE, assumption 167). -/
def Dev.loopPayload (d : Dev) (n slots : Nat) : List Byte × Dev :=
  let f := (d.sc n).fr
  match f.loop with
  | p :: _ =>
    (p, d.modFr n fun f => { f with looped := true, slips := if f.looped then (f.slips + 1) % 2 ^ 32 else f.slips })
  | [] =>
    let r := d.draw
    (beBytes (6250 * slots) r.1, r.2)

/-- A sent frame enters the subcarrier's encoder; which of its bits an injection inverts is drawn with it (R199, R217). -/
def Dev.encode (d : Dev) (n : Nat) (f : LineFrame) : Dev :=
  let r := d.injection n
  r.2.modSc n fun s => { s with enc := s.enc.next f r.1 }

/-- A subcarrier's frame leaves, where its band reaches the line, and passes its encoder (R17, R199, R222, R251). -/
def Dev.sendFrame (d : Dev) (n : Nat) (cell : List Byte) (l : Sent) : Dev :=
  let t := (d.sc n).tx
  let slots := slotsOf t.plan.h t.plan.code
  let o := d.overhead n cell l
  let p := if d.conf .loopMode (1 + n) = 3 then o.2.loopPayload n slots else o.2.payload (t.plan.map.getD []) slots l
  let d := p.2.modSec n fun x => { x with txBip := bip8 p.1 }
  let k := (t.frameAt (d.frameNo d.now)).1
  let d := if d.bandUp n then d.emit (.lineFrame n t.plan.h t.plan.code k (sealOverhead o.1) p.1) else d
  (d.encode n ⟨d.departs n (d.txFrame n), n, t.plan.h, t.plan.code, k, sealOverhead o.1 ++ p.1⟩).count (.sc n) 7

/-- Every framer sends its frame: on a point-to-point line all carry one cell (R83). -/
def Dev.sendFrames (d : Dev) (scs : List Nat) (l : Sent) : Dev :=
  if d.role = .p2p then
    if scs.isEmpty then d else
    let c := (d.link 0).nextCell
    let d := d.modLink 0 fun _ => c.2
    scs.foldl (fun d n => d.sendFrame n c.1 l) d
  else
    scs.foldl (fun d n =>
      let c := (d.link n).nextCell
      (d.modLink n fun _ => c.2).sendFrame n c.1 l) d

/-! ### The stitch frame (R384 to R387, R389, R392) -/

/-- The chunk of a leaf's stream at the stitch port: the frames that its bursts have brought, sent again as a packet stream (R231, R232,
R292) (DESIGN CHOICE, assumption 111). -/
def Dev.leafChunk (d : Dev) (c : Nat) : Chunk × Dev :=
  let x := d.cont c true
  let k := d.stitchK c
  let s := streamBytes (6250 * k - 8) x.out x.sent
  (⟨chunkHeader x.pfn c 0 k (s.2.2.2.getD 0x1FFFF), s.1, [], none, none⟩,
   d.modCont c true fun x => { x with out := s.2.1, sent := s.2.2.1, pfn := (x.pfn + 1) % 65536 })

/-- The chunk of a stitch egress container: a leaf's stream; a relayed receive container's next one, or, where none comes because its
section fails, one that stands in for it; or a group's copy (R234, R259, R268, R292, assumption 35). -/
def Dev.stitchShare (d : Dev) (l : Sent) (id : Nat) : Option (Chunk × Nat) × Dev :=
  match (d.listed .contBind).find? fun i => i % 2 = 1 ∧ d.conf .contBind i = 2 ∧ d.conf .contStitch i = id with
  | some i =>
    let c := i / 2
    if d.leafStream c then
      let r := d.leafChunk c
      (some (r.1, 16 * (d.cont c true).bip4), (r.2.modCont c true fun x => { x with bip4 := bip4 r.1 }).count .stitch 4)
    else match (d.cont c true).relay with
    | [] =>
      let x := d.cont c true
      if d.pathServerFails c then
        (some (substitute x.pfn c (d.contK true c) 1, 0), (d.modCont c true fun x => { x with pfn := (x.pfn + 1) % 65536 }).count .line 8)
      else (none, d)
    | ch :: rest =>
      let r := d.readChunk ch c (d.contK true c)
      (some (r.1, ch.pm.getD 0), r.2.modCont c true fun x => { x with relay := rest, pfn := (ch.pfn + 1) % 65536 })
  | none => ((l.find? (·.1 == 1024 + id)).map (·.2), d)

/-- The shares of the egress map, in order of position. -/
def Dev.stitchShares (d : Dev) (l : Sent) : List (Nat × Nat × Option (Chunk × Nat)) × Dev :=
  d.lane.stitch.txMap.foldl (fun (r : List (Nat × Nat × Option (Chunk × Nat)) × Dev) e =>
    let s := r.2.stitchShare l e.1
    (r.1 ++ [(e.1, e.2, s.1)], s.2)) ([], d)

/-- Bytes of the quilt's cell stream: at least n of them, from the cells left over and those that follow (R386). -/
def LinkSt.cells : Nat → LinkSt → List Byte × LinkSt
  | 0, l => ([], l)
  | k + 1, l =>
    let c := l.nextCell
    let r := LinkSt.cells k c.2
    (c.1 ++ r.1, r.2)

/-- The quilt field of a stitch frame: idle cells while the receiver is not `UP` (R386, R389). -/
def Dev.stitchQuilt (d : Dev) : List Byte × Dev :=
  let rest := d.lane.stitch.txRest
  let k := ceilDiv (1250 - rest.length) 16
  let r := if d.lane.stitch.state = .up then LinkSt.cells k (d.link 32) else ((List.replicate k idleCell).flatten, d.link 32)
  let all := rest ++ r.1
  (all.take 1250, (d.modLink 32 fun _ => r.2).modStitch fun x => { x with txRest := all.drop 1250 })

/-- A field of n bytes for each of the 320 positions: the value of the container whose lowest position it is, else 0. -/
def stitchEntries (n : Nat) (l : List (Nat × Nat × Nat)) : List Byte :=
  padTo (320 * n) (l.flatMap fun e => beBytes n e.2.2 ++ List.replicate ((e.2.1 - 1) * n) 0)

/-- A stitch frame leaves: its bytes by lane, but for lanes in far-end loopback; what stands at positions that carry nothing is open
(R383 to R386, assumption 1). -/
def Dev.stitchSend (d : Dev) (l : Sent) : Dev :=
  let r := d.stitchShares l
  let shares := r.1
  let x := d.lane.stitch
  let q := r.2.stitchQuilt
  let d := q.2
  let t := d.boundaryTime
  let smap := padTo 640 (shares.flatMap fun e => (List.replicate e.2.1 (beBytes 2 (32768 + e.1))).flatten)
  let ptrs := stitchEntries 3 (shares.map fun e => (e.1, e.2.1, (if e.2.2.isSome then 0 else 0x1FFFF) * 128))
  let spm := stitchEntries 1 (shares.map fun e => (e.1, e.2.1, (e.2.2.map (·.2)).getD 0))
  let tt := d.ttField 1 0 x.txSfi x.txSfc (x.dep.getD t) 0
  let d := tt.2
  let o := beBytes 1 x.txSfi ++ beBytes 3 x.txSfc ++ beBytes 2 d.num ++
    beBytes 1 (b2n (d.boot.lastGasp != 0) * 128 + b2n (x.state != .up) * 64) ++ [x.txBip] ++
    tt.1 ++ q.1 ++ List.replicate 6 0 ++ smap ++ ptrs ++ spm ++ List.replicate 1396 0
  let full := shares.all fun e => e.2.2.isSome
  let used := (shares.map (·.2.1)).sum
  let f := if full ∧ used = 320 then (0, d) else d.draw
  let open' := fun (i : Nat) => BitVec.ofNat 8 (f.1 / 256 ^ i)
  let bytes := shares.map fun e => match e.2.2 with
    | some c => c.1.bytes
    | none => (List.range (6250 * e.2.1)).map fun i => open' (2000000 + 6250 * 320 * e.1 + i)
  let info := stitchInfo (sealOverhead o) bytes open'
  let d := f.2.modStitch fun x => { x with txBip := bip8 (info.drop 4600), sent := some (info.take 4600, info.drop 4600) }
  let d := d.emit (.stitchLanes ((List.range 8).map fun l => if d.farLoop [16 + l] then [] else laneFrame l info))
  (d.emit (.stitchFrame (sealOverhead o) bytes)).count .stitch 8

/-- The stitch port at a device frame boundary: it transmits while its egress directions are awake and the port is in use; in a relay its
own containers are discarded (R389, R392). -/
def Dev.stitchTick (d : Dev) (l : Sent) : Dev :=
  let on := d.stitchRuns true && d.conf .stitchUse == 1
  if !on then d.modStitch fun x => { x with txOn := false, txSfi := 0, txSfc := 0, dep := none, sent := none, txRest := [] } else
  let d := d.stitchRemap.modStitch fun x => { x with
    txOn := true, txSfi := if x.txOn then (x.txSfi + 1) % 256 else 0,
    txSfc := if x.txOn ∧ x.txSfi = 255 then (x.txSfc + 1) % 2 ^ 24 else if x.txOn then x.txSfc else 0 }
  let d := if d.lane.stitch.txSfi = 0 then
      let t := d.boundaryTime
      ((d.modStitch fun x => { x with dep := some t }).ttSettings 1).ttDepart 1 0 { mfc := d.lane.stitch.txSfc, time := t, start := d.now }
    else d
  if d.conf .stitchRelay = 1 then
    let r := d.stitchShares l
    let n := (r.1.filter (·.2.2.isSome)).length
    (r.2.modStitch fun x => { x with sent := none, discarded := (x.discarded + n) % 2 ^ 32 }).count .stitch 6 n
  else d.stitchSend l

/-! ### The boundary -/

/-- The releases of protection at a device frame boundary: each goes on to the sink of its working container (R264, R266). -/
def Dev.releases (d : Dev) : Dev :=
  d.rxGroups.foldl (fun d g =>
    match d.protRelease g with
    | (none, d) => d
    | (some ch, d) =>
      let c := d.wKey g
      match d.conf .contBind (2 * c + 1) with
      | 1 => d.sinkChunk c ch []
      | 2 => d.relayOut c ch
      | _ => d) d

/-- The work of one device frame boundary (DESIGN CHOICE, assumption 15). -/
def Dev.frame (d : Dev) : Dev :=
  let d := d.takeGen.coefSwitch.cdRamp.releases
  let d := if d.role = .leaf then (match d.upFrame with
    | some f => (d.ownEqdSettle f).alignUp
    | none => d) else d.hubSettle
  let d := d.contScs.foldl Dev.secOverdue (d.pathKeys.foldl Dev.pathFrame d)
  let scs := d.liveScs.filter d.sendsFrames
  let c := d.txChunks scs
  let l := c.2.txCopies c.1
  let d := ((l.2.sendFrames scs l.1).dacOut.stitchTick l.1).psTurn
  let d := d.rxGroups.foldl Dev.rescueSecond d
  let d := { d with boot := { d.boot with lastGasp := d.boot.lastGasp - 1 } }
  (d.secEvalAll.protEvalAll).tagSeconds.pulseFrame

/-- A snapshot point: every value a read command returns is taken here (R76) (DESIGN CHOICE, assumption 15). -/
def State.snapshot (s : State) : State :=
  if s.dev.midCommit then s else
  let d := { s.dev with cfg := { s.dev.cfg with
    snapGen := (s.dev.cfg.snapGen + 1) % 2 ^ 32, snapTime := toQTime s.dev.time16 } }
  { s with dev := d, snap := { d with out := [] } }

/-- DEVICE_FRAME_BOUNDARY: the next boundary, at the first 10 µs tick not yet run (R73, assumption 6). -/
def execDeviceFrameBoundary (s : State) : Host.Outcome State Fault Refusal :=
  s.runAll fun s =>
    let k := max s.dev.boundary (s.dev.frameUp s.dev.now)
    let d := { s.dev.at (s.dev.frameStart k) with boundary := k + 1 }
    ({ s with dev := d.frame }).snapshot

end Sys2Proof.Machine
end

