-- ==== Sys2Proof/Machine/Commit.lean ====
section
/-! DEFINITION. `CFG.COMMIT`: validation, acceptance, and the application of a commit at its boundaries (R23, R26, R71 to R75, R88,
R482, R570). -/

namespace Sys2Proof.Machine

/-! ### Validation (R72) -/

/-- The units that a commit's configuration needs, each as the units any one of which will do (R26). -/
def unitNeeds (new : Dev) (es : List Entry) (rules : Option RuleGen) : List (List PowerUnit) :=
  let set := fun (f : Fld) => (stagedAll es f).filter (·.2 != 0)
  let lanes := fun (n : Nat) => [[laneUnit n false], [laneUnit n true]]
  let release := match rules with
    | some g => if g.acts.any (·.2.verified) then (new.regions 4).map fun r => [PowerUnit.hbm (new.rgStack r)] else []
    | none => []
  (stagedAll es .planH).map (fun e => [PowerUnit.sc e.1]) ++
  (if (stagedAll es .gain).isEmpty then [] else [[PowerUnit.core]]) ++
  (if (staged? es .cdClass 0).isSome then [(List.range 4).map PowerUnit.wb] else []) ++
  (if (set .shared).isEmpty then [] else [[PowerUnit.lem]]) ++
  ((set .portEn).flatMap fun e => (new.portSpan e.1).flatMap fun n =>
    (if bit (new.conf .portDir e.1) 0 then [[PowerUnit.hostIn n]] else []) ++
    (if bit (new.conf .portDir e.1) 1 then [[PowerUnit.hostOut n]] else [])) ++
  (((stagedAll es .laneLoop).filter fun e => e.2 == 1 || e.2 == 3).flatMap fun e => lanes e.1) ++
  (set .rgEn).map (fun e => [PowerUnit.hbm (new.rgStack e.1)]) ++
  (if (set .grpEn).any (·.1 % 2 == 1) then [[PowerUnit.hbm 0, PowerUnit.hbm 1]] else []) ++
  (if (set .stitchRelay).isEmpty then [] else (List.range 8).flatMap fun n => lanes (16 + n)) ++ release

/-- A commit puts to sleep a unit that configuration in force after it uses (R26) (DESIGN CHOICE, assumption 43). -/
def sleepsInUse (new : Dev) (sleeps : List PowerUnit) (rules : Option RuleGen) : Bool :=
  let verified := match rules with
    | some g => g.acts.any (·.2.verified)
    | none => new.pkt.active.acts.any (·.2.verified)
  let released := fun (u : PowerUnit) => match u with
    | .hbm m => verified && new.releaseOn m
    | u => new.inUse u && u != .hbm 0 && u != .hbm 1
  let awakeHbm := (List.range 2).filter fun m => new.runs (.hbm m) && !sleeps.contains (.hbm m)
  sleeps.any released || (new.hasRxGroup && sleeps.any (fun u => u == .hbm 0 || u == .hbm 1) && awakeHbm.isEmpty)

/-- Validation of the role and of units: a unit needed neither runs nor wakes, or sleeps in the same commit; a unit that sleeps is in
use; coefficients while a capture runs (R23, R26, R512) (DEDUCED, assumption 19, DESIGN CHOICE, assumption 27, DESIGN CHOICE, assumption 43). -/
def validateUnits (d new : Dev) (es : List Entry) (rules : Option RuleGen) : Option Status :=
  let sleeps := d.sleepsOf es
  firstOf [
    ((staged? es .role 0).isSome && d.powerState != .dormant, .state),
    ((unitNeeds new es rules).any (·.all fun u => d.lacks u || sleeps.contains u), .state),
    (sleepsInUse new sleeps rules, .state),
    ((staged? es .captHost 0).isSome && d.mon.capt.any (·.started), .state)]

/-- What is refused of a commit as it takes effect (R18, R21, R23, R26, R364, R512). -/
def validateEffect (d new : Dev) (es : List Entry) (rules : Option RuleGen) : Option Status :=
  firstOf [
    ((staged? es .role 0).isSome && d.powerState != .dormant, .state),
    ((unitNeeds new es rules).any (·.all fun u => !d.runs u), .state),
    (((staged? es .role 0).isSome || !(stagedAll es .wakeTarget).isEmpty) && d.modeClash es, .state),
    (sleepsInUse new (d.sleepsOf es) rules, .state),
    ((staged? es .modelImport 0).isSome && (d.ref.sync == .holdover || d.ref.sync == .switching), .state),
    ((staged? es .captHost 0).isSome && d.mon.capt.any (·.started), .state)]

/-- Validation of a generation of rules and of contexts (R420, R471). -/
def validateRules (d new : Dev) (es : List Entry) (rules : Option RuleGen) : Option Status :=
  let touched := rules.isSome || !(stagedAll es .cValid).isEmpty
  firstOf [(rules.any fun g => !g.profilesOk, .classProfile)] |>.orElse fun _ =>
    if touched then (rules.getD d.pkt.active).cryptOk new else none

/-- The group of adjacent subcarriers with `LABEL_MODE` 1 around one of them (R256). -/
def Dev.labelGroup (d : Dev) (n : Nat) : List Nat :=
  let on := fun k => d.conf .labelMode k == 1
  (((List.range n).reverse).takeWhile on) ++ ((List.range 32).filter (· ≥ n)).takeWhile on

/-- Validation of `LABEL_MODE` 1: the maps of a subcarrier's group name containers of one host port (R256) (DESIGN CHOICE, assumption 170). -/
def validateLabel (d new : Dev) (es : List Entry) : Option Status :=
  let ports := fun n => ((new.labelGroup n).flatMap fun k =>
    mapConts ((stagedMap es k).getD (d.sc k).tx.target)).map Config.containerPort
  if ((stagedAll es .labelMode).filter (·.2 == 1)).any fun e => decide ((ports e.1).eraseDups.length > 1) then some .badParameter else none

/-- Validation of one set of staging: the first failing status of the chapters that own its fields, none where all pass (DEDUCED, assumption 19). -/
def Dev.validate (d : Dev) (es : List Entry) (rules : Option RuleGen) : Option Status :=
  let new := d.overlay es
  List.findSome? id [validateUnits d new es rules, validatePower d new es, validateLoad d new es, validateLoop d es, validateProt d new es,
    validateHub new es, validateLeafCfg new es, validateRef d new es, validateLane d new es, validateMem d new es rules,
    validateQueue new es, validateDump new es, validateRules d new es rules, validateLabel d new es]

/-! ### CFG.COMMIT (R71 to R74, R88) -/

/-- CFG.COMMIT (R71). -/
def verbCfgCommit : Verb where
  code := 0x0401
  role := .operator
  len := 20
  params := [⟨0, 2, 6, .rsv⟩, ⟨1, 0, 56, .rsv⟩, ⟨14, 0, 30, .range 0 999999999⟩, ⟨14, 30, 2, .rsv⟩, ⟨18, 0, 16, .rsv⟩]

/-- The generation of rules that an owner has staged. -/
def Dev.stagedRules (d : Dev) (owner : Nat) : Option RuleGen := (d.pkt.staged.filter (·.1 == owner)).map (·.2)

/-- The `OP_ID` of a session's staging on other devices, 0 where it has none (R88). -/
def Dev.remoteOp (d : Dev) (slot : Nat) : Nat :=
  let op := d.quilt.slotOp.get (fun _ => 0) slot
  if op ≠ 0 ∧ d.quilt.sentStreams.any (·.1 == op) then op else 0

/-- An owner's staging moves into an accepted commit (R69). -/
def Dev.takeStaging (d : Dev) (owner : Nat) : Dev :=
  let d := { d with cfg := { d.cfg with staged := d.cfg.staged.filter (·.owner != owner) } }
  if (d.stagedRules owner).isSome then { d with pkt := { d.pkt with staged := none } } else d

/-- Accept a validated commit: it has a number, and its staging moves into it. -/
def Dev.addCommit (d : Dev) (c : PCommit) : Dev :=
  let d := d.takeStaging c.slot
  { d with cfg := { d.cfg with commits := d.cfg.commits ++ [c], nextCommit := c.id + 1 } }

/-- `T` lies too near (R74, R88). -/
def Dev.tooLate (d : Dev) (op t : Nat) : Bool :=
  let x := d.quiltTimes
  decide ((t : Int) < d.time16 + (if op = 0 then us16 2000 else x.1 + x.2 : Nat))

/-- A quilt commit starts, or waits behind the one that runs (R88). -/
def Dev.quiltEnter (d : Dev) (id : Nat) : Dev :=
  if d.quilt.running.isSome ∨ !d.quilt.queued.isEmpty then d.modQuilt fun q => { q with queued := q.queued ++ [id] }
  else d.quiltStart id

/-- Some settings are those of `TIME.LINK_SET`, which apply at a multiframe boundary (R74, R340). -/
def multiframeTied (es : List Entry) : Bool :=
  es.any fun e => e.vals.any fun v => [Fld.ttEn, .ttFibre, .ttAvg, .rxRefMhz, .txExtPs, .rxExtPs, .asymPs].contains v.fld

/-- The commit that `CFG.COMMIT` makes of a session's staging. -/
def Dev.newCommit (d : Dev) (c : Call) (op : Nat) : PCommit :=
  let es := d.cfg.staged.filter (·.owner == c.slot)
  let timed := c.p 0 0 1 == 1
  let later := timed || op != 0 || !(d.wakesOf es).isEmpty || !(d.loadChanges es).isEmpty || multiframeTied es
  { id := d.cfg.nextCommit, slot := c.slot, serial := (d.slot c.slot).serial, seq := c.seq, code := 0x0401, timed := timed,
    applyAt := d.now, t := if timed then some (ofQTime ⟨c.p 8 0 48, c.p 14 0 30⟩) else none, entries := es,
    quilt := if op = 0 then none else some (op, 0), policy := c.p 0 1 1, phase := .waiting, answered := later, wakes := [],
    loads := [], buses := [], fails := [], rules := d.stagedRules c.slot }

/-- Validate the session's staging, then accept it for its boundary, or for the quilt (DEDUCED, assumption 18). -/
def cfgCommit (c : Call) (d : Dev) : Ans × Dev :=
  let op := d.remoteOp c.slot
  let k := d.newCommit c op
  if k.entries.isEmpty ∧ k.rules.isNone ∧ op = 0 then (.now .ok (d.commitRes 0), d) else
  match (d.validate k.entries k.rules).orElse fun _ => if k.timed && d.tooLate op (k.t.getD 0) then some .tooLate else none with
  | some st => (.now st, d.commitRefused c.slot st (op != 0))
  | none =>
    let d := d.addCommit k
    if op = 0 then (if k.answered then .accept (d.commitRes 0) else .wait (.commit k.id), d)
    else
      let d := (d.useOp op).modQuilt fun q => { q with slotOp := q.slotOp.set (fun _ => 0) c.slot 0 }
      (.accept (d.commitRes op), d.quiltEnter k.id)

/-- CFG_COMMIT (R71, R72, R74, R88). -/
def execCfgCommit (c : HostCall) (s : State) : Host.Outcome State Fault Refusal := runVerb verbCfgCommit (onDev cfgCommit) c s

/-! ### The device frame boundary (R23, R26, R73, R75, R482) -/

/-- Fields that a commit acts on and that no rule keeps as settings. -/
def Fld.isAction (f : Fld) : Bool :=
  [Fld.wakeTarget, .rejoin, .gain, .feWrite, .lasWrite, .calImport, .calDrop, .planH, .planCode, .mapEntry, .protReq, .protReskew,
   .leafMove, .modelImport, .rgFilled, .remapSet, .keyLoad, .keyErase, .unquar].contains f

/-- Set a commit's fields but for those of receive patches, which have their own boundary; those of a reference's selection wait while a
switch runs (R73, R355). -/
def Dev.setFields (d : Dev) (es : List Entry) : Dev :=
  (es.flatMap (·.vals)).foldl (fun d v =>
    if v.fld.isAction || rxFields.contains v.fld then d
    else if v.fld.refWaits && d.ref.sync == .switching then d.modRef fun x => { x with held := x.held ++ [v] }
    else d.setConf v.fld v.idx v.val) d

/-- Fields return to their reset values at every index (DESIGN CHOICE, assumption 48). -/
def Dev.dropFields (d : Dev) (l : List Fld) : Dev :=
  { d with cfg := { d.cfg with cfg := d.cfg.cfg.filter fun e => !(l.any fun f => e.1 / 2 ^ 40 == f.ctorIdx) } }

/-- A new role discards the configuration that exists only in another (R23) (DESIGN CHOICE, assumption 48). -/
def Dev.roleDrop (d : Dev) (role : DevRole) : Dev :=
  let d := if role = .hub then d else
    (d.dropFields [.loopFrames, .rtdMin, .rtdMax, .captureDb, .uwThresh, .shared, .discEn, .cycleLog, .grant, .leafEn, .leafDed,
      .leafHome, .leafMod, .leafCode, .leafCont, .leafIdent]).modHub fun h => { h with
        leaves := h.leaves.mapVals (fun _ => {}) fun l => { mseq := l.mseq }, lem := [],
        msgs := h.msgs.filter fun m => m.bytes.headD 0 != 7 }
  if role = .leaf then d else
    (d.dropFields [.ownDisc, .ownSleep, .ownHome, .ownCont, .rxFirst, .rxCount, .txFirst, .txCount, .rxLo, .txLo]).modOwn fun _ => {}

/-- A change of the device's number, of its coordinator or of its membership: the routes are learnt anew (R79, R80). -/
def Dev.quiltCommit (d old : Dev) : Dev :=
  if d.conf .devNum = old.conf .devNum ∧ d.conf .coordNum = old.conf .coordNum ∧ d.conf .quiltEnable = old.conf .quiltEnable then d
  else d.modQuilt fun q => { q with
    nbrs := [], parent := none, distance := 0, members := [], detachedList := [],
    member := if q.member = .detached then .idle else q.member }

/-- What the chapters' fields of a commit do at its device frame boundary; answers the subcarriers that will announce (DESIGN CHOICE, assumption 44). -/
def Dev.commitHooks (d old : Dev) (c : PCommit) : List Nat × Dev :=
  let es := c.entries
  let l := (d.convCommit c.id es).loadCommit c.id es
  let d := ((l.2.contCommit old es).loopCommit old es).protCommit es
  let d := (((d.hubCommit old es).leafCommit es).refCommit old es).laneCommit old es
  let d := ((d.memCommit old es).queueCommit es).cryptCommit old es
  let d := match c.rules with
    | some g => d.swapRules g
    | none => d
  (l.1, (((d.monCommit old es).hkCommit es).quiltCommit old))

/-- The receive patches of subcarriers that are in frame wait for their receive boundaries; the others apply now (R73). -/
def Dev.rxStart (d : Dev) (es : List Entry) : List Nat × Dev :=
  let on := fun n => d.runs (.sc n) && (d.sc n).fr.state == .inFrame
  let l := rxScs es
  (l.filter on, (l.filter (!on ·)).foldl (fun d n => d.rxApply es n) d)

/-- A commit applies at its device frame boundary: fields, chapters, sleeps, receive patches and the dispersion class, the budget, and the
wakes in their order (R73, R75, R482) (DESIGN CHOICE, assumption 44). -/
def Dev.applyCommit (d : Dev) (c : PCommit) : Dev :=
  let es := c.entries
  match validateEffect d (d.overlay es) es c.rules with
  | some st => d.refuseCommit c st
  | none =>
    let old := d
    let wakes := d.wakesOf es
    let sleeps := d.sleepsOf es
    let d := (d.foldCycles).modCommit c.id fun c => { c with phase := .partway [] [] }
    let d := match staged? es .role 0 with
      | some r => d.roleDrop (DevRole.ofCode r)
      | none => d
    let d := d.setFields es
    let full := d.fullAfter es
    let d := d.refHolds c.id es
    let h := d.commitHooks old c
    let d := h.2.sleepUnits sleeps
    let r := d.rxStart es
    let cd := r.2.cdCommit es
    let d := cd.2
    let d := if (staged? es .budget 0).isSome then d.budgetCut else d
    let d := { d with power := { d.power with coreFull := full } }
    let d := wakes.foldl (fun d u => d.enterWake c.id u) d
    d.commitProgress c.id (r.1 ++ (cd.1.toList.filter (!r.1.contains ·))) h.1

/-- A commit waits for its device frame boundary: a quilt commit once its `T` is fixed (R73, R89, R91). -/
def Dev.awaits (d : Dev) (c : PCommit) : Bool :=
  c.phase == .waiting &&
  (c.quilt.isNone || (if c.slot < 8 then d.quilt.running.any (fun q => c.quilt.any (·.1 == q.opId) && q.decided) else c.t.isSome))

/-- The device frame boundary at which a commit applies: the first at or after its apply point that has not passed (R73). -/
def Dev.boundaryOf (d : Dev) (c : PCommit) : Nat :=
  d.gridUp (max d.now (match c.t with
    | some t => d.time.countAt t
    | none => c.applyAt))

/-- The commit that applies next. -/
def Dev.nextCommit (d : Dev) : Option PCommit :=
  let l := d.cfg.commits.filter d.awaits
  let first := (l.map d.boundaryOf).foldl (fun m b => some (match m with | some x => min x b | none => b)) none
  l.find? fun c => first == some (d.boundaryOf c)

/-- A commit that applies at a boundary whose snapshot was taken belongs to that snapshot (R76). -/
def State.resnap (s : State) (b : Nat) : State :=
  if s.dev.midCommit ∨ s.dev.frameStart s.dev.boundary ≤ b then s else { s with snap := { s.dev with out := [] } }

/-- COMMIT_APPLY: the commit that is due next applies at its device frame boundary; or the receive patches of a subcarrier apply at its
receive frame boundary. A multiframe boundary is its own command (R73, R75). -/
def execCommitApply (point : ApplyPoint) (s : State) : Host.Outcome State Fault Refusal :=
  s.runAll fun s =>
    match point with
    | .receive sc => { s with dev := s.dev.rxReachAll sc }
    | .device =>
      match s.dev.nextCommit with
      | none => s
      | some c =>
        let b := s.dev.boundaryOf c
        State.resnap { s with dev := (s.dev.at b).applyCommit c } b

end Sys2Proof.Machine
end

