-- ==== Sys2Proof/Machine/Quilt.lean ====
section
/-! DEFINITION. The quilt's verbs and the messages of its routing and commit protocol (R79 to R94). -/

namespace Sys2Proof.Machine

/-! ### Verbs (R79, R93) -/

/-- QUILT.SET (R79) (DESIGN CHOICE, assumption 216). -/
def verbQuiltSet : Verb where
  code := 0x0501
  role := .privileged
  len := 5
  params := [⟨1, 4, 4, .rsv⟩, ⟨3, 4, 4, .rsv⟩, ⟨4, 1, 7, .rsv⟩]

/-- The meaning of `QUILT.SET`: the number changes only while `ENABLE` is 0. -/
def bodyQuiltSet : Body := stageOn ⟨.device, 0⟩
  (fun c d => if c.p 0 0 12 ≠ d.num ∧ d.inQuilt then some .state else none)
  fun c _ => [fv .devNum 0 (c.p 0 0 12) 12, fv .coordNum 0 (c.p 2 0 12) 12, fv .quiltEnable 0 (c.p 4 0 1) 1]

/-- QUILT_SET (R79). -/
def execQuiltSet (c : HostCall) (s : State) : Host.Outcome State Fault Refusal := runVerb verbQuiltSet bodyQuiltSet c s

/-- QUILT.VIEW (R93). -/
def verbQuiltView : Verb where
  code := 0x0502
  role := .observer
  len := 0
  ext := .either
  shift := true

/-- The devices that are detached, with the generation each last reported. -/
def Dev.detachedDevs (d : Dev) : List (Nat × Nat) := d.quilt.detachedList.filterMap fun e => e.2.map fun g => (e.1, g)

/-- The meaning of `QUILT.VIEW`: the detached list as far as the buffer holds it. -/
def bodyQuiltView : Body := onView fun c v =>
  if !v.isCoord then .now .notCoordinator else
  let l := v.detachedDevs
  let r := res 12 [fieldAt 0 16 (v.conf .coordNum), fieldAt 2 16 v.subtree.1, fieldAt 4 16 l.length, fieldAt 6 8 (sat 8 v.hops),
    at' 7 0 1 1, at' 7 1 1 (b2n (v.quilt.member == .detached)), fieldAt 8 32 v.cfg.quiltGen]
  if c.ext then .wrote ((l.take (c.extLen / 8)).flatMap fun e => leBytes 2 e.1 ++ leBytes 2 0 ++ leBytes 4 e.2) r
  else .now .ok r

/-- QUILT_VIEW (R93). -/
def execQuiltView (c : HostCall) (s : State) : Host.Outcome State Fault Refusal := runVerb verbQuiltView bodyQuiltView c s

/-- QUILT.REJOIN (R93) (DESIGN CHOICE, assumption 216). -/
def verbQuiltRejoin : Verb where
  code := 0x0503
  role := .operator
  len := 2
  params := [⟨1, 4, 4, .rsv⟩]

/-- The meaning of `QUILT.REJOIN` (R92, R93). -/
def bodyQuiltRejoin : Body := stageOn ⟨.quilt, 0⟩ (fun _ d => if d.isCoord then none else some .notCoordinator)
  fun c _ => [fv .rejoin (c.p 0 0 12) 1 16]

/-- QUILT_REJOIN (R92, R93). -/
def execQuiltRejoin (c : HostCall) (s : State) : Host.Outcome State Fault Refusal := runVerb verbQuiltRejoin bodyQuiltRejoin c s

/-- QUEUED_QUILT_COMMIT_START (R88). -/
def execQueuedQuiltCommitStart (s : State) : Host.Outcome State Fault Refusal := s.run fun d => if d.isCoord then d.quiltNext else d

/-! ### Routing (R80, R81, R91) -/

/-- The block's clock stands at least at a device time, in 2^-16 ns. -/
def Dev.atTime (d : Dev) (t : Nat) : Dev := d.at (d.time.countAt t)

/-- A message from below shows on which link its source is reached (DESIGN CHOICE, assumption 177). -/
def Dev.heard (d : Dev) (h : QHead) : Dev :=
  if h.src = d.num ∨ d.fromParent h ∨ d.quilt.dups.contains h.src then d else
  d.modQuilt fun q => { q with members := q.members.set (fun _ => none) h.src (some (d.headLink h)) }

/-- A neighbour on a link and one that is heard on another line link have the same number: the neighbour keys of the others (R81) (DESIGN CHOICE,
assumption 177). -/
def Dev.sameNumber (d : Dev) (k src : Nat) (leaf : Option Nat) : List Nat :=
  if k = 32 then [] else
  (d.quilt.nbrs.filter fun e => e.1 % 4096 == src && e.1 / 4096 != 32 &&
    e.2.any fun x => (e.1 / 4096 != k || x.leaf != leaf) && decide (d.now < x.lastHello + msCycles 10)).map (·.1)

/-- Devices with one number are found: none of them is a neighbour that offers a route, and the coordinator admits none (R81). -/
def Dev.notAdmitted (d : Dev) (keys : List Nat) (n : Nat) : Dev :=
  d.modQuilt fun q => { q with
    nbrs := keys.foldl (fun t k => t.modify (fun _ => none) k fun x => x.map fun x => { x with dup := true }) q.nbrs,
    members := if d.isCoord then q.members.set (fun _ => none) n none else q.members,
    dups := if d.isCoord ∧ !q.dups.contains n then q.dups ++ [n] else q.dups }

/-- A route is chosen anew; a member left with none because its distance exceeds 64 detaches (R80, R81, R91) (DESIGN CHOICE, assumption 183). -/
def Dev.reroute (d : Dev) : Dev :=
  if d.isCoord then d else
  let had := d.quilt.parent.isSome
  let d := d.chooseRoute
  if had ∧ d.quilt.parent.isNone ∧ d.quilt.distance > 64 ∧ (d.quilt.member = .idle ∨ d.quilt.member = .prepared) then
    d.dropRemote.detach 4
  else d

/-- A `HELLO` from a neighbour (R80, R81, R91, R92). -/
def Dev.hello (d : Dev) (h : QHead) (b : HelloBody) : Dev :=
  if !d.inQuilt ∨ b.coord ≠ d.conf .coordNum ∨ h.hopsLeft = 0 then d else
  let k := d.headLink h
  let key := 4096 * k + h.src
  let was := d.quilt.nbrs.get (fun _ => none) key
  let leaf := match h.link with
    | .burst n => some n
    | _ => none
  let others := d.sameNumber k h.src leaf
  let dup := h.src == d.num || !others.isEmpty
  let nbr : NbrSt := ⟨b.distance, d.now, b.quiltGen, b.detached, b.isCoord, b.subtree, b.maxDepth, dup, leaf⟩
  let d := d.modQuilt fun q => { q with nbrs := q.nbrs.set (fun _ => none) key (some nbr) }
  if dup then
    let d := d.notAdmitted others h.src
    if was.any (·.dup) then d else
    let d := if d.isCoord then (d.reportDetached h.src b.quiltGen 5).raise .quiltDuplicate quiltId h.src else d.reportDetached h.src b.quiltGen 5
    if h.src = d.num ∧ !d.isCoord ∧ (d.quilt.member = .idle ∨ d.quilt.member = .prepared) then d.dropRemote.detach 5 else d
  else
    let d := d.reroute.heard h
    let below := fun (d : Dev) => if d.children.any (·.1 == key) then d.subtreeOf key else ([], d)
    if d.isCoord then
      if b.detached then
        let d := d.planReplay h.src b.quiltGen
        if was.any (·.detached) then d else
        let r := below d
        r.1.foldl (fun d n => d.reportDetached n d.cfg.quiltGen 1) r.2
      else if b.quiltGen = d.cfg.quiltGen then
        let d := d.unmark h.src
        if !was.any (·.detached) then d else
        let r := below d
        r.1.foldl (fun d n => match d.quilt.detachedList.get (fun _ => none) n with
          | some g => d.planReplay n g
          | none => d) r.2
      else d
    else if b.detached ∧ !was.any (·.detached) ∧ d.children.any (·.1 == key) then
      let r := below (d.reportDetached h.src b.quiltGen 1)
      r.1.foldl (fun d n => d.reportDetached n d.cfg.quiltGen 1) r.2
    else d

/-- HELLO (R80). -/
def execHello (h : QHead) (b : HelloBody) (s : State) : Host.Outcome State Fault Refusal := s.run fun d => d.hello h b

/-- A `DETACH` at the coordinator: the device is listed, and what it missed is replayed; a duplicate number is not admitted (R81, R91,
R92) (DESIGN CHOICE, assumption 177). -/
def Dev.detachSeen (d : Dev) (dev gen reason : Nat) : Dev :=
  if reason = 5 then
    let d := (d.reportDetached dev gen reason).notAdmitted [] dev
    d.raise .quiltDuplicate quiltId dev
  else d.planReplay dev gen

/-- DETACH: the coordinator lists the device, and replays to it what it missed; another member passes the message on (R86, R91, R92). -/
def execDetach (h : QHead) (dev gen reason : Nat) (s : State) : Host.Outcome State Fault Refusal :=
  s.run fun d =>
    let d := d.heard h
    if !d.isFor h then d.relay h .detach (detachBody dev gen reason)
    else if d.isCoord then d.detachSeen dev gen reason else d

/-- PARENT_HELLO_LOSS: 10 ms without `HELLO` from the parent; with no other route the member detaches, a scheduled one once it has applied
(R91). -/
def Dev.parentLoss (d : Dev) : Dev :=
  match d.quilt.parent.bind fun k => (d.quilt.nbrs.get (fun _ => none) k).map fun x => (k, x) with
  | none => d
  | some (k, x) =>
    let d := d.at (x.lastHello + msCycles 10)
    let d := (d.modQuilt fun q => { q with nbrs := q.nbrs.set (fun _ => none) k none }).chooseRoute
    if d.quilt.parent.isSome then d else
    match d.quilt.member with
    | .scheduled => d.modQuilt fun q => { q with detachNext := true }
    | .detached => d
    | _ => d.dropRemote.detach 1

/-- PARENT_HELLO_LOSS (R91). -/
def execParentHelloLoss (s : State) : Host.Outcome State Fault Refusal :=
  s.run fun d => if d.inQuilt && !d.isCoord then d.parentLoss else d

/-! ### The coordinator's decision (R89, R90) -/

/-- A quilt commit ends without applying: `ABORT`, and the final status of its `CFG.COMMIT` (R89). -/
def Dev.quiltFail (d : Dev) (q : QCommit) (st : Status) : Dev :=
  let c := d.cfg.commits.find? fun c => c.quilt.any (·.1 == q.opId)
  let d := d.quiltDrop q.opId st
  match c with
  | some c => d.refuseCommit c st
  | none => d

/-- `COMMIT_AT` is sent, with the requested time or the lead time from now; devices missing under `REACHABLE` are marked detached and read
again 10 ms after `T` (R89, R90). -/
def Dev.quiltFix (d : Dev) (q : QCommit) (missing : List Nat) : Dev :=
  let t := if q.timed then q.t else d.time16.toNat + q.lead
  let d := d.sendDown .commitAt q.replay q.opId (commitAtBody q.newGen (toQTime t))
  let commits := d.cfg.commits.map fun (c : PCommit) => if c.quilt.any (·.1 == q.opId) then { c with t := some t } else c
  let d := { d with cfg := { d.cfg with commits := commits } }
  let gen := d.cfg.quiltGen
  d.modQuilt fun x => { x with
    running := some { q with decided := true, t := t }, ack := none,
    detachedList := missing.foldl (fun l n => l.set (fun _ => none) n (some gen)) x.detachedList,
    recheck := if missing.isEmpty then x.recheck else x.recheck ++ [(t, q.newGen, missing)] }

/-- What is known of the acknowledgements, with the children that still owe one as missing: how many devices are missing, and those
named (DESIGN CHOICE, assumption 178). -/
def Dev.ackMissing (d : Dev) (a : AckSt) : Nat × List Nat :=
  let below := fun n => ((d.children.find? fun e => e.1 % 4096 == n).map (·.2.subtree)).getD 1
  (a.missCount + (a.waiting.map below).sum, sortBy (fun x y => decide (x ≤ y)) (a.missing ++ a.waiting))

/-- The coordinator decides (R89) (DESIGN CHOICE, assumption 184). -/
def Dev.quiltDecide (d : Dev) : Dev :=
  match d.quilt.running, d.quilt.ack with
  | some q, some a =>
    if q.decided then d else
    let m := d.ackMissing a
    let present := q.targets.filter (!m.2.contains ·)
    if a.count = q.targets.length then
      (if a.digest = q.expected then d.quiltFix q [] else d.quiltFail q .digestMismatch)
    else if m.1 = 0 then d.quiltFail q .digestMismatch
    else if q.policy = 0 ∨ m.1 > m.2.length then d.quiltFail q .quiltUnreachable
    else if a.digest = d.opExpected q.opId present then d.quiltFix q m.2
    else d.quiltFail q .digestMismatch
  | _, _ => d

/-- A member's acknowledgement for its subtree leaves (R87, R89). -/
def Dev.ackSend (d : Dev) (a : AckSt) : Dev :=
  let m := d.ackMissing a
  let body : AckBody := ⟨a.newGen, a.count, m.1, a.digest, m.2.take 5⟩
  (d.sendUp .ack a.opId body.bytes).modQuilt fun q => { q with ack := some { a with sent := true } }

/-- Once every child has answered, the coordinator decides, or the member's own `ACK` leaves (DESIGN CHOICE, assumption 178). -/
def Dev.ackStep (d : Dev) : Dev :=
  match d.quilt.ack with
  | some a =>
    if !a.waiting.isEmpty ∨ a.sent ∨ a.vetoed then d
    else if d.isCoord then d.quiltDecide else d.ackSend a
  | none => d

/-- The acknowledgement of a child's subtree is added (R87, R89). -/
def AckSt.add (a : AckSt) (src : Nat) (b : AckBody) : AckSt :=
  { a with count := a.count + b.count, digest := a.digest ^^^ b.digest, missCount := a.missCount + b.missCount,
           missing := a.missing ++ b.missing.take (min 5 b.missCount), waiting := a.waiting.filter (· != src) }

/-- ACK (R87, R89). -/
def execAck (h : QHead) (b : AckBody) (s : State) : Host.Outcome State Fault Refusal :=
  s.run fun d =>
    let d := d.heard h
    match d.quilt.ack with
    | some a =>
      if !d.inQuilt ∨ h.hopsLeft = 0 ∨ a.opId ≠ h.opId ∨ !a.waiting.contains h.src then d.relay h .ack b.bytes
      else if a.sent ∨ b.newGen ≠ a.newGen then d
      else (d.modQuilt fun q => { q with ack := some (a.add h.src b) }).ackStep
    | none => d.relay h .ack b.bytes

/-- ACK_SEND_DEADLINE: at `ACK_DEADLINE` less its distance a relay sends what its subtree has given (R89). -/
def execAckSendDeadline (s : State) : Host.Outcome State Fault Refusal :=
  s.run fun d =>
    match d.quilt.ack with
    | some a => if d.isCoord ∨ a.sent ∨ a.vetoed then d else (d.atTime a.sendBy).ackSend a
    | none => d

/-- ACK_DEADLINE_EXPIRY: the coordinator decides with what has come (R89). -/
def execAckDeadlineExpiry (s : State) : Host.Outcome State Fault Refusal :=
  s.run fun d =>
    match d.quilt.running with
    | some q => if q.decided ∨ !d.isCoord then d else (d.atTime q.ackDeadline).quiltDecide
    | none => d

/-- VETO: the coordinator aborts; a relay forwards only the first of an `OP_ID` (R87, R89). -/
def execVeto (h : QHead) (gen dev status : Nat) (s : State) : Host.Outcome State Fault Refusal :=
  s.run fun d =>
    let d := d.heard h
    let body := vetoBody gen dev status
    if !d.inQuilt ∨ h.hopsLeft = 0 then d
    else if d.isCoord then
      match d.quilt.running with
      | some q => if q.decided ∨ q.opId ≠ h.opId then d else (d.raise .quiltVeto quiltId dev).quiltFail q .quiltVeto
      | none => d
    else match d.quilt.ack with
      | some a =>
        if a.opId ≠ h.opId then d.relay h .veto body
        else if a.vetoed then d
        else (d.modQuilt fun q => { q with ack := some { a with vetoed := true } }).relay h .veto body
      | none => d.relay h .veto body

/-- The response to the coordinator's `CFG.GEN_READ` of a device marked detached: one that reports `NEW_GEN` is unmarked (R90) (DESIGN CHOICE, assumption 185). -/
def Dev.recheckRead (d : Dev) (src gen : Nat) : Dev :=
  match d.quilt.recheck.findIdx? fun r => r.1 == 0 && r.2.2.contains src with
  | some i =>
    let r := d.quilt.recheck.getD i (0, 0, [])
    let left := r.2.2.filter (· != src)
    let d := d.modQuilt fun q => { q with
      recheck := if left.isEmpty then q.recheck.eraseIdx i else q.recheck.set i (0, r.2.1, left) }
    if gen = r.2.1 then d.unmark src else d
  | none => d

/-- The item of a command that the coordinator itself sends: its code, and no parameters (R50) (DESIGN CHOICE, assumption 185). -/
def ownItem (code : Nat) : Item := BitVec.ofNat 512 (pack [fieldAt 2 16 0xFFFF, fieldAt 4 16 code])

/-- DETACHED_RECHECK: 10 ms after `T` the coordinator sends `CFG.GEN_READ` to the devices it marked (R90). -/
def execDetachedRecheck (s : State) : Host.Outcome State Fault Refusal :=
  s.run fun d =>
    match d.quilt.recheck.findIdx? (·.1 != 0) with
    | some i =>
      if !d.isCoord then d else
      let r := d.quilt.recheck.getD i (0, 0, [])
      let d := (d.atTime (r.1 + us16 10000)).modQuilt fun q => { q with recheck := q.recheck.set i (0, r.2.1, r.2.2) }
      r.2.2.foldl (fun d n => (streamParts 7 (leBytes 64 (ownItem 0x0404).toNat)).foldl (fun d b => d.sendDown .cmd (some n) 0 b) d) d
    | none => d

/-! ### The member (R91) -/

/-- The staging held here under an `OP_ID`: its owner, its entries and its rules. -/
def Dev.heldStaging (d : Dev) (op : Nat) : Nat × List Entry × Option RuleGen :=
  let mine := fun (o : Nat) => decide (o ≥ 8) && o / 8 - 1 == op
  let es := d.cfg.staged.filter fun e => mine e.owner
  let rules := d.pkt.staged.filter fun r => mine r.1
  let owner := ((es.head?.map (·.owner)).orElse fun _ => rules.map (·.1)).getD (8 + 8 * op)
  (owner, es, rules.map (·.2))

/-- A member locks what it holds under an `OP_ID`: it is prepared (R91). -/
def Dev.lockStaging (d : Dev) (op : Nat) (bcast : Bool) (b : PrepareBody) : Dev :=
  let st := d.heldStaging op
  let id := d.cfg.nextCommit
  let was := d.quilt.member == .detached
  let d := d.addCommit
    { id := id, slot := st.1, serial := 0, seq := 0, code := 0x0401, timed := true, applyAt := d.now, t := none, entries := st.2.1,
      quilt := some (op, b.newGen), policy := b.policy, phase := .waiting, answered := false, wakes := [], loads := [], buses := [],
      fails := [], rules := st.2.2 }
  (d.modQuilt fun q => { q with member := .prepared, prep := some ⟨op, was, b.newGen, ofQTime b.tMax, none, id, bcast⟩ }).raise
    .quiltPrepared quiltId op

/-- A member's own answer to `PREPARE`: nothing to lock, locked, or the status of its veto (R89, R91). -/
def Dev.prepareOwn (d : Dev) (op : Nat) (bcast : Bool) (b : PrepareBody) : Option Status × Bool × Dev :=
  let may := d.quilt.member == .idle || d.quilt.member == .detached
  if !may ∨ (d.quilt.held.get (fun _ => []) op).isEmpty then (none, false, d)
  else if !d.time.established then (some .noTime, false, d)
  else
    let st := d.heldStaging op
    match d.validate st.2.1 st.2.2 with
    | some x => (some x, false, d)
    | none => (none, true, d.lockStaging op bcast b)

/-- PREPARE (R87, R89, R91) (DESIGN CHOICE, assumption 183). -/
def Dev.prepare (d : Dev) (h : QHead) (b : PrepareBody) : Dev :=
  let mine := d.isFor h
  let d := d.relay h .prepare b.bytes
  if !mine ∨ !d.fromParent h then d else
  let op := h.opId
  let r := d.prepareOwn op h.bcast b
  let d := r.2.2
  let digest := if r.2.1 then opDigest (d.quilt.held.get (fun _ => []) op) op else 0
  let a : AckSt := ⟨op, b.newGen, ofQTime b.ackDeadline - us16 (100 * d.quilt.distance), b2n r.2.1, digest, 0, [],
    if h.bcast then d.children.map (·.1 % 4096) else [], r.1.isSome, false⟩
  let d := d.modQuilt fun q => { q with ack := some a }
  match r.1 with
  | some st => d.sendUp .veto op (vetoBody b.newGen d.num st.code)
  | none => d.ackStep

/-- PREPARE (R91). -/
def execPrepare (h : QHead) (b : PrepareBody) (s : State) : Host.Outcome State Fault Refusal := s.run fun d => d.prepare h b

/-- COMMIT_AT (R91, R93) (DEDUCED, assumption 179). -/
def Dev.commitAt (d : Dev) (h : QHead) (gen : Nat) (t : QTime) : Dev :=
  let mine := d.isFor h
  let d := d.relay h .commitAt (commitAtBody gen t)
  if !mine ∨ !d.fromParent h then d else
  match d.quilt.prep with
  | some p =>
    if p.opId ≠ h.opId ∨ d.quilt.member ≠ .prepared then d
    else if d.time16 > (ofQTime t : Int) then (d.dropOp p.opId).detach 3
    else (d.modCommit p.commit fun c => { c with t := some (ofQTime t) }).modQuilt fun q => { q with
      member := .scheduled, prep := some { p with t := some (ofQTime t) } }
  | none =>
    if d.quilt.member = .idle ∨ (d.quilt.member = .detached ∧ !h.bcast) then
      d.modQuilt fun q => { q with genAt := some (h.opId, gen, ofQTime t, !h.bcast) }
    else d

/-- COMMIT_AT (R91). -/
def execCommitAt (h : QHead) (gen : Nat) (t : QTime) (s : State) : Host.Outcome State Fault Refusal :=
  s.run fun d => d.commitAt h gen t

/-- ABORT: what is held for the `OP_ID` is discarded; a scheduled member ignores one that comes at `T` − 500 µs or later (R91). -/
def Dev.abort (d : Dev) (h : QHead) (gen status : Nat) : Dev :=
  let mine := d.isFor h
  let d := d.relay h .abort (abortBody gen status)
  if !mine ∨ !d.fromParent h then d else
  let past := fun (t : Nat) => decide (d.time16 ≥ (t : Int) - us16 500)
  let late := d.quilt.prep.any (fun p => p.opId == h.opId && p.t.any past) || d.quilt.genAt.any (fun g => g.1 == h.opId && past g.2.2.1)
  if late then d else
  let prep := d.quilt.prep.filter (·.opId == h.opId)
  let d := (d.dropOp h.opId).modQuilt fun q => { q with
    ack := q.ack.filter (·.opId != h.opId), genAt := q.genAt.filter (·.1 != h.opId) }
  match prep with
  | some p => (d.modQuilt fun q => { q with
      prep := none, detachNext := false, member := if p.wasDetached ∨ q.detachNext then .detached else .idle }).raise .quiltAborted quiltId
        h.opId
  | none => d

/-- ABORT (R91). -/
def execAbort (h : QHead) (gen status : Nat) (s : State) : Host.Outcome State Fault Refusal := s.run fun d => d.abort h gen status

/-- PREPARED_SILENCE_TIMEOUT: neither `COMMIT_AT` nor `ABORT` by `T_MAX` + 10 ms (R91). -/
def execPreparedSilenceTimeout (s : State) : Host.Outcome State Fault Refusal :=
  s.run fun d =>
    match d.quilt.prep with
    | some p =>
      if d.quilt.member ≠ .prepared then d else ((d.atTime (p.tMax + us16 10000)).dropOp p.opId).detach 2
    | none => d

end Sys2Proof.Machine
end

