-- ==== Sys2Proof/Machine/QuiltFwd.lean ====
section
/-! DEFINITION. Forwarded commands: their parts, what a member does with them, and the responses at the coordinator (R67, R82, R86,
R91). -/

namespace Sys2Proof.Machine

/-! ### The commands that name units (R66, R67, R82) -/

/-- The commands whose layouts name patches, with their meanings, and `CFG.GEN_READ` (R90): what another device may be sent. -/
def patchVerbs : List (Verb × Body) :=
  [(verbPowerSet, bodyPowerSet), (verbCfgGroupSet, bodyCfgGroupSet), (verbCfgGenRead, bodyCfgGenRead), (verbSysReset, bodySysReset),
   (verbConvGain, bodyConvGain), (verbConvSwing, bodyConvSwing), (verbConvLevelRead, bodyConvLevelRead), (verbConvMonSet, bodyConvMonSet),
   (verbCalQuality, bodyCalQuality), (verbEqFrontEnd, bodyEqFrontEnd), (verbEqPolSet, bodyEqPolSet), (verbEqReacquire, bodyEqReacquire),
   (verbEqStatus, bodyEqStatus), (verbFecMode, bodyFecMode), (verbFecInject, bodyFecInject), (verbFecStatus, bodyFecStatus)] ++
  [(verbFrameSlotMap, bodyFrameSlotMap), (verbFrameAlignSet, bodyFrameAlignSet), (verbFrameLoopback, bodyFrameLoopback),
   (verbFrameStatus, bodyFrameStatus), (verbBurstShare, bodyBurstShare), (verbBurstGrants, bodyBurstGrants),
   (verbBurstLeafStatus, bodyBurstLeafStatus), (verbBurstDiscRead, bodyBurstDiscRead), (verbLaneEqSet, bodyLaneEqSet),
   (verbLaneLoopback, bodyLaneLoopback), (verbLaneStatus, bodyLaneStatus), (verbLanePortStatus, bodyLanePortStatus),
   (verbLoadPlan, bodyLoadPlan), (verbLoadSnrRead, bodyLoadSnrRead), (verbLoadPropose, bodyLoadPropose), (verbLoadStatus, bodyLoadStatus)] ++
  [(verbMemTestWrite, bodyMemTestWrite), (verbMemScrubSet, bodyMemScrubSet), (verbMemRemap, bodyMemRemap), (verbMemErrRead, bodyMemErrRead),
   (verbMonSelect, bodyMonSelect), (verbMonRead, bodyMonRead), (verbOhSectionSet, bodyOhSectionSet), (verbOhTtiSet, bodyOhTtiSet),
   (verbOhPmRead, bodyOhPmRead), (verbOhDefectRead, bodyOhDefectRead), (verbQueueSet, bodyQueueSet), (verbQueueStatus, bodyQueueStatus),
   (verbRefInputSet, bodyRefInputSet), (verbRefInputStatus, bodyRefInputStatus), (verbRefWtrClear, bodyRefWtrClear)] ++
  [(verbTimeLinkSet, bodyTimeLinkSet), (verbTimePortSet, bodyTimePortSet), (verbTimeTtStatus, bodyTimeTtStatus),
   (verbTimePortStatus, bodyTimePortStatus), (verbClassPipeStatus, bodyClassPipeStatus)]

/-- The layouts by which group reads combine, by command code: the fields' values are of no account (R67). -/
def groupLayouts : List (Nat × List RField) :=
  let v : Dev := {}
  [(verbConvLevelRead.code, levelFields v.conv 0), (verbCalQuality.code, qualityFields v 0), (verbEqStatus.code, eqFields v 0),
   (verbFecStatus.code, fecFields v 0), (verbFrameStatus.code, frameFields v 0), (verbBurstLeafStatus.code, leafFields v 0),
   (verbLaneStatus.code, laneFields v 0), (verbLanePortStatus.code, portFields {}), (verbLoadSnrRead.code, snrFields v 0 0),
   (verbMemErrRead.code, errFields v 0), (verbOhPmRead.code, pmFields {} 0), (verbOhDefectRead.code, defectFields 0 0 0),
   (verbQueueStatus.code, queueFields v 0), (verbRefInputStatus.code, refInputFields v 0), (verbTimePortStatus.code, stampFields {}),
   (verbClassPipeStatus.code, pipeFields v 0), (verbLoadPropose.code, [rf .sum 0 0 16 0, rf .sum 2 0 8 0])]

/-- The layout of a command's group read. -/
def layoutOf (code : Nat) : List RField :=
  match groupLayouts.find? fun x => x.1 == code with
  | some x => x.2
  | none => []

/-- Two results of a group read, combined field by field, that of the lower-numbered device first; the flag says that a configured value
differs (R67). -/
def joinResults (layout : List RField) (a b : Nat) : Nat × Bool :=
  let z := layout.map fun f => (f.bf, Agg.join f.bf.w (bits a f.bf.off f.bf.w) (bits b f.bf.off f.bf.w) f.agg)
  (pack (z.map fun x => { x.1 with v := x.2.1 }), z.any (·.2.2))

/-- What several devices wrote to one buffer, the lowest-numbered first: the records of `MON.READ` are one, whose flag says that a configured value
differs; of a trace the first stands; of `LOAD.PROPOSE` one follows the other (R67, R154, R273, R494). -/
def joinBuffers (code : Nat) (l : List (Nat × List Byte)) : List Byte × Bool :=
  match sortBy (fun a b : Nat × List Byte => decide (a.1 ≤ b.1)) l with
  | [] => ([], false)
  | x :: r =>
    if code = verbMonRead.code then
      let layout := recordFields {} false .dev
      let j := r.foldl (fun a y => let z := joinResults layout a.1 (leNat y.2); (z.1, a.2 || z.2 || bit (leNat y.2) 75)) (leNat x.2, bit (leNat x.2) 75)
      (leBytes 80 (pack [fieldAt 0 32 (bits (leNat x.2) 0 32), at' 9 3 1 (b2n j.2)] ||| j.1), j.2)
    else if code = verbLoadPropose.code then (l.flatMap (·.2), false)
    else (x.2, false)

/-! ### At a member (R66, R82, R86, R91) -/

/-- A part of a stream is added to what has come; the whole stream once its last part is there. A part out of place drops it. -/
def Dev.assemble (d : Dev) (key : Nat) (b : PartBody) : Option (List Byte) × Dev :=
  let had := if b.offset = 0 then [] else d.quilt.streams.get (fun _ => []) key
  let put := fun (l : List Byte) => d.modQuilt fun q => { q with streams := q.streams.set (fun _ => []) key l }
  if b.offset ≠ had.length then (none, put [])
  else if b.last then (some (had ++ b.bytes), put [])
  else (none, put (had ++ b.bytes))

/-- A forwarded command is served on this device's own units (DESIGN CHOICE, assumption 186). -/
def State.serveFor (s : State) (v : Verb) (body : Body) (own : Nat) (item : Item) (stream : List Byte) : State :=
  let c := v.call own .privileged ⟨item, false⟩ ⟨own, [], stream.drop 64⟩
  let r := body c s
  let keep := stagingCodes.contains v.code && (match r.1 with | .now .ok _ => true | _ => false)
  let d := if keep then
      r.2.dev.modQuilt fun q => { q with held := q.held.modify (fun _ => []) (own / 8 - 1) (· ++ stream) }
    else r.2.dev
  { r.2 with dev := d.finish own item [] r.1 }

/-- A whole `CMD` stream: refused while detached but for a replay; a broadcast that names none of this device's units is passed by
(R66, R82, R91). -/
def State.command (s : State) (h : QHead) (slot : Nat) (stream : List Byte) : State :=
  let item := BitVec.ofNat 512 (leNat (stream.take 64))
  let own := 8 + 8 * h.opId + slot % 8
  let refuse := fun (st : Status) => { s with dev := s.dev.respond own item st }
  match patchVerbs.find? fun v => v.1.code == Item.code item with
  | none => if h.bcast then s else refuse .badCommand
  | some (v, body) =>
    let c := v.call own .privileged ⟨item, false⟩ ⟨own, [], stream.drop 64⟩
    if h.bcast ∧ v.code ≠ verbCfgGroupSet.code ∧ (v.patches c).all fun r => (s.dev.localInstances r).isEmpty then s
    else if s.dev.quilt.member = .detached ∧ (h.bcast ∨ h.opId = 0) then refuse .detached
    else s.serveFor v body own item stream

/-- CMD (R82, R86). -/
def execCmd (h : QHead) (b : PartBody) (s : State) : Host.Outcome State Fault Refusal :=
  s.runAll fun s =>
    let mine := s.dev.isFor h
    let d := s.dev.relay h .cmd b.bytes'
    if !mine ∨ !d.fromParent h then { s with dev := d } else
    let r := d.assemble b.slot b
    match r.1 with
    | some stream => State.command { s with dev := r.2 } h b.slot stream
    | none => { s with dev := r.2 }

/-! ### At the coordinator (R67, R82) -/

/-- How many units of some devices a waiting command's patches name. -/
def Dev.groupShares (d : Dev) (item : Item) (devs : List Nat) : Nat × Dev :=
  match patchVerbs.find? fun v => v.1.code == Item.code item with
  | none => (0, d)
  | some (v, _) => v.shares (v.call 0 .privileged ⟨item, false⟩ ⟨0, [], []⟩) d devs

/-- Of a device's units in a group read that it has answered: how many were read, how many not, and whether their configured values differ. Of
more than one the `RSP` tells none of these (R67, R86, assumption 1). -/
def Dev.groupShare (d : Dev) (item : Item) (dev : Nat) : (Nat × Nat × Bool) × Dev :=
  let s := d.groupShares item [dev]
  if s.1 ≤ 1 then ((s.1, 0, false), s.2) else
  let r := s.2.draw
  let n := 1 + r.1 / 2 % s.1
  ((n, s.1 - n, decide (2 ≤ n) && bit r.1 0), r.2)

/-- A response with a status as another device gave it. -/
def Dev.respondCode (d : Dev) (slot : Nat) (cmd : Item) (code : Nat) (r : Res) : Dev :=
  let item := BitVec.ofNat 512 (pack [fieldAt 0 8 0x01, at' 1 0 2 (Item.prio cmd), at' 1 2 3 slot, fieldAt 2 16 (Item.seq cmd),
    fieldAt 4 16 code, fieldAt 6 8 r.len, ⟨64, 448, r.v⟩])
  ((d.modSlot slot fun s => { s with
    taken := none, rsp := s.rsp.push ⟨item, Item.seq cmd, Item.prio cmd, d.time.established⟩ }).count .dev 3).settle 256

/-- The results of a group's devices combined, the lowest-numbered first; the flag says that a configured value differs (R67). -/
def joinDevices (layout : List RField) (l : List (Nat × Nat)) : Nat × Bool :=
  match sortBy (fun a b : Nat × Nat => decide (a.1 ≤ b.1)) l with
  | [] => (0, false)
  | x :: r => r.foldl (fun a y => let j := joinResults layout a.1 y.2; (j.1, a.2 || j.2)) (x.2, false)

/-- The oldest and the newest of some times (R67). -/
def timeSpan : List QTime → QTime × QTime
  | [] => (⟨0, 0⟩, ⟨0, 0⟩)
  | x :: r => r.foldl (fun a t => (if ofQTime t < ofQTime a.1 then t else a.1, if ofQTime a.2 < ofQTime t then t else a.2)) (x, x)

/-- A staging command that some device refused or did not answer is undone: the session's staging here stands as before it, and the devices
that accepted it or were silent discard what they hold of the operation and are sent again what they had accepted before (R66) (DESIGN
CHOICE, assumption 61). -/
def Dev.unstage (d : Dev) (slot : Nat) (w : FwdWait) : Dev :=
  let d := { d with cfg := { d.cfg with staged := d.cfg.staged.filter (·.owner != slot) ++ w.before } }
  (w.done ++ w.devs).foldl (fun d n =>
    let d := d.sendDown .abort (some n) w.op (abortBody 0 w.status)
    let had := (d.quilt.sentStreams.filter fun e => e.1 == w.op && e.2.dev == n).map (·.2.bytes)
    had.foldl (fun d s => (streamParts slot s).foldl (fun d b => d.sendDown .cmd (some n) w.op b) d) d) d

/-- The stream of staging that every device accepted is kept for the commit (R82, R87, R92). -/
def Dev.keepStream (d : Dev) (w : FwdWait) : Dev :=
  match w.stream with
  | none => d
  | some b => d.modQuilt fun q => { q with sentStreams := q.sentStreams ++ w.done.map fun n => (w.op, (⟨0, n, b⟩ : KeptStream)) }

/-- What the devices wrote goes into the command's host-memory buffer (R51). -/
def Dev.bufferOut (d : Dev) (slot : Nat) (item : Item) (w : FwdWait) : Dev :=
  if w.bufs.isEmpty then d else d.emit (.hostWrite slot (scatter w.descs (joinBuffers (Item.code item) w.bufs).1))

/-- Every device has answered, or none will any more: the command completes; a group read with what was read (R66, R67, R82). -/
def Dev.forwardOver (d : Dev) (slot : Nat) (item : Item) (w : FwdWait) : Dev :=
  if w.groupRead then
    let j := joinDevices (layoutOf (Item.code item)) w.acc
    let t := timeSpan w.times
    let b := joinBuffers (Item.code item) w.bufs
    let d := d.setGroupRec slot w.read w.notRead (w.mixed || j.2 || b.2) t.1 t.2
    if w.read = 0 then d.respondCode slot item (if w.status = 0 then Status.state.code else w.status) {}
    else (d.bufferOut slot item w).respondCode slot item 0 { len := w.len, v := j.1 }
  else if w.status = 0 then
    let layout := layoutOf (Item.code item)
    let v := if layout.isEmpty then (w.acc.head?.map (·.2)).getD 0 else (joinDevices layout w.acc).1
    ((d.keepStream w).bufferOut slot item w).respondCode slot item 0 { len := w.len, v := v }
  else (if w.stream.isSome then d.unstage slot w else d).respondCode slot item w.status {}

/-- What one device's response adds to a waiting command: the first failing status, or its part of a group's read (R67, R82). -/
def FwdWait.add (w : FwdWait) (src : Nat) (share : Nat × Nat × Bool) (status len v : Nat) (buf : List Byte) (time : QTime) : FwdWait :=
  let w := { w with devs := w.devs.filter (· != src) }
  let failed := if w.status = 0 then status else w.status
  if status = 0 then
    let w := { w with
      acc := w.acc ++ [(src, v)], len := len, done := w.done ++ [src], bufs := if buf.isEmpty then w.bufs else w.bufs ++ [(src, buf)] }
    if w.groupRead then
      { w with read := w.read + share.1, notRead := w.notRead + share.2.1, mixed := w.mixed || share.2.2, times := w.times ++ [time] }
    else w
  else if w.groupRead then { w with notRead := w.notRead + share.1 + share.2.1, status := failed }
  else { w with status := failed }

/-- A device time that no message carries: a free value (assumption 182). -/
def Dev.drawTime (d : Dev) : QTime × Dev :=
  let r := d.draw
  (⟨r.1 % 2 ^ 48, r.1 / 2 ^ 48 % 1000000000⟩, r.2)

/-- A response to a session's forwarded command (R82). An `RSP` carries no snapshot time (DESIGN CHOICE, assumption 182). -/
def Dev.forwardAnswer (d : Dev) (h : QHead) (slot : Nat) (t : Taken) (w : FwdWait) (rsp : Item) (buf : List Byte) : Dev :=
  let time := if w.groupRead then d.drawTime else (⟨0, 0⟩, d)
  let share := if w.groupRead then time.2.groupShare t.item h.src else ((0, 0, false), time.2)
  let d := share.2
  let w' := w.add h.src share.1 (Item.field rsp 4 0 16) (Item.field rsp 6 0 8) (bits rsp.toNat 64 448) buf time.1
  if w'.devs.isEmpty then d.forwardOver slot t.item w'
  else d.modSlot slot fun s => { s with taken := some { t with why := .forward w' } }

/-- A whole `RSP` stream at the coordinator (DESIGN CHOICE, assumption 182). -/
def Dev.response (d : Dev) (h : QHead) (slot : Nat) (stream : List Byte) : Dev :=
  let rsp := BitVec.ofNat 512 (leNat (stream.take 64))
  let waits := match (d.slot slot).taken with
    | some t => match t.why with
      | .forward w => if w.devs.contains h.src ∧ Item.seq t.item = Item.seq rsp then some (t, w) else none
      | _ => none
    | none => none
  match waits with
  | some (t, w) => d.forwardAnswer h slot t w rsp (stream.drop 64)
  | none => if slot = 7 ∧ h.opId = 0 then d.recheckRead h.src (Item.field rsp 12 0 32) else d

/-- RSP (R82, R86). -/
def execRsp (h : QHead) (b : PartBody) (s : State) : Host.Outcome State Fault Refusal :=
  s.run fun d =>
    let d := d.heard h
    if !d.isFor h ∨ !d.isCoord then d.relay h .rsp b.bytes' else
    let slot := b.slot % 8
    let r := d.assemble (8 * (h.src + 1) + slot) b
    match r.1 with
    | some stream => r.2.response h slot stream
    | none => r.2

/-- FORWARD_TIMEOUT: devices that have not answered in time; members that were not reached are left out of a group's read (R67, R82). -/
def execForwardTimeout (slot : Nat) (s : State) : Host.Outcome State Fault Refusal :=
  s.run fun d =>
    match (d.slot slot).taken with
    | some t => match t.why with
      | .forward w =>
        if slot ≥ 8 then d else
        let d := d.at w.deadline
        let lost := if w.groupRead then d.groupShares t.item w.devs else (0, d)
        lost.2.forwardOver slot t.item { w with
          notRead := w.notRead + lost.1, status := if w.status = 0 then Status.quiltUnreachable.code else w.status }
      | _ => d
    | none => d

end Sys2Proof.Machine
end

