-- ==== Sys2Proof/Machine/Dispatch.lean ====
section
/-! DEFINITION. One arm per command: a direct call of its meaning, or a refusal by name. -/

namespace Sys2Proof.Machine

/-- The effect of a command on everything but the queue. -/
def exec (i : Instr) (s : State) : Host.Outcome State Fault Refusal :=
  match i with
  | .tagWrite slot tag => Sys2Proof.Machine.execTagWrite slot tag s
  | .ring slot => Sys2Proof.Machine.execRing slot s
  | .next b => Sys2Proof.Machine.execNext b s
  | .mark b => Sys2Proof.Machine.execMark b s
  | .rewind b => Sys2Proof.Machine.execRewind b s
  | .release b seq => Sys2Proof.Machine.execRelease b seq s
  | .presentationRead r => Sys2Proof.Machine.execPresentationRead r s
  | .irqArmWrite v => Sys2Proof.Machine.execIrqArmWrite v s
  | .registerWrite w => Sys2Proof.Machine.execRegisterWrite w s
  | .claimTimeout slot => Sys2Proof.Machine.execClaimTimeout slot s
  | .closedSlotTimeout slot => Sys2Proof.Machine.execClosedSlotTimeout slot s
  | .idleTimeout slot => Sys2Proof.Machine.execIdleTimeout slot s
  | .sessionOpen c => Sys2Proof.Machine.execSessionOpen c s
  | .sessionProve c => Sys2Proof.Machine.execSessionProve c s
  | .sessionClose c => Sys2Proof.Machine.execSessionClose c s
  | .sessionEvict c => Sys2Proof.Machine.execSessionEvict c s
  | .sessionClaim c => Sys2Proof.Machine.execSessionClaim c s
  | .sessionCredSet c => Sys2Proof.Machine.execSessionCredSet c s
  | .sessionOpResult c => Sys2Proof.Machine.execSessionOpResult c s
  | .sysRole c => Sys2Proof.Machine.execSysRole c s
  | .sysRoleRead c => Sys2Proof.Machine.execSysRoleRead c s
  | .sysEventSet c => Sys2Proof.Machine.execSysEventSet c s
  | .sysReset c => Sys2Proof.Machine.execSysReset c s
  | .sysBootRead c => Sys2Proof.Machine.execSysBootRead c s
  | .cfgCommit c => Sys2Proof.Machine.execCfgCommit c s
  | .cfgDiscard c => Sys2Proof.Machine.execCfgDiscard c s
  | .cfgCancel c => Sys2Proof.Machine.execCfgCancel c s
  | .cfgGenRead c => Sys2Proof.Machine.execCfgGenRead c s
  | .cfgSnapPin c => Sys2Proof.Machine.execCfgSnapPin c s
  | .snapPinExpiry slot => Sys2Proof.Machine.execSnapPinExpiry slot s
  | .cfgGroupSet c => Sys2Proof.Machine.execCfgGroupSet c s
  | .cfgGroupRead c => Sys2Proof.Machine.execCfgGroupRead c s
  | .commitApply point => Sys2Proof.Machine.execCommitApply point s
  | .quiltSet c => Sys2Proof.Machine.execQuiltSet c s
  | .quiltView c => Sys2Proof.Machine.execQuiltView c s
  | .quiltRejoin c => Sys2Proof.Machine.execQuiltRejoin c s
  | .hello h b => Sys2Proof.Machine.execHello h b s
  | .detach h dev gen reason => Sys2Proof.Machine.execDetach h dev gen reason s
  | .cmd h b => Sys2Proof.Machine.execCmd h b s
  | .rsp h b => Sys2Proof.Machine.execRsp h b s
  | .forwardTimeout slot => Sys2Proof.Machine.execForwardTimeout slot s
  | .prepare h b => Sys2Proof.Machine.execPrepare h b s
  | .ack h b => Sys2Proof.Machine.execAck h b s
  | .veto h gen dev status => Sys2Proof.Machine.execVeto h gen dev status s
  | .commitAt h gen t => Sys2Proof.Machine.execCommitAt h gen t s
  | .abort h gen status => Sys2Proof.Machine.execAbort h gen status s
  | .convGain c => Sys2Proof.Machine.execConvGain c s
  | .convSwing c => Sys2Proof.Machine.execConvSwing c s
  | .convLevelRead c => Sys2Proof.Machine.execConvLevelRead c s
  | .convMonSet c => Sys2Proof.Machine.execConvMonSet c s
  | .levelInterval ms => Sys2Proof.Machine.execLevelInterval ms s
  | .convFeSet c => Sys2Proof.Machine.execConvFeSet c s
  | .convFeWrite c => Sys2Proof.Machine.execConvFeWrite c s
  | .convFeRead c => Sys2Proof.Machine.execConvFeRead c s
  | .convLasSet c => Sys2Proof.Machine.execConvLasSet c s
  | .convLasWrite c => Sys2Proof.Machine.execConvLasWrite c s
  | .convLasRead c => Sys2Proof.Machine.execConvLasRead c s
  | .lasbusTransactionEnd r => Sys2Proof.Machine.execLasbusTransactionEnd r s
  | .calRun c => Sys2Proof.Machine.execCalRun c s
  | .calPolicy c => Sys2Proof.Machine.execCalPolicy c s
  | .calQuality c => Sys2Proof.Machine.execCalQuality c s
  | .calSets c => Sys2Proof.Machine.execCalSets c s
  | .calExport c => Sys2Proof.Machine.execCalExport c s
  | .calImport c => Sys2Proof.Machine.execCalImport c s
  | .calDrop c => Sys2Proof.Machine.execCalDrop c s
  | .calRunEnd m => Sys2Proof.Machine.execCalRunEnd m s
  | .loadPlan c => Sys2Proof.Machine.execLoadPlan c s
  | .loadSnrRead c => Sys2Proof.Machine.execLoadSnrRead c s
  | .loadPolicy c => Sys2Proof.Machine.execLoadPolicy c s
  | .loadNarrow c => Sys2Proof.Machine.execLoadNarrow c s
  | .loadPropose c => Sys2Proof.Machine.execLoadPropose c s
  | .loadStatus c => Sys2Proof.Machine.execLoadStatus c s
  | .loadShapeRead c => Sys2Proof.Machine.execLoadShapeRead c s
  | .txMultiframeBoundary sc => Sys2Proof.Machine.execTxMultiframeBoundary sc s
  | .rxMultiframeBoundary sc m => Sys2Proof.Machine.execRxMultiframeBoundary sc m s
  | .lineFrameReceived f => Sys2Proof.Machine.execLineFrameReceived f s
  | .eqCdSet c => Sys2Proof.Machine.execEqCdSet c s
  | .eqCdScan c => Sys2Proof.Machine.execEqCdScan c s
  | .cdScanEnd m => Sys2Proof.Machine.execCdScanEnd m s
  | .eqFrontEnd c => Sys2Proof.Machine.execEqFrontEnd c s
  | .eqPolSet c => Sys2Proof.Machine.execEqPolSet c s
  | .eqLineSet c => Sys2Proof.Machine.execEqLineSet c s
  | .eqTxResponse c => Sys2Proof.Machine.execEqTxResponse c s
  | .eqReacquire c => Sys2Proof.Machine.execEqReacquire c s
  | .eqLineStatus c => Sys2Proof.Machine.execEqLineStatus c s
  | .eqStatus c => Sys2Proof.Machine.execEqStatus c s
  | .eqScanRead c => Sys2Proof.Machine.execEqScanRead c s
  | .signalLost ms => Sys2Proof.Machine.execSignalLost ms s
  | .coarseEstimateFormed est => Sys2Proof.Machine.execCoarseEstimateFormed est s
  | .sopWindow sc => Sys2Proof.Machine.execSopWindow sc s
  | .laserCorrectionDue local' => Sys2Proof.Machine.execLaserCorrectionDue local' s
  | .fecMode c => Sys2Proof.Machine.execFecMode c s
  | .fecInject c => Sys2Proof.Machine.execFecInject c s
  | .fecStatus c => Sys2Proof.Machine.execFecStatus c s
  | .berWindowEnd sc => Sys2Proof.Machine.execBerWindowEnd sc s
  | .candidateTest sc pos m => Sys2Proof.Machine.execCandidateTest sc pos m s
  | .frameSlotMap c => Sys2Proof.Machine.execFrameSlotMap c s
  | .frameContainer c => Sys2Proof.Machine.execFrameContainer c s
  | .frameAlignSet c => Sys2Proof.Machine.execFrameAlignSet c s
  | .frameLoopback c => Sys2Proof.Machine.execFrameLoopback c s
  | .frameStatus c => Sys2Proof.Machine.execFrameStatus c s
  | .frameContainerStatus c => Sys2Proof.Machine.execFrameContainerStatus c s
  | .chunkReceived envs => Sys2Proof.Machine.execChunkReceived envs s
  | .ohSectionSet c => Sys2Proof.Machine.execOhSectionSet c s
  | .ohTtiSet c => Sys2Proof.Machine.execOhTtiSet c s
  | .ohPathSet c => Sys2Proof.Machine.execOhPathSet c s
  | .ohPmRead c => Sys2Proof.Machine.execOhPmRead c s
  | .ohDefectRead c => Sys2Proof.Machine.execOhDefectRead c s
  | .protGroup c => Sys2Proof.Machine.execProtGroup c s
  | .protRequest c => Sys2Proof.Machine.execProtRequest c s
  | .protStatus c => Sys2Proof.Machine.execProtStatus c s
  | .protReskew c => Sys2Proof.Machine.execProtReskew c s
  | .burstTree c => Sys2Proof.Machine.execBurstTree c s
  | .burstShare c => Sys2Proof.Machine.execBurstShare c s
  | .burstGrants c => Sys2Proof.Machine.execBurstGrants c s
  | .burstAdmit c => Sys2Proof.Machine.execBurstAdmit c s
  | .burstInvite c => Sys2Proof.Machine.execBurstInvite c s
  | .burstRange c => Sys2Proof.Machine.execBurstRange c s
  | .burstLeafStatus c => Sys2Proof.Machine.execBurstLeafStatus c s
  | .burstDiscRead c => Sys2Proof.Machine.execBurstDiscRead c s
  | .burstMove c => Sys2Proof.Machine.execBurstMove c s
  | .burstLeafCfg c => Sys2Proof.Machine.execBurstLeafCfg c s
  | .burstLeafRead c => Sys2Proof.Machine.execBurstLeafRead c s
  | .burstReceived b => Sys2Proof.Machine.execBurstReceived b s
  | .discoveryBurstReceived b => Sys2Proof.Machine.execDiscoveryBurstReceived b s
  | .echoBurstReceived b => Sys2Proof.Machine.execEchoBurstReceived b s
  | .rangingTimeout leaf => Sys2Proof.Machine.execRangingTimeout leaf s
  | .leafBurstSend kind => Sys2Proof.Machine.execLeafBurstSend kind s
  | .seen h ident => Sys2Proof.Machine.execSeen h ident s
  | .assign h ident eqd dedicated rtd => Sys2Proof.Machine.execAssign h ident eqd dedicated rtd s
  | .eqd h eqd applyMfi rtd => Sys2Proof.Machine.execEqd h eqd applyMfi rtd s
  | .range h rangeMfi => Sys2Proof.Machine.execRange h rangeMfi s
  | .report h b => Sys2Proof.Machine.execReport h b s
  | .invite h ident sc => Sys2Proof.Machine.execInvite h ident sc s
  | .move h b => Sys2Proof.Machine.execMove h b s
  | .deregister h => Sys2Proof.Machine.execDeregister h s
  | .discoveryOccasion sc inviteOnly frame => Sys2Proof.Machine.execDiscoveryOccasion sc inviteOnly frame s
  | .timeStep c => Sys2Proof.Machine.execTimeStep c s
  | .timeSlew c => Sys2Proof.Machine.execTimeSlew c s
  | .timeRead c => Sys2Proof.Machine.execTimeRead c s
  | .timeLost c => Sys2Proof.Machine.execTimeLost c s
  | .timeLinkSet c => Sys2Proof.Machine.execTimeLinkSet c s
  | .timePortSet c => Sys2Proof.Machine.execTimePortSet c s
  | .timeTtStatus c => Sys2Proof.Machine.execTimeTtStatus c s
  | .timePortStatus c => Sys2Proof.Machine.execTimePortStatus c s
  | .ppsEdge second frac => Sys2Proof.Machine.execPpsEdge second frac s
  | .refInputSet c => Sys2Proof.Machine.execRefInputSet c s
  | .refSelectSet c => Sys2Proof.Machine.execRefSelectSet c s
  | .refOutputSet c => Sys2Proof.Machine.execRefOutputSet c s
  | .refHoldoverSet c => Sys2Proof.Machine.execRefHoldoverSet c s
  | .refStatus c => Sys2Proof.Machine.execRefStatus c s
  | .refInputStatus c => Sys2Proof.Machine.execRefInputStatus c s
  | .refPtpSet c => Sys2Proof.Machine.execRefPtpSet c s
  | .refModelExport c => Sys2Proof.Machine.execRefModelExport c s
  | .refModelImport c => Sys2Proof.Machine.execRefModelImport c s
  | .refWtrClear c => Sys2Proof.Machine.execRefWtrClear c s
  | .refFailure ref cause => Sys2Proof.Machine.execRefFailure ref cause s
  | .refFailureClears ref => Sys2Proof.Machine.execRefFailureClears ref s
  | .refQualified ref => Sys2Proof.Machine.execRefQualified ref s
  | .refWtrExpiry ref => Sys2Proof.Machine.execRefWtrExpiry ref s
  | .selectionEvaluation m => Sys2Proof.Machine.execSelectionEvaluation m s
  | .switchComplete phase m => Sys2Proof.Machine.execSwitchComplete phase m s
  | .oscTempReading codes => Sys2Proof.Machine.execOscTempReading codes s
  | .lanePortSet c => Sys2Proof.Machine.execLanePortSet c s
  | .laneEqSet c => Sys2Proof.Machine.execLaneEqSet c s
  | .laneLoopback c => Sys2Proof.Machine.execLaneLoopback c s
  | .laneStitchSet c => Sys2Proof.Machine.execLaneStitchSet c s
  | .laneStatus c => Sys2Proof.Machine.execLaneStatus c s
  | .lanePortStatus c => Sys2Proof.Machine.execLanePortStatus c s
  | .laneStitchStatus c => Sys2Proof.Machine.execLaneStitchStatus c s
  | .laneLock lane snr => Sys2Proof.Machine.execLaneLock lane snr s
  | .laneUnlock lane => Sys2Proof.Machine.execLaneUnlock lane s
  | .portUp port => Sys2Proof.Machine.execPortUp port s
  | .portDown port why => Sys2Proof.Machine.execPortDown port why s
  | .stitchFrameReceived f => Sys2Proof.Machine.execStitchFrameReceived f s
  | .hostFrameReceived f e => Sys2Proof.Machine.execHostFrameReceived f e s
  | .verifiedRelease e => Sys2Proof.Machine.execVerifiedRelease e s
  | .queueService q => Sys2Proof.Machine.execQueueService q s
  | .parseProfile c => Sys2Proof.Machine.execParseProfile c s
  | .parseSelect c => Sys2Proof.Machine.execParseSelect c s
  | .parseGlobal c => Sys2Proof.Machine.execParseGlobal c s
  | .classEntryAdd c => Sys2Proof.Machine.execClassEntryAdd c s
  | .classEntryDel c => Sys2Proof.Machine.execClassEntryDel c s
  | .classActionSet c => Sys2Proof.Machine.execClassActionSet c s
  | .classBulk c => Sys2Proof.Machine.execClassBulk c s
  | .classExpressSet c => Sys2Proof.Machine.execClassExpressSet c s
  | .classException c => Sys2Proof.Machine.execClassException c s
  | .classGenClear c => Sys2Proof.Machine.execClassGenClear c s
  | .classStatus c => Sys2Proof.Machine.execClassStatus c s
  | .classFlowRead c => Sys2Proof.Machine.execClassFlowRead c s
  | .classPipeStatus c => Sys2Proof.Machine.execClassPipeStatus c s
  | .queueSet c => Sys2Proof.Machine.execQueueSet c s
  | .queueStatus c => Sys2Proof.Machine.execQueueStatus c s
  | .memRegion c => Sys2Proof.Machine.execMemRegion c s
  | .memBudget c => Sys2Proof.Machine.execMemBudget c s
  | .memFill c => Sys2Proof.Machine.execMemFill c s
  | .memRead c hits => Sys2Proof.Machine.execMemRead c hits s
  | .memWrite c hits => Sys2Proof.Machine.execMemWrite c hits s
  | .memScrubSet c => Sys2Proof.Machine.execMemScrubSet c s
  | .memTestWrite c => Sys2Proof.Machine.execMemTestWrite c s
  | .memRemap c => Sys2Proof.Machine.execMemRemap c s
  | .memErrRead c => Sys2Proof.Machine.execMemErrRead c s
  | .memStatus c => Sys2Proof.Machine.execMemStatus c s
  | .scrubBurstStart mem => Sys2Proof.Machine.execScrubBurstStart mem s
  | .scrubBurstEnd mem hits => Sys2Proof.Machine.execScrubBurstEnd mem hits s
  | .cryptContextSet c => Sys2Proof.Machine.execCryptContextSet c s
  | .cryptKeyLoad c => Sys2Proof.Machine.execCryptKeyLoad c s
  | .cryptKeyErase c => Sys2Proof.Machine.execCryptKeyErase c s
  | .cryptUnquarantine c => Sys2Proof.Machine.execCryptUnquarantine c s
  | .cryptAlarmSet c => Sys2Proof.Machine.execCryptAlarmSet c s
  | .cryptAlarmClear c => Sys2Proof.Machine.execCryptAlarmClear c s
  | .cryptZeroise c => Sys2Proof.Machine.execCryptZeroise c s
  | .cryptStatus c => Sys2Proof.Machine.execCryptStatus c s
  | .cryptContextRead c => Sys2Proof.Machine.execCryptContextRead c s
  | .thimbleAlarm source on edges => Sys2Proof.Machine.execThimbleAlarm source on edges s
  | .powerSet c => Sys2Proof.Machine.execPowerSet c s
  | .powerBudget c => Sys2Proof.Machine.execPowerBudget c s
  | .powerStatus c => Sys2Proof.Machine.execPowerStatus c s
  | .wakeEnd u r => Sys2Proof.Machine.execWakeEnd u r s
  | .thermalReading temps => Sys2Proof.Machine.execThermalReading temps s
  | .monSelect c => Sys2Proof.Machine.execMonSelect c s
  | .monDumpSet c => Sys2Proof.Machine.execMonDumpSet c s
  | .monRead c => Sys2Proof.Machine.execMonRead c s
  | .monStatus c => Sys2Proof.Machine.execMonStatus c s
  | .dumpBoundary consumed => Sys2Proof.Machine.execDumpBoundary consumed s
  | .hkSeqSet c => Sys2Proof.Machine.execHkSeqSet c s
  | .hkRead c => Sys2Proof.Machine.execHkRead c s
  | .hkResult codes => Sys2Proof.Machine.execHkResult codes s
  | .captCoef c => Sys2Proof.Machine.execCaptCoef c s
  | .captStart c => Sys2Proof.Machine.execCaptStart c s
  | .captStop c => Sys2Proof.Machine.execCaptStop c s
  | .captStatus c => Sys2Proof.Machine.execCaptStatus c s
  | .otpProgram c => Sys2Proof.Machine.execOtpProgram c s
  | .otpProgramEnd e => Sys2Proof.Machine.execOtpProgramEnd e s
  | .otpStatus c => Sys2Proof.Machine.execOtpStatus c s
  | .otpRead c => Sys2Proof.Machine.execOtpRead c s
  | .fwLoad c => Sys2Proof.Machine.execFwLoad c s
  | .fwInfo c => Sys2Proof.Machine.execFwInfo c s
  | .porRelease selfTest => Sys2Proof.Machine.execPorRelease selfTest s
  | .pfailAssert consumed => Sys2Proof.Machine.execPfailAssert consumed s
  | .alignmentCandidateFound sc pos r => Sys2Proof.Machine.execAlignmentCandidateFound sc pos r s
  | .openSearchContext sc e => Sys2Proof.Machine.execOpenSearchContext sc e s
  | .stitchLaneMarker lane m => Sys2Proof.Machine.execStitchLaneMarker lane m s
  | .pcieLinkChange p => Sys2Proof.Machine.execPcieLinkChange p s
  | .preconvAttemptEnd sc => Sys2Proof.Machine.execPreconvAttemptEnd sc s
  | .gridTimeout sc => Sys2Proof.Machine.execGridTimeout sc s
  | .convergenceLost sc snr corr => Sys2Proof.Machine.execConvergenceLost sc snr corr s
  | .sopAlarmClearTimeout sc => Sys2Proof.Machine.execSopAlarmClearTimeout sc s
  | .frameLoss sc m => Sys2Proof.Machine.execFrameLoss sc m s
  | .phaseLost sc mark mfi => Sys2Proof.Machine.execPhaseLost sc mark mfi s
  | .dlgClearTimeout sc => Sys2Proof.Machine.execDlgClearTimeout sc s
  | .anchorTimeout g => Sys2Proof.Machine.execAnchorTimeout g s
  | .holdOffExpiry g => Sys2Proof.Machine.execHoldOffExpiry g s
  | .protWtrExpiry g => Sys2Proof.Machine.execProtWtrExpiry g s
  | .leafAlignmentLost leaf => Sys2Proof.Machine.execLeafAlignmentLost leaf s
  | .ttOffsetInvalid stitch => Sys2Proof.Machine.execTtOffsetInvalid stitch s
  | .todMessage second bytes => Sys2Proof.Machine.execTodMessage second bytes s
  | .referenceTimeStep m => Sys2Proof.Machine.execReferenceTimeStep m s
  | .stitchAlignTimeout f => Sys2Proof.Machine.execStitchAlignTimeout f s
  | .stitchSohLoss f => Sys2Proof.Machine.execStitchSohLoss f s
  | .remapCopyDone mem entry => Sys2Proof.Machine.execRemapCopyDone mem entry s
  | .oldHoldExpiry ctx => Sys2Proof.Machine.execOldHoldExpiry ctx s
  | .vtileSetpointChange mv => Sys2Proof.Machine.execVtileSetpointChange mv s
  | .ptpMessageInterval slave => Sys2Proof.Machine.execPtpMessageInterval slave s
  | .proveWaitEnd => Sys2Proof.Machine.execProveWaitEnd s
  | .deviceFrameBoundary => Sys2Proof.Machine.execDeviceFrameBoundary s
  | .queuedQuiltCommitStart => Sys2Proof.Machine.execQueuedQuiltCommitStart s
  | .helloTimer => Sys2Proof.Machine.execHelloTimer s
  | .ackSendDeadline => Sys2Proof.Machine.execAckSendDeadline s
  | .ackDeadlineExpiry => Sys2Proof.Machine.execAckDeadlineExpiry s
  | .preparedSilenceTimeout => Sys2Proof.Machine.execPreparedSilenceTimeout s
  | .parentHelloLoss => Sys2Proof.Machine.execParentHelloLoss s
  | .detachedRecheck => Sys2Proof.Machine.execDetachedRecheck s
  | .feWritesDone => Sys2Proof.Machine.execFeWritesDone s
  | .lasbusStretchTimeout => Sys2Proof.Machine.execLasbusStretchTimeout s
  | .calTrigger => Sys2Proof.Machine.execCalTrigger s
  | .lineTrackLoss => Sys2Proof.Machine.execLineTrackLoss s
  | .performanceSecond => Sys2Proof.Machine.execPerformanceSecond s
  | .pmIntervalEnd => Sys2Proof.Machine.execPmIntervalEnd s
  | .discResponseTimeout => Sys2Proof.Machine.execDiscResponseTimeout s
  | .silentTimeout => Sys2Proof.Machine.execSilentTimeout s
  | .stepAtCount => Sys2Proof.Machine.execStepAtCount s
  | .stepPulseTimeout => Sys2Proof.Machine.execStepPulseTimeout s
  | .slewHoldEnd => Sys2Proof.Machine.execSlewHoldEnd s
  | .acquireLocked => Sys2Proof.Machine.execAcquireLocked s
  | .modelLearnUpdate => Sys2Proof.Machine.execModelLearnUpdate s
  | .generationRetired => Sys2Proof.Machine.execGenerationRetired s
  | .fillBurstEnd => Sys2Proof.Machine.execFillBurstEnd s
  | .keyLoadBulkEnd => Sys2Proof.Machine.execKeyLoadBulkEnd s
  | .leaveGrant => Sys2Proof.Machine.execLeaveGrant s
  | .rampStart => Sys2Proof.Machine.execRampStart s
  | .thermalShutdown => Sys2Proof.Machine.execThermalShutdown s
  | .captureRunStart taps => Sys2Proof.Machine.execCaptureRunStart taps s
  | .captureEnd => Sys2Proof.Machine.execCaptureEnd s
  | .porAssert => Sys2Proof.Machine.execPorAssert s
  | .imageCheckEnd => Sys2Proof.Machine.execImageCheckEnd s
  | .deviceResetStart => Sys2Proof.Machine.execDeviceResetStart s
  | .watchdogReset => Sys2Proof.Machine.execWatchdogReset s
  | .controllerMemoryFault => Sys2Proof.Machine.execControllerMemoryFault s
  | .patchResetApply => Sys2Proof.Machine.execPatchResetApply s
  | .lastGaspEnd => Sys2Proof.Machine.execLastGaspEnd s
  | .pfailRecover => Sys2Proof.Machine.execPfailRecover s

end Sys2Proof.Machine
end

