-- ==== Sys2Proof/Machine/Step.lean ====
section
/-! DEFINITION. One step: the command at the front of the queue is run; on an empty queue time passes. -/

namespace Sys2Proof.Machine

/-- Nothing waits: one AC cycle passes, unless the block is held in reset, where its counter stands (R318, R520; DESIGN CHOICE,
assumption 12). -/
def State.idle (s : State) : State :=
  if s.dev.boot.held then { s with dev := { s.dev with out := [] } }
  else { s with dev := { s.dev with now := s.dev.now + 1, out := [] } }

/-- One step of the block: the command at the front of its queue, run with the queue's rest (assumption 12). -/
def step (s : State) : Host.Outcome State Fault Refusal :=
  match s.pending with
  | [] => .next s.idle
  | c :: rest => exec c { s with pending := rest }

/-- The state with the command that a word spells at the front of its queue; no word spells one. -/
def State.withFetchWord (s : State) (nbits w : Nat) : State :=
  match decodeTableWord nbits w with
  | some c => { s with pending := c :: s.pending }
  | none => s

end Sys2Proof.Machine
end

