-- ==== Sys2Proof/Safety.lean ====
section
/-! DEFINITION. What a safe run is, and the terms in which statements speak of a step: what a command leaves unchanged, the controller's
next command, its answer and its staging. -/

namespace Sys2Proof

/-- A step that goes on: neither a fault nor a refusal. -/
def StepSafe (s : Machine.State) : Prop := ∃ t, Machine.step s = .next t

/-- n steps go on. -/
def RunSafe (n : Nat) (s : Machine.State) : Prop := ∃ t, core.run n s = .next t

namespace Machine

/-! ### What is left unchanged -/

/-- The parts of the device, for saying which of them a command leaves unchanged. `out`, what the last command sent, is no state of
the spec's. -/
inductive Part where
  | now | boundary | free | ctl | cfg | quilt | power | boot | otp | mon | time | conv | line | scs | conts | ohd | ref | lane | pkt
  | mem | crypt
deriving DecidableEq, Repr

/-- From a to b only the listed parts of the device change. -/
abbrev Dev.changesOnly (l : List Part) (a b : Dev) : Prop :=
  (.now ∈ l ∨ b.now = a.now) ∧ (.boundary ∈ l ∨ b.boundary = a.boundary) ∧ (.free ∈ l ∨ b.free = a.free) ∧
  (.ctl ∈ l ∨ b.ctl = a.ctl) ∧ (.cfg ∈ l ∨ b.cfg = a.cfg) ∧ (.quilt ∈ l ∨ b.quilt = a.quilt) ∧
  (.power ∈ l ∨ b.power = a.power) ∧ (.boot ∈ l ∨ b.boot = a.boot) ∧ (.otp ∈ l ∨ b.otp = a.otp) ∧
  (.mon ∈ l ∨ b.mon = a.mon) ∧ (.time ∈ l ∨ b.time = a.time) ∧ (.conv ∈ l ∨ b.conv = a.conv) ∧
  (.line ∈ l ∨ b.line = a.line) ∧ (.scs ∈ l ∨ b.scs = a.scs) ∧ (.conts ∈ l ∨ b.conts = a.conts) ∧
  (.ohd ∈ l ∨ b.ohd = a.ohd) ∧ (.ref ∈ l ∨ b.ref = a.ref) ∧ (.lane ∈ l ∨ b.lane = a.lane) ∧
  (.pkt ∈ l ∨ b.pkt = a.pkt) ∧ (.mem ∈ l ∨ b.mem = a.mem) ∧ (.crypt ∈ l ∨ b.crypt = a.crypt)

/-! ### Interrupts (R42, R43) -/

/-- The interrupt discipline of R42 and R43: no vector stays armed while its source's condition holds, no unmasked vector stays
pending, and the attention output is what the selected sources make it. -/
abbrev Dev.IrqSettled (d : Dev) : Prop :=
  (∀ v, v < 12 → bit d.ctl.irq.armed.toNat v = true → d.srcCond v = false) ∧
  (∀ v, v < 12 → bit d.ctl.irq.pba.toNat v = true → d.ctl.irq.masked v = true) ∧
  d.ctl.irq.pin = d.attention

/-! ### A command, run -/

/-- The device as a command finds it: what the last command sent is gone. -/
abbrev State.quiet (s : State) : Dev := { s.dev with out := [] }

/-- `exec i s` answers a next state of which P holds. -/
def Completes (i : Instr) (s : State) (P : State → Prop) : Prop := ∃ t, exec i s = .next t ∧ P t

/-- An event row: wherever `cond` holds of a device that is not halted, the command completes, `post` holds of the device before
and after, and only the listed parts change. -/
def Happens (i : Instr) (l : List Part) (cond : Dev → Prop) (post : Dev → Dev → Prop) : Prop :=
  ∀ s : State, s.dev.halted = false → cond s.dev →
    Completes i s fun t => post s.dev t.dev ∧ s.dev.changesOnly l t.dev

/-! ### Host commands (R52, R569) -/

/-- The device once the controller has taken the command at place k of a slot's bobbin. -/
abbrev State.taken (s : State) (slot k : Nat) : Dev := s.quiet.takeCmd slot k

/-- The call that a waiting command makes. -/
abbrev Verb.callOf (v : Verb) (c : HostCall) (s : State) (e : CmdEntry) : Call := v.call c.slot (s.dev.slot c.slot).role e c

/-- The command at place k of its slot's bobbin, of this verb, is the controller's next (R52). -/
structure Turn (v : Verb) (c : HostCall) (s : State) (k : Nat) (e : CmdEntry) : Prop where
  runs : s.dev.halted = false
  next : s.dev.nextCmd = some (c.slot, k, e)
  code : Item.code e.item = v.code

/-- Besides, it passes the checks of R569 that are common to every command, and names units of this device alone. -/
structure Ready (v : Verb) (c : HostCall) (s : State) (k : Nat) (e : CmdEntry) : Prop extends Turn v c s k e where
  header : (s.taken c.slot k).checkHeader c.slot e = none
  params : v.check (v.callOf c s e) (s.taken c.slot k) = none
  near : v.remotes (v.callOf c s e) (s.taken c.slot k) = []

/-- From s to t the slot's response bobbin has gained, first of all, the response to the command e with this status and these
results (R40, R53). -/
def Answers (s t : State) (slot : Nat) (e : CmdEntry) (st : Status) (r : Res) : Prop :=
  ∃ est more, (t.dev.slot slot).rsp.unread =
    (s.dev.slot slot).rsp.unread ++ ⟨responseItem slot e.item st r, Item.seq e.item, Item.prio e.item, est⟩ :: more

/-- A command that may complete with a status and results: wherever it is the controller's next, passes the common checks and
`ok` holds of its call, its session's view and the device that has taken it, it answers `st` with the results `r` of them, `post` holds
of the device before and after, and only the listed parts change. -/
def Serves (v : Verb) (i : HostCall → Instr) (st : Status) (l : List Part) (ok : Call → Dev → Dev → Prop)
    (r : Call → Dev → Dev → Res) (post : Call → Dev → Dev → Prop) : Prop :=
  ∀ c s k e, Ready v c s k e → ok (v.callOf c s e) (s.view c.slot) (s.taken c.slot k) →
    Completes (i c) s fun t =>
      Answers s t c.slot e st (r (v.callOf c s e) (s.view c.slot) (s.taken c.slot k)) ∧
      post (v.callOf c s e) (s.taken c.slot k) t.dev ∧ s.dev.changesOnly l t.dev

/-- A call of an open session whose role suffices, with the verb's parameter length and no buffer (R48, R569). -/
abbrev Verb.fits (v : Verb) (c : Call) (d : Dev) : Prop :=
  (d.slot c.slot).state = .opened ∧ v.role.code ≤ c.role.code ∧ Item.field c.item 6 0 16 = v.len ∧ c.ext = false

/-- A command that is refused by its parameters: wherever it is the controller's next, its header is good and `bad` holds of its call and
the device that has taken it, it answers `st` without results, and nothing of the device changes but the mailbox and the counters. -/
def Refuses (v : Verb) (i : HostCall → Instr) (st : Status) (bad : Call → Dev → Prop) : Prop :=
  ∀ c s k e, Turn v c s k e → (s.taken c.slot k).checkHeader c.slot e = none → bad (v.callOf c s e) (s.taken c.slot k) →
    Completes (i c) s fun t => Answers s t c.slot e st {} ∧ s.dev.changesOnly [.ctl, .mon] t.dev

/-! ### Staging (R66 to R70) -/

/-- An owner can stage the patches: none is locked or staged by another session, and the basting area has room (R69, R70). -/
abbrev Dev.canStage (d : Dev) (owner : Nat) (l : Staging) : Prop := (d.stage owner l).1 = .ok

/-- A staging command: wherever it is ready, `ok` holds and there is room, it answers `OK` without results; the session's staged
entries have gained the fields `l` of its call and nothing else of the device has changed but the mailbox and the counters: no
committed field in particular (R68). -/
def Stages (v : Verb) (i : HostCall → Instr) (ok : Call → Dev → Prop) (l : Call → Dev → Staging) : Prop :=
  Serves v i .ok [.ctl, .mon, .cfg] (fun c _ d => ok c d ∧ d.canStage c.slot (l c d)) (fun _ _ _ => {})
    fun c d d' => d'.cfg = { d.cfg with staged := (l c d).foldl (stageOne c.slot) d.cfg.staged }

/-- The fields that a command gives each unit that its patch names. -/
def eachUnit (f : Call → Nat → List FieldVal) (c : Call) (d : Dev) : Staging := (c.insts d).map fun n => (⟨c.cls, n⟩, f c n)

/-- A read: wherever it is ready and `ok` holds of its call and the session's view, it answers `OK` with n bytes among which the
fields `flds` stand, and nothing of the device changes but the mailbox and the counters (R67, R76). -/
def Reads (v : Verb) (i : HostCall → Instr) (n : Nat) (ok : Call → Dev → Prop) (flds : Call → Dev → List Bf) : Prop :=
  ∀ c s k e, Ready v c s k e → ok (v.callOf c s e) (s.view c.slot) →
    Completes (i c) s fun t => (∃ r : Res, Answers s t c.slot e .ok r ∧ r.len = n ∧
        ∀ b ∈ flds (v.callOf c s e) (s.view c.slot), bits r.v b.off b.w = b.v % 2 ^ b.w) ∧
      s.dev.changesOnly [.ctl, .mon] t.dev

/-- A read of one unit m that `ok` holds of (R67). -/
def ReadsUnit (v : Verb) (i : HostCall → Instr) (n : Nat) (ok : Dev → Nat → Prop) (flds : Dev → Nat → List Bf) : Prop :=
  ∀ m, Reads v i n (fun c w => c.insts w = [m] ∧ ok w m) fun _ w => flds w m

/-- A command that is taken and answered later: wherever it is ready and `ok` holds, it has no response yet and waits as `why`
says; `post` holds of the device before and after, and only the listed parts change (R49). -/
def Waits (v : Verb) (i : HostCall → Instr) (l : List Part) (ok : Call → Dev → Prop) (why : Call → Dev → Waiting)
    (post : Call → Dev → Dev → Prop) : Prop :=
  ∀ c s k e, Ready v c s k e → ok (v.callOf c s e) (s.taken c.slot k) →
    Completes (i c) s fun t =>
      (t.dev.slot c.slot).taken = some ⟨e.item, why (v.callOf c s e) (s.taken c.slot k)⟩ ∧
      post (v.callOf c s e) (s.taken c.slot k) t.dev ∧ s.dev.changesOnly l t.dev

/-- From d to d' the event bobbin has gained an event of this kind and `INFO`, unless its source is disabled or no place was left
(R58, R61, R62). -/
def Dev.raised (d d' : Dev) (ev : Ev) (info : Nat) : Prop :=
  d.conf .evtEnable ev.code ≠ 0 → d.ctl.evt.bob.used < 255 → d.ctl.evt.overflow = none →
    ∃ more, d'.ctl.evt.bob.unread = d.ctl.evt.bob.unread ++ more ∧
      ∃ x ∈ more, Item.field x.bits 4 0 9 = ev.code ∧ Item.field x.bits 6 0 16 = info % 2 ^ 16

/-! ### Bursts (R283, R285, R288, R295) -/

/-- From d to d' a leaf's burst leaves whose first symbol departs at an instant of the TC scale: its symbols, the preamble and the unique word
first, and the counter value with its fraction at which they leave. -/
def Dev.BurstLeaves (d d' : Dev) (sc : Nat) (start : Int) : Prop :=
  d'.now = max d.now (d.tcReach start.toNat) ∧
  ∃ l, .burst sc (d.tcInstant start.toNat).1 (d.tcInstant start.toNat).2 l ∈ d'.out ∧ l.take 320 = preamble ++ wordSyms 0x2B false

/-- The upstream frame k is the next of its multiframe index, 4 frames or more after the first frame that a message's first copy has come in. -/
def LeafOwn.Names (l : LeafOwn) (mfi k : Nat) : Prop :=
  l.no < k ∧ l.no + 4 ≤ k + l.unheard ∧ k < l.no + 260 ∧ k % 256 = mfi % 256

/-! ### Keys (R469) -/

/-- Every key is gone (R469): no slot of a context holds one, no key-encryption key exists, no packet waits for its tag's verdict, and no
credential stands but those of OTP. -/
def Dev.keyless (d : Dev) : Prop :=
  (∀ n an, ((d.ctx n).slot an).state = .empty) ∧ d.crypt.keks = false ∧ d.pkt.held = [] ∧
  ∀ r ∈ [1, 2, 3], d.conf .credSet r = 0 ∧ d.conf .credKey r = 0

/-! ### Whole-device resets (R525) -/

/-- What a warm reset leaves of the device d, the image kept or not, with its cause: the boot state starts afresh, sessions, staging and
configuration are gone, every unit is asleep, the memories and the key slots are empty; the alarm, device time, the PCIe link and OTP
stay (R525, R532). -/
def Dev.warmed (d d' : Dev) (keep : Bool) (cause : ResetCause) : Prop :=
  d'.boot.held = false ∧ d'.boot.stage = (if keep then 1 else 0) ∧ d'.boot.image = (if keep then d.boot.image else []) ∧
  d'.boot.cause = cause ∧ d'.boot.warm = (d.boot.warm + 1) % 2 ^ 16 ∧ (∀ n, d'.slot n = {}) ∧ d'.cfg.staged = [] ∧
  (∀ f i, d'.conf f i = f.reset i) ∧ (∀ u, d'.runs u = false) ∧ { d'.mem with mems := [] } = ({} : MemAll) ∧
  (∀ m, d'.memSt m = if m < 10 then { passFrom := d'.now } else {}) ∧ d'.crypt.ctxs = [] ∧ d'.crypt.alarm = d.crypt.alarm ∧
  (∀ c x, d'.time.timeAt c x = d.time.timeAt c x) ∧ d'.ctl.pcie = d.ctl.pcie ∧ (d.otp.prog = none → d'.otp = d.otp)

end Machine

end Sys2Proof
end

