-- ==== Sys2Proof/Certificates/Slice0/Obligations.lean ====
section
/-! DEFINITION. The statements for the provers. -/

open Sys2Proof Sys2Proof.Machine

/-! ### The queue and reset -/

/-- The command at the front of the queue is run with the queue's rest. -/
def Obligations.StepRunsTheFrontCommand : Prop :=
  ∀ (c : Instr) (rest : List Instr) (s : State), step { s with pending := c :: rest } = exec c { s with pending := rest }

/-- Every command goes on: none ends in a fault or a refusal, and none touches the queue. On an empty queue one AC cycle passes unless
`POR_N` is low, and nothing else happens (the model's choice, assumption 12). -/
def Obligations.EveryCommandCompletesAndAnEmptyQueueLetsTimePass : Prop :=
  (∀ (i : Instr) (s : State), ∃ t, exec i s = .next t ∧ t.pending = s.pending) ∧
  (∀ s : State, s.pending = [] →
     ∃ t, step s = .next t ∧ t.dev.now = s.dev.now + (if s.dev.boot.held then 0 else 1) ∧ s.dev.changesOnly [.now] t.dev ∧
       t.pending = [] ∧ t.snap = s.snap ∧ t.pins = s.pins)

/-- What reset leaves (R520, R522, R22, R31, R43, R68, R79, R318): `POR_N` low, the counter at 0, `STAGE` 0, no session, nothing waiting, no
unit awake, no vector armed, the role unset, every configuration field at its default. -/
def Obligations.ResetLeavesTheDeviceDormant : Prop :=
  State.reset.pending = [] ∧ State.reset.dev.boot.held = true ∧ State.reset.dev.boot.stage = 0 ∧ State.reset.dev.now = 0 ∧
  (∀ n, (State.reset.dev.slot n).state = .free ∧ (State.reset.dev.slot n).cmds = []) ∧
  (∀ u, State.reset.dev.runs u = false) ∧ State.reset.dev.powerState = .dormant ∧ State.reset.dev.role = .unset ∧
  (∀ f i, State.reset.dev.conf f i = f.reset i) ∧ State.reset.dev.ctl.irq.armed = 0 ∧ State.reset.dev.ctl.evt.lost = 0 ∧
  State.reset.dev.cfg.snapGen = 0 ∧ State.reset.dev.num = 0

/-- Every step keeps the interrupt discipline, whatever command it runs and from whatever state (R42, R43). -/
def Obligations.EveryStepKeepsInterruptsSettled : Prop :=
  ∀ s t : State, s.dev.IrqSettled → step s = .next t → t.dev.IrqSettled

/-- Every step keeps the canonical form of HBM's stored lines, whatever command it runs and from whatever state. -/
def Obligations.EveryStepKeepsTheMemoryCanonical : Prop :=
  ∀ s t : State, s.dev.mem.wf = true → step s = .next t → t.dev.mem.wf = true

/-- Both invariants hold at reset. -/
def Obligations.InvariantsHoldAtReset : Prop :=
  State.reset.dev.IrqSettled ∧ State.reset.dev.mem.wf = true

/-! ### The mailbox (R36 to R49) -/

/-- TAG_WRITE (R44) with firmware running: a free slot is claimed with one credit, a closed slot freed by tag 0, any other write ignored; no
other slot changes. CLAIM_TIMEOUT, CLOSED_SLOT_TIMEOUT and IDLE_TIMEOUT (R44, R49) act no earlier than their deadline. -/
def Obligations.SlotsAreClaimedFreedAndTimeOut : Prop :=
  (∀ n tag, Happens (.tagWrite n tag) [.ctl] (fun d => n < 8 ∧ d.fwRuns = true) fun d d' =>
     (∀ m, m ≠ n → d'.slot m = d.slot m) ∧
     d'.slot n =
       (if tag ≠ 0 ∧ (d.slot n).state = .free then
         { d.slot n with tag := tag, state := .claimed, credits := 1, claimedAt := d.now, lastRing := d.now, rung := false }
       else if tag = 0 ∧ (d.slot n).state = .closed then
         { releaseErr := (d.slot n).releaseErr, doorbellLost := (d.slot n).doorbellLost, closeReason := (d.slot n).closeReason,
           cmdItem := (d.slot n).cmdItem }
       else d.slot n)) ∧
  ((∀ n, Happens (.claimTimeout n) [.now, .ctl] (fun d => (d.slot n).state = .claimed ∧ (d.slot n).rung = false) fun d d' =>
     (d'.slot n).state = .free ∧ (d'.slot n).tag = 0 ∧ d'.now = max d.now ((d.slot n).claimedAt + 25000000)) ∧
   (∀ n, Happens (.closedSlotTimeout n) [.now, .ctl] (fun d => (d.slot n).state = .closed) fun d d' =>
     (d'.slot n).state = .free ∧ (d'.slot n).rsp = {} ∧ d'.now = max d.now ((d.slot n).closedAt + 250000000)) ∧
   (∀ n, Happens (.idleTimeout n) [.now, .ctl, .mon, .cfg, .pkt, .quilt]
     (fun d => n < 8 ∧ (d.slot n).state = .opened ∧ (d.slot n).idleTimeout ≠ 0) fun d d' =>
     (d'.slot n).state = .closed ∧ (d'.slot n).closeReason = Status.idleTimeout.code ∧
     d'.now = max d.now ((d.slot n).lastRing + 25000000 * (d.slot n).idleTimeout)))

/-- RING (R40): with a free credit, the slot holds one credit more; the item waits behind those rung before it where every command waiting
anywhere is one of the Lulon set. RING without a free credit closes the session with `CREDIT_EXCEEDED`; one to a free or closed slot only
sets `DOORBELL_LOST` (R31, R40). -/
def Obligations.RingTakesACreditOrClosesTheSession : Prop :=
  (∀ n, Happens (.ring n) [.ctl, .mon]
     (fun d => n < 8 ∧ (d.slot n).state ≠ .free ∧ (d.slot n).state ≠ .closed ∧ (d.slot n).creditsFree ≠ 0) fun d d' =>
     (d'.slot n).creditsHeld = (d.slot n).creditsHeld + 1 ∧ (d'.slot n).rung = true ∧ (d'.slot n).lastRing = d.now ∧
     (knownCodes.contains (Item.code (d.slot n).cmdItem) = true →
       (∀ m, (d.slot m).cmds.all (fun e => knownCodes.contains (Item.code e.item)) = true) →
       (d'.slot n).cmds = (d.slot n).cmds ++ [⟨(d.slot n).cmdItem, (d.slot n).seqHeld (Item.seq (d.slot n).cmdItem)⟩])) ∧
  ((∀ n, Happens (.ring n) [.ctl, .mon, .cfg, .pkt, .quilt]
     (fun d => n < 8 ∧ (d.slot n).state ≠ .free ∧ (d.slot n).state ≠ .closed ∧ (d.slot n).creditsFree = 0) fun _ d' =>
       (d'.slot n).state = .closed ∧ (d'.slot n).closeReason = Status.creditExceeded.code ∧ (d'.slot n).cmds = []) ∧
   (∀ n, Happens (.ring n) [.ctl] (fun d => n < 8 ∧ ((d.slot n).state = .free ∨ (d.slot n).state = .closed)) fun d d' =>
     d'.slot n = { d.slot n with doorbellLost := true } ∧ ∀ m, m ≠ n → d'.slot m = d.slot m))

/-- NEXT, MARK, REWIND, RELEASE and PRESENTATION_READ of a bobbin that the host consumes (R37, R38). IRQ_ARM_WRITE and REGISTER_WRITE (R29,
R30, R34, R43): a vector written 1 is armed until its condition holds; the attention word takes its defined bits; an access that is not of
four bytes or not aligned, or a write beyond BAR0, reads as zeros and changes nothing; over SPI a whole word below the MSI-X table is
written as over PCIe, and a transfer with another opcode is ignored. -/
def Obligations.BobbinsAndInterruptWordsActAsStated : Prop :=
  ((∀ b i x, Happens (.next b) [.ctl]
     (fun d => d.consumable b = true ∧ (d.bobbin b).presented = some (.unread i) ∧ (d.bobbin b).unread[i]? = some x) fun d d' =>
       d'.bobbin b = { d.bobbin b with log := (d.bobbin b).log ++ [x], unread := (d.bobbin b).unread.eraseIdx i,
                                       pos := (d.bobbin b).log.length + 1, presented := none }) ∧
   (∀ b, Happens (.next b) [.ctl] (fun d => d.consumable b = true ∧ (d.bobbin b).presented = some .log) fun d d' =>
       d'.bobbin b = { d.bobbin b with pos := (d.bobbin b).pos + 1, presented := none }) ∧
   (∀ b, Happens (.mark b) [.ctl] (fun d => d.consumable b = true) fun d d' =>
       d'.bobbin b = { d.bobbin b with mark := some (d.bobbin b).pos }) ∧
   (∀ b, Happens (.rewind b) [.ctl] (fun d => d.consumable b = true) fun d d' =>
       d'.bobbin b = { d.bobbin b with pos := (d.bobbin b).mark.getD 0, presented := none }) ∧
   (∀ b seq k, Happens (.release b seq) [.ctl]
     (fun d => d.consumable b = true ∧ k < (d.bobbin b).log.length ∧ ((d.bobbin b).log.map (·.seq))[k]? = some seq.toNat ∧
       ∀ j < k, ((d.bobbin b).log.map (·.seq))[j]? ≠ some seq.toNat) fun d d' =>
       (d'.bobbin b).log = (d.bobbin b).log.drop (k + 1) ∧ (d'.bobbin b).pos = (d.bobbin b).pos - (k + 1) ∧
       (d'.bobbin b).unread = (d.bobbin b).unread) ∧
   (∀ a b v, windowOf a = some b →
     Happens (.presentationRead (.pcie a 4 v)) [.ctl] (fun d => d.consumable b = true ∧ (d.bobbin b).presented = none) fun d d' =>
       d'.bobbin b = { d.bobbin b with presented := (d.bobbin b).choose }) ∧
   (∀ a n v, n ≠ 4 ∨ a % 4 ≠ 0 → Happens (.presentationRead (.pcie a n v)) [.ctl] Dev.IrqSettled fun d d' =>
     d'.ctl = d.ctl ∧ d'.out = [.busRead (List.replicate n 0)])) ∧
  ((∀ v, Happens (.irqArmWrite v) [.ctl] (fun _ => True) fun _ d' =>
     ∀ k, k < 12 → bit v.toNat k = true → (bit d'.ctl.irq.armed.toNat k = true ↔ d'.srcCond k = false)) ∧
   (∀ v, Happens (.registerWrite (.pcie 0x0014 4 v)) [.ctl] (fun _ => True) fun d d' =>
     d'.ctl.irq.attn = (BitVec.ofNat 32 v &&& 0xFFFF003F#32) ∧ d'.ctl.slots = d.ctl.slots ∧ d'.ctl.evt = d.ctl.evt) ∧
   (∀ a n v, n ≠ 4 ∨ a % 4 ≠ 0 ∨ 0x10000 ≤ a → Happens (.registerWrite (.pcie a n v)) [.ctl] Dev.IrqSettled fun d d' => d'.ctl = d.ctl) ∧
   (∀ a v s, a < 0xC000 →
     exec (.registerWrite (.spi (0x02#8 :: (beBytes 3 a ++ leBytes 4 v)))) s = exec (.registerWrite (.pcie a 4 v)) s) ∧
   (∀ mosi : List Byte, mosi.length < 4 ∨ (mosi.headD 0 ≠ 0x0B#8 ∧ mosi.headD 0 ≠ 0x02#8) →
     Happens (.registerWrite (.spi mosi)) [.ctl] Dev.IrqSettled fun d d' => d'.ctl = d.ctl))

/-! ### Sessions (R44 to R49, R57) -/

/-- SESSION_OPEN and SESSION_PROVE (R44 to R47, R57): a claimed slot for whose role a credential exists is challenged, with a nonce that the
spec leaves open (assumption 1) and under the credential as it stands; the right proof under it, in time, opens the session with the role
and credits it asked for. A wrong proof (R47):
`AUTH_FAILED`, the slot closes with that reason and the count of consecutive failures rises by one; a second privileged session is refused
with `LIMIT_REACHED` and its slot stays challenged (R48). PROVE_WAIT_END (R47): the proof of the lowest waiting slot is evaluated once
min(n, 16) × 100 ms have passed since the last failure; right, it opens the session. -/
def Obligations.SessionsOpenByProofOrAreRefused : Prop :=
  (Serves verbSessionOpen .sessionOpen .ok [.ctl, .mon, .free]
     (fun c _ d => (d.credential (SessRole.ofCode (c.p 0 0 8))).isSome = true)
     (fun c _ d => res 17 [fieldAt 0 128 (Config.freeValue d.free % 2 ^ 128), at' 16 0 3 c.slot])
     (fun c d d' =>
       (d'.slot c.slot).state = .challenged ∧ (d'.slot c.slot).devNonce = BitVec.ofNat 128 (Config.freeValue d.free % 2 ^ 128) ∧
       (d'.slot c.slot).hostNonce = BitVec.ofNat 128 (c.p 4 0 128) ∧ (d'.slot c.slot).reqRole = SessRole.ofCode (c.p 0 0 8) ∧
       (d'.slot c.slot).reqCredits = c.p 1 0 8 ∧ (d'.slot c.slot).idleTimeout = c.p 2 0 16 ∧
       d.credential (SessRole.ofCode (c.p 0 0 8)) = some (d'.slot c.slot).key) ∧
   Serves verbSessionProve .sessionProve .ok [.ctl, .mon]
     (fun c _ d =>
       (d.slot c.slot).state = .challenged ∧ (d.slot c.slot).lastRing ≤ (d.slot c.slot).openedAt + 25000000 ∧ d.ctl.authFails = 0 ∧
       leBytes 32 (Item.field c.item 8 0 256) = sessionProof (d.slot c.slot).key "LULON-HS" (d.slot c.slot) c.slot ∧
       ((d.slot c.slot).reqRole = .privileged → d.otherPrivileged c.slot = false))
     (fun c _ d => res 34 [
       fieldAt 0 256 (leNat (sessionProof (d.slot c.slot).key "LULON-DV" (d.slot c.slot) c.slot)),
       fieldAt 32 8 (d.slot c.slot).reqCredits, fieldAt 33 8 (d.slot c.slot).reqRole.code])
     (fun c d d' =>
       (d'.slot c.slot).state = .opened ∧ (d'.slot c.slot).role = (d.slot c.slot).reqRole ∧
       (d'.slot c.slot).credits = (d.slot c.slot).reqCredits ∧ d'.ctl.authFails = 0)) ∧
  ((∀ c s k e, Ready verbSessionProve c s k e → (s.dev.slot c.slot).state = .challenged →
     (s.dev.slot c.slot).lastRing ≤ (s.dev.slot c.slot).openedAt + 25000000 → s.dev.ctl.authFails = 0 →
     leBytes 32 (Item.field e.item 8 0 256) ≠ sessionProof (s.dev.slot c.slot).key "LULON-HS" (s.dev.slot c.slot) c.slot →
     Completes (.sessionProve c) s fun t =>
       Answers s t c.slot e .authFailed {} ∧ (t.dev.slot c.slot).state = .closed ∧
       (t.dev.slot c.slot).closeReason = Status.authFailed.code ∧ t.dev.ctl.authFails = 1) ∧
   Serves verbSessionProve .sessionProve .limitReached [.ctl, .mon]
     (fun c _ d =>
       (d.slot c.slot).state = .challenged ∧ (d.slot c.slot).lastRing ≤ (d.slot c.slot).openedAt + 25000000 ∧ d.ctl.authFails = 0 ∧
       leBytes 32 (Item.field c.item 8 0 256) = sessionProof (d.slot c.slot).key "LULON-HS" (d.slot c.slot) c.slot ∧
       (d.slot c.slot).reqRole = .privileged ∧ d.otherPrivileged c.slot = true)
     (fun _ _ _ => {}) fun c _ d' => (d'.slot c.slot).state = .challenged) ∧
  (∀ n item, Happens .proveWaitEnd [.now, .ctl, .mon]
     (fun d => d.waitingProve = some (n, ⟨item, .prove⟩) ∧ n < 8 ∧
       leBytes 32 (Item.field item 8 0 256) = sessionProof (d.slot n).key "LULON-HS" (d.slot n) n ∧
       ((d.slot n).reqRole = .privileged → d.otherPrivileged n = false)) fun d d' =>
     (d'.slot n).state = .opened ∧ (d'.slot n).role = (d.slot n).reqRole ∧ d'.ctl.authFails = 0 ∧
     d'.now = max d.now (d.ctl.lastFail + 2500000 * min d.ctl.authFails 16))

/-- SESSION_CLOSE, SESSION_EVICT, SESSION_CLAIM and SESSION_OP_RESULT (R49, R57). -/
def Obligations.SessionsCloseEvictClaimAndReport : Prop :=
  Serves verbSessionClose .sessionClose .ok [.ctl, .mon, .cfg, .pkt, .quilt] (fun _ _ _ => True) (fun _ _ _ => {})
    (fun c _ d' => (d'.slot c.slot).state = .closed ∧ (d'.slot c.slot).closeReason = 0 ∧ (d'.slot c.slot).cmds = [] ∧
      d'.cfg.staged.all (fun e => e.owner != c.slot) = true) ∧
  Serves verbSessionEvict .sessionEvict .ok [.ctl, .mon, .cfg, .pkt, .quilt]
    (fun c _ d => c.p 0 0 3 ≠ c.slot ∧ (d.slot (c.p 0 0 3)).state = .opened) (fun _ _ _ => {})
    (fun c _ d' => (d'.slot (c.p 0 0 3)).state = .closed ∧ (d'.slot (c.p 0 0 3)).closeReason = Status.denied.code) ∧
  Serves verbSessionClaim .sessionClaim .ok [.ctl, .mon]
    (fun c _ d => let owner := if c.p 0 1 1 = 0 then d.ctl.evt.owner else d.ctl.stamp.owner
      if c.p 0 0 1 = 1 then owner = none ∨ owner = some c.slot else owner = some c.slot) (fun _ _ _ => {})
    (fun c d d' => let owner := if c.p 0 0 1 = 1 then some c.slot else none
      if c.p 0 1 1 = 0 then d'.ctl.evt.owner = owner ∧ d'.ctl.stamp.owner = d.ctl.stamp.owner
      else d'.ctl.stamp.owner = owner ∧ d'.ctl.evt.owner = d.ctl.evt.owner) ∧
  (∀ o, Serves verbSessionOpResult .sessionOpResult .ok [.ctl, .mon]
    (fun c _ d => (d.slot c.slot).ops.find? (fun x => x.seq == c.p 0 0 16) = some o)
    (fun _ _ _ => res 4 [fieldAt 0 16 o.status.code, fieldAt 2 16 o.code]) fun c d d' => (d'.slot c.slot).ops = (d.slot c.slot).ops)

/-! ### The role, events and boot facts (R23, R24, R61, R531) -/

/-- SYS_ROLE, SYS_EVENT_SET, SYS_ROLE_READ and SYS_BOOT_READ. -/
def Obligations.SystemVerbsStageAndRead : Prop :=
  Stages verbSysRole .sysRole (fun _ d => d.powerState = .dormant)
    (fun c _ => [(⟨.device, 0⟩, [fv .role 0 (c.p 0 0 8) 8, fv .stitchUse 0 (c.p 1 0 8) 8])]) ∧
  Stages verbSysEventSet .sysEventSet
    (fun c _ => c.p 0 0 9 + c.p 2 0 16 ≤ 384 ∧
      (Ev.eventOverflow.code < c.p 0 0 9 ∨ c.p 0 0 9 + c.p 2 0 16 ≤ Ev.eventOverflow.code))
    (fun c _ => [(⟨.device, 0⟩, (List.range (c.p 2 0 16)).flatMap fun k =>
      fv .evtEnable (c.p 0 0 9 + k) (c.p 4 0 1) 1 ::
        (if c.p 4 3 1 = 1 then [] else [fv .evtPriority (c.p 0 0 9 + k) (c.p 4 1 2) 2]))]) ∧
  Reads verbSysRoleRead .sysRoleRead 8 (fun _ _ => True) (fun _ v =>
    [fieldAt 0 8 v.role.code, fieldAt 1 8 (v.conf .stitchUse), fieldAt 3 8 v.powerState.code]) ∧
  Reads verbSysBootRead .sysBootRead 12 (fun _ _ => True)
    (fun _ v => [fieldAt 0 8 v.boot.cause.code, fieldAt 2 16 v.boot.warm, fieldAt 4 64 v.boot.startCount])

/-! ### CFG (R65, R69 to R78) -/

/-- CFG_DISCARD gives up the session's unlocked staging and counts its entries; CFG_CANCEL of an accepted commit of this device alone that
is due more than 500 µs from now returns its staging to the session (R70, R78). CFG_GEN_READ answers from the session's view; CFG_SNAP_PIN
pins the last snapshot while fewer than two other sessions hold a pin, or gives the pin up; SNAP_PIN_EXPIRY ends a pin 1 s after it was set;
CFG_GROUP_READ answers the session's own record (R76 to R78). CFG_GROUP_SET (R65, R79, R82) stages a group of this device whose members are
of its class and this device's own, nested no deeper than 4, where no other member of a quilt must hold it too; a group of another device
is the coordinator's to forward, and refused elsewhere. -/
def Obligations.ConfigurationVerbsDiscardCancelReadAndGroup : Prop :=
  (Serves verbCfgDiscard .cfgDiscard .ok [.ctl, .mon, .cfg, .pkt, .quilt] (fun _ _ _ => True)
     (fun c _ d => res 4 [fieldAt 0 32
       ((d.cfg.staged.filter (·.owner = c.slot)).length + b2n (d.pkt.staged.any (·.1 == c.slot)))])
     (fun c d d' => d'.cfg = { d.cfg with staged := d.cfg.staged.filter (·.owner ≠ c.slot) } ∧
       d'.pkt.staged.any (·.1 == c.slot) = false) ∧
   (∀ x o, Serves verbCfgCancel .cfgCancel .ok [.ctl, .mon, .cfg, .pkt]
     (fun c _ d =>
       (d.slot c.slot).ops.find? (fun o => o.seq == c.p 0 0 16 && o.code == 0x0401) = some o ∧ o.status = .accepted ∧
       d.cfg.commits.find? (fun x => x.slot == c.slot && x.serial == (d.slot c.slot).serial && x.seq == o.seq && x.answered) = some x ∧
       x.phase = .waiting ∧ x.quilt = none ∧ x.timed = true ∧ d.time16 < (x.t.getD 0 : Int) - us16 500)
     (fun _ _ _ => {})
     (fun _ d d' => d'.cfg.commits = d.cfg.commits.filter (·.id != x.id) ∧ d'.cfg.staged = x.entries ++ d.cfg.staged))) ∧
  (Reads verbCfgGenRead .cfgGenRead 23 (fun _ _ => True) (fun _ v =>
     [fieldAt 0 32 v.cfg.cfgGen, fieldAt 4 32 v.cfg.quiltGen, fieldAt 8 32 v.cfg.snapGen, fieldAt 12 48 v.cfg.snapTime.sec,
      fieldAt 18 32 v.cfg.snapTime.ns]) ∧
   (∀ c s k e, Ready verbCfgSnapPin c s k e →
     let others := s.pins.filter fun p => p.slot != c.slot && s.pinHolds p
     let mine := s.pins.find? fun p => p.slot == c.slot && s.pinHolds p
     ((verbCfgSnapPin.callOf c s e).p 0 0 1 = 0 → Completes (.cfgSnapPin c) s fun t =>
       Answers s t c.slot e .ok (res 4 [fieldAt 0 32 ((mine.map (·.view.cfg.snapGen)).getD 0)]) ∧ t.pins = others ∧
       s.dev.changesOnly [.ctl, .mon] t.dev) ∧
     ((verbCfgSnapPin.callOf c s e).p 0 0 1 = 1 → others.length < 2 → Completes (.cfgSnapPin c) s fun t =>
       Answers s t c.slot e .ok (res 4 [fieldAt 0 32 s.snap.cfg.snapGen]) ∧
       t.pins = others ++ [⟨c.slot, (s.dev.slot c.slot).serial, s.dev.now, s.snap⟩] ∧ s.dev.changesOnly [.ctl, .mon] t.dev)) ∧
   (∀ s slot p, s.dev.halted = false → s.pins.find? (·.slot == slot) = some p → Completes (.snapPinExpiry slot) s fun t =>
     t.pins = s.pins.filter (·.slot != slot) ∧ t.dev.now = max s.dev.now (p.at' + 25000000) ∧ t.snap = s.snap ∧
     s.dev.changesOnly [.now, .ctl] t.dev) ∧
   Serves verbCfgGroupRead .cfgGroupRead .ok [.ctl, .mon] (fun _ _ _ => True)
     (fun c _ d => let g := (d.slot c.slot).groupRec
       res 25 [fieldAt 0 16 g.read, fieldAt 2 16 g.notRead, at' 4 0 1 (b2n g.mixed), fieldAt 5 48 g.oldest.sec, fieldAt 11 32 g.oldest.ns,
         fieldAt 15 48 g.newest.sec, fieldAt 21 32 g.newest.ns])
     (fun c d d' => (d'.slot c.slot).groupRec = (d.slot c.slot).groupRec)) ∧
  ((∀ cls inst, Stages verbCfgGroupSet .cfgGroupSet
     (fun c d =>
       c.patch 0 = some ⟨d.num, true, cls, inst⟩ ∧ (d.isCoord = true → d.quiltMembers = []) ∧
       (∀ b ∈ chunks 4 (c.p 4 0 16) c.bytes, ∃ g i, PatchRef.ofId (leNat b) = some ⟨d.num, g, cls, i⟩ ∧ (cls = .sram → g = true ∨ i < 8)) ∧
       (let vals := groupVals true cls inst ((chunks 4 (c.p 4 0 16) c.bytes).filterMap fun b =>
           (PatchRef.ofId (leNat b)).map fun r => ⟨none, r.group, r.cls, r.inst⟩)
        let d' := (d.overlay d.basting).overlay [⟨c.slot, groupPatch true cls inst, vals⟩]
        ∀ i < 1024, d'.conf .groupCount (groupIdx true cls i) = 0 ∨ d'.groupDepthOk cls 4 true i = true))
     (fun c _ => [(groupPatch true cls inst, groupVals true cls inst ((chunks 4 (c.p 4 0 16) c.bytes).filterMap fun b =>
       (PatchRef.ofId (leNat b)).map fun r => ⟨none, r.group, r.cls, r.inst⟩))])) ∧
   (∀ dev cls inst, Serves verbCfgGroupSet .cfgGroupSet .notCoordinator [.ctl, .mon]
     (fun c _ d => c.patch 0 = some ⟨dev, true, cls, inst⟩ ∧ dev ≠ d.num ∧ d.isCoord = false) (fun _ _ _ => {}) fun _ _ _ => True) ∧
   (∀ dev cls inst, Waits verbCfgGroupSet .cfgGroupSet [.ctl, .mon, .quilt]
     (fun c d => c.patch 0 = some ⟨dev, true, cls, inst⟩ ∧ dev ≠ d.num ∧ d.isCoord = true ∧ d.isDetached dev = false)
     (fun c d => (d.forward c [dev] (FwdWait.start false (d.cfg.staged.filter (·.owner == c.slot)))).1) fun _ _ _ => True))

/-- CFG_COMMIT (R69, R71 to R74) of staging for this device alone that all chapters accept: it is locked in a commit, with `MODE` 1 for its
time, 2 ms away or more, and answered `ACCEPTED`; with `MODE` 0 and no wake, announcement or setting tied to a multiframe boundary the
command waits for the next boundary.
COMMIT_APPLY (R73, R75): the event settings that the next commit carries hold from its device frame boundary on, and `CFG_GEN` counts it;
the receive fields of a part-way commit hold from their subcarrier's receive frame boundary on. -/
def Obligations.CommitsLockAndApplyTheStaging : Prop :=
  (∀ c s k e, Ready verbCfgCommit c s k e →
     let call := verbCfgCommit.callOf c s e
     let d := s.taken c.slot k
     let es := d.cfg.staged.filter (·.owner == c.slot)
     es ≠ [] → d.remoteOp c.slot = 0 → d.validate es (d.stagedRules c.slot) = none →
     (call.p 0 0 1 = 1 → d.time16 + 2000 * 1000 * 65536 ≤ ofQTime ⟨call.p 8 0 48, call.p 14 0 30⟩) →
     (call.p 0 0 1 = 0 → d.wakesOf es = [] ∧ d.loadChanges es = [] ∧ multiframeTied es = false) →
     Completes (.cfgCommit c) s fun t =>
       (if call.p 0 0 1 = 1 then ∃ r, Answers s t c.slot e .accepted r
         else (t.dev.slot c.slot).taken = some ⟨e.item, .commit d.cfg.nextCommit⟩) ∧
       t.dev.cfg.staged = d.cfg.staged.filter (·.owner != c.slot) ∧ s.dev.changesOnly [.ctl, .mon, .cfg, .pkt] t.dev ∧
       ∃ x, t.dev.cfg.commits = d.cfg.commits ++ [x] ∧ x.id = d.cfg.nextCommit ∧ x.entries = es ∧ x.slot = c.slot ∧ x.phase = .waiting ∧
         x.t = (if call.p 0 0 1 = 1 then some (ofQTime ⟨call.p 8 0 48, call.p 14 0 30⟩) else none)) ∧
  ((∀ s c vals, s.dev.halted = false → s.dev.nextCommit = some c → s.dev.commit? c.id = some c →
     c.entries = [⟨c.slot, ⟨.device, 0⟩, vals⟩] → (∀ v ∈ vals, v.fld = .evtEnable ∨ v.fld = .evtPriority) → c.rules = none →
     c.quilt = none → c.buses = [] → Completes (.commitApply .device) s fun t =>
       (∀ i < 512, t.dev.conf .evtEnable i = (s.dev.overlay c.entries).conf .evtEnable i ∧
         t.dev.conf .evtPriority i = (s.dev.overlay c.entries).conf .evtPriority i) ∧
       t.dev.cfg.cfgGen = (s.dev.cfg.cfgGen + 1) % 2 ^ 32 ∧ t.dev.now = max s.dev.now (s.dev.boundaryOf c)) ∧
   (∀ sc c, Happens (.commitApply (.receive sc)) [.ctl, .mon, .cfg, .quilt]
     (fun d => d.cfg.commits = [c] ∧ c.phase = .partway [sc] [] ∧ c.buses = [] ∧ c.quilt = none ∧ staged? c.entries .fecFast sc = none ∧
       staged? c.entries .cdClass 0 = none)
     fun d d' => (∀ f ∈ rxFields, d'.conf f sc = (staged? c.entries f sc).getD (d.conf f sc)) ∧
       d'.cfg.cfgGen = (d.cfg.cfgGen + 1) % 2 ^ 32))

/-! ### The quilt (R79 to R94) -/

/-- QUILT_SET, QUILT_REJOIN and QUILT_VIEW (R79, R93). -/
def Obligations.QuiltVerbsStageAndView : Prop :=
  Stages verbQuiltSet .quiltSet (fun c d => c.p 0 0 12 = d.num ∨ d.inQuilt = false)
    (fun c _ => [(⟨.device, 0⟩, [fv .devNum 0 (c.p 0 0 12) 12, fv .coordNum 0 (c.p 2 0 12) 12, fv .quiltEnable 0 (c.p 4 0 1) 1])]) ∧
  Stages verbQuiltRejoin .quiltRejoin (fun _ d => d.isCoord = true) (fun c _ => [(⟨.quilt, 0⟩, [fv .rejoin (c.p 0 0 12) 1 16])]) ∧
  (∀ l, Serves verbQuiltView .quiltView .ok [.ctl, .mon] (fun _ v _ => v.isCoord = true ∧ v.detachedDevs = l)
    (fun _ v _ => res 12 [fieldAt 0 16 (v.conf .coordNum), fieldAt 2 16 v.subtree.1, fieldAt 4 16 l.length, fieldAt 6 8 (sat 8 v.hops),
      at' 7 0 1 1, at' 7 1 1 (b2n (v.quilt.member == .detached)), fieldAt 8 32 v.cfg.quiltGen])
    (fun c _ d' => c.ext = true →
      .hostWrite c.slot (scatter c.descs ((l.take (c.extLen / 8)).flatMap fun e => leBytes 2 e.1 ++ leBytes 2 0 ++ leBytes 4 e.2)) ∈ d'.out))

/-- A message from the parent that is for another device known on link k goes on there with one hop less, and nothing else is sent (R85).
HELLO, DETACH at the coordinator, PARENT_HELLO_LOSS and HELLO_TIMER (R80, R81, R91, R92). -/
def Obligations.QuiltMessagesGoOnAndKeepTheTree : Prop :=
  (∀ (h : QHead) (k : Nat) (x : Instr × MsgType × List Byte) (dev gen reason status : Nat) (p : PartBody) (pb : PrepareBody) (a : AckBody)
     (t : QTime),
     x ∈ [(.detach h dev gen reason, .detach, detachBody dev gen reason), (.cmd h p, .cmd, p.bytes'), (.rsp h p, .rsp, p.bytes'),
       (.prepare h pb, .prepare, pb.bytes), (.ack h a, .ack, a.bytes), (.veto h gen dev status, .veto, vetoBody gen dev status),
       (.commitAt h gen t, .commitAt, commitAtBody gen t), (.abort h gen status, .abort, abortBody gen status)] →
     Happens x.1 [.ctl, .quilt]
       (fun d => d.inQuilt = true ∧ d.isCoord = false ∧ d.fromParent h = true ∧ h.bcast = false ∧ h.dst ≠ d.num ∧ h.hopsLeft ≠ 0 ∧
         d.quilt.members.get (fun _ => none) h.dst = some k ∧ d.quilt.ack = none)
       fun d d' => (d'.link k).txq = (d.link k).txq ++
           [⟨x.2.1.cls, false, msgCells (quiltMsg x.2.1 false (h.hopsLeft - 1) h.dst h.src h.opId x.2.2)⟩] ∧
         ∀ j, j ≠ k → d'.link j = d.link j) ∧
  ((∀ h b, Happens (.hello h b) [.ctl, .mon, .cfg, .pkt, .quilt, .free]
     (fun d => d.inQuilt = true ∧ b.coord = d.conf .coordNum ∧ h.hopsLeft ≠ 0)
     fun d d' =>
       let leaf := match h.link with
         | .burst n => some n
         | _ => none
       d'.quilt.nbrs.get (fun _ => none) (4096 * d.headLink h + h.src) =
         some ⟨b.distance, d.now, b.quiltGen, b.detached, b.isCoord, b.subtree, b.maxDepth,
           h.src == d.num || !(d.sameNumber (d.headLink h) h.src leaf).isEmpty, leaf⟩) ∧
   (∀ h dev gen reason, Happens (.detach h dev gen reason) [.ctl, .mon, .quilt] (fun d => d.isFor h = true ∧ d.isCoord = true)
     fun _ d' => d'.quilt.detachedList.get (fun _ => none) dev = some gen) ∧
   (∀ k x, Happens .parentHelloLoss [.now, .ctl, .mon, .cfg, .pkt, .quilt]
     (fun d => d.inQuilt = true ∧ d.isCoord = false ∧ d.quilt.parent = some k ∧ d.quilt.nbrs = [(k, some x)] ∧ d.quilt.member = .idle)
     fun d d' => d'.quilt.member = .detached ∧ d'.quilt.parent = none ∧ d'.now = max d.now (x.lastHello + 250000)) ∧
   Happens .helloTimer [.now, .ctl, .quilt, .free] (fun d => d.inQuilt = true ∧ d.fwRuns = true)
     (fun d d' => d'.now = 25000 * (d.now / 25000 + 1) ∧ ∀ k ∈ d.quiltLinks, ∃ m ∈ (d'.link k).txq, m.cls = 1))

/-- CMD, RSP and FORWARD_TIMEOUT (R82, R86): the parts of a stream gather at its destination; the last device's answer, or its absence
beyond the deadline, completes the command that was forwarded. -/
def Obligations.StreamsGatherAndForwardedCommandsComplete : Prop :=
  (∀ h p, Happens (.cmd h p) [.ctl, .quilt]
    (fun d => d.isFor h = true ∧ d.fromParent h = true ∧ h.bcast = false ∧ p.last = false ∧
      (p.offset = 0 ∨ p.offset = (d.quilt.streams.get (fun _ => []) p.slot).length))
    fun d d' => d'.quilt.streams.get (fun _ => []) p.slot =
      (if p.offset = 0 then [] else d.quilt.streams.get (fun _ => []) p.slot) ++ p.bytes) ∧
  (∀ h p item w had, Happens (.rsp h p) [.ctl, .mon, .cfg, .quilt]
    (fun d => d.isFor h = true ∧ d.isCoord = true ∧ p.slot < 8 ∧ p.last = true ∧ (d.slot p.slot).taken = some ⟨item, .forward w⟩ ∧
      w.devs = [h.src] ∧ w.groupRead = false ∧ p.offset ≠ 0 ∧ p.offset = had.length ∧
      d.quilt.streams.get (fun _ => []) (8 * (h.src + 1) + p.slot) = had ∧
      Item.seq item = Item.seq (BitVec.ofNat 512 (leNat ((had ++ p.bytes).take 64))))
    fun d d' => (d'.slot p.slot).taken = none ∧
      ∃ x more, (d'.slot p.slot).rsp.unread = (d.slot p.slot).rsp.unread ++ x :: more ∧ x.seq = Item.seq item) ∧
  (∀ slot item w, Happens (.forwardTimeout slot) [.now, .ctl, .mon, .cfg, .quilt]
    (fun d => slot < 8 ∧ (d.slot slot).taken = some ⟨item, .forward w⟩ ∧ w.groupRead = false)
    fun d d' => (d'.slot slot).taken = none ∧ d'.now = max d.now w.deadline ∧
      ∃ x more, (d'.slot slot).rsp.unread = (d.slot slot).rsp.unread ++ x :: more ∧ x.seq = Item.seq item)

/-- A member (R91): PREPARE without staging is acknowledged with a count of 0, with valid staging it is locked; COMMIT_AT schedules what was
prepared, or notes for a member without staging the generation that it takes at `T`; ABORT and PREPARED_SILENCE_TIMEOUT discard it;
ACK_SEND_DEADLINE sends what is known. -/
def Obligations.MembersPrepareScheduleAndAbort : Prop :=
  (∀ h b, Happens (.prepare h b) [.ctl, .mon, .cfg, .pkt, .quilt, .free]
    (fun d => d.isCoord = false ∧ d.isFor h = true ∧ d.fromParent h = true ∧ h.bcast = false ∧
      d.quilt.held.get (fun _ => []) h.opId = [])
    fun _ d' => ∃ a, d'.quilt.ack = some a ∧ a.opId = h.opId ∧ a.newGen = b.newGen ∧ a.count = 0 ∧ a.digest = 0 ∧ a.sent = true) ∧
  (∀ h b, Happens (.prepare h b) [.ctl, .mon, .cfg, .pkt, .quilt, .free]
    (fun d => d.isCoord = false ∧ d.isFor h = true ∧ d.fromParent h = true ∧ h.bcast = false ∧ d.quilt.member = .idle ∧
      d.quilt.held.get (fun _ => []) h.opId ≠ [] ∧ d.time.established = true ∧
      d.validate (d.heldStaging h.opId).2.1 (d.heldStaging h.opId).2.2 = none)
    fun d d' => d'.quilt.member = .prepared ∧
      (∃ p, d'.quilt.prep = some p ∧ p.opId = h.opId ∧ p.newGen = b.newGen ∧ p.wasDetached = false ∧ p.t = none) ∧
      (∃ x, d'.cfg.commits = d.cfg.commits ++ [x] ∧ x.entries = (d.heldStaging h.opId).2.1 ∧ x.phase = .waiting) ∧
      ∃ a, d'.quilt.ack = some a ∧ a.count = 1 ∧ a.sent = true) ∧
  (∀ h gen t p, Happens (.commitAt h gen t) [.ctl, .cfg, .quilt]
    (fun d => d.isFor h = true ∧ d.fromParent h = true ∧ d.quilt.prep = some p ∧ p.opId = h.opId ∧ d.quilt.member = .prepared ∧
      d.time16 ≤ (ofQTime t : Int))
    fun _ d' => d'.quilt.member = .scheduled ∧ d'.quilt.prep = some { p with t := some (ofQTime t) } ∧
      ∀ x ∈ d'.cfg.commits, x.id = p.commit → x.t = some (ofQTime t)) ∧
  (∀ h gen t, Happens (.commitAt h gen t) [.ctl, .quilt]
    (fun d => d.isFor h = true ∧ d.fromParent h = true ∧ d.quilt.prep = none ∧ d.quilt.member = .idle)
    fun _ d' => d'.quilt.genAt = some (h.opId, gen, ofQTime t, !h.bcast) ∧ d'.quilt.member = .idle) ∧
  (∀ h gen status p, Happens (.abort h gen status) [.ctl, .mon, .cfg, .pkt, .quilt]
    (fun d => d.isFor h = true ∧ d.fromParent h = true ∧ d.quilt.prep = some p ∧ p.opId = h.opId ∧ p.t = none ∧
      d.quilt.genAt = none)
    fun d d' => d'.quilt.prep = none ∧
      d'.quilt.member = (if p.wasDetached = true ∨ d.quilt.detachNext = true then .detached else .idle) ∧
      d'.cfg.staged.all (fun e => !(decide (e.owner ≥ 8) && e.owner / 8 - 1 == h.opId)) = true) ∧
  (∀ p, Happens .preparedSilenceTimeout [.now, .ctl, .mon, .cfg, .pkt, .quilt]
    (fun d => d.quilt.prep = some p ∧ d.quilt.member = .prepared)
    fun d d' => d'.quilt.member = .detached ∧ d'.quilt.prep = none ∧
      d'.now = max d.now (d.time.countAt (p.tMax + 10000 * 1000 * 65536))) ∧
  (∀ a, Happens .ackSendDeadline [.now, .ctl, .quilt]
    (fun d => d.quilt.ack = some a ∧ d.isCoord = false ∧ a.sent = false ∧ a.vetoed = false)
    fun d d' => d'.quilt.ack = some { a with sent := true } ∧ d'.now = max d.now (d.time.countAt a.sendBy)) ∧
  (∀ h b a k, Happens (.ack h b) [.ctl, .quilt]
    (fun d => d.inQuilt = true ∧ d.isCoord = false ∧ h.hopsLeft ≠ 0 ∧ d.quilt.ack = some a ∧ a.opId = h.opId ∧ a.waiting = [h.src] ∧
      a.sent = false ∧ a.vetoed = false ∧ b.newGen = a.newGen ∧ d.quilt.parent = some k)
    fun _ d' => d'.quilt.ack = some { a.add h.src b with sent := true } ∧ ∃ m ∈ (d'.link (k / 4096)).txq, m.cls = MsgType.ack.cls) ∧
  (∀ h gen dev status a k, Happens (.veto h gen dev status) [.ctl, .quilt]
    (fun d => d.inQuilt = true ∧ d.isCoord = false ∧ h.hopsLeft ≠ 0 ∧ h.bcast = false ∧ d.fromParent h = false ∧ h.src ≠ d.num ∧
      h.dst ≠ d.num ∧ d.quilt.ack = some a ∧ a.opId = h.opId ∧ a.vetoed = false ∧ d.quilt.parent = some k ∧
      (d.quilt.members.set (fun _ => none) h.src (some (d.headLink h))).get (fun _ => none) h.dst = none)
    fun d d' => d'.quilt.ack = some { a with vetoed := true } ∧
      (d'.link (k / 4096)).txq = (d.link (k / 4096)).txq ++
        [⟨MsgType.veto.cls, false, msgCells (quiltMsg .veto false (h.hopsLeft - 1) h.dst h.src h.opId (vetoBody gen dev status))⟩])

/-- The coordinator (R88 to R90): a queued commit whose `T`, if it has one, is not too near starts as the next generation, with its
acknowledgements due 200 µs for each hop and 1 ms from now; acknowledgements are added up; complete and equal, they decide the commit, with
the last of them or at the deadline; incomplete at the deadline under policy 0, they end it, as a veto does; devices marked detached are
sent `CFG.GEN_READ` 10 ms after `T`. -/
def Obligations.TheCoordinatorGathersAndDecides : Prop :=
  (∀ id rest c, Happens .queuedQuiltCommitStart [.ctl, .cfg, .quilt]
    (fun d => d.isCoord = true ∧ d.quilt.running = none ∧ d.quilt.queued = id :: rest ∧ d.commit? id = some c ∧
      (c.timed = true → d.time16.toNat + d.quiltTimes.1 + d.quiltTimes.2 ≤ c.t.getD 0))
    fun d d' => d'.quilt.queued = rest ∧
      (∃ q, d'.quilt.running = some q ∧ q.newGen = (d.cfg.quiltGen + 1) % 2 ^ 32 ∧ q.opId = (c.quilt.map (·.1)).getD 0 ∧ q.decided = false ∧
        q.ackDeadline = d.time16.toNat + us16 (200 * d.hops + 1000) ∧ (c.timed = true → q.t = c.t.getD 0)) ∧
      ∃ a, d'.quilt.ack = some a ∧ a.newGen = (d.cfg.quiltGen + 1) % 2 ^ 32 ∧ a.count = 0 ∧ a.waiting = d.children.map (·.1 % 4096)) ∧
  (∀ h b a n, Happens (.ack h b) [.ctl, .quilt]
    (fun d => d.inQuilt = true ∧ h.hopsLeft ≠ 0 ∧ d.quilt.ack = some a ∧ a.opId = h.opId ∧ h.src ∈ a.waiting ∧ n ∈ a.waiting ∧
      n ≠ h.src ∧ a.sent = false ∧ b.newGen = a.newGen)
    fun _ d' => ∃ a', d'.quilt.ack = some a' ∧ a'.count = a.count + b.count ∧ a'.digest = a.digest ^^^ b.digest ∧
      a'.missCount = a.missCount + b.missCount ∧ a'.waiting = a.waiting.filter (· != h.src)) ∧
  (∀ h b a q, Happens (.ack h b) [.ctl, .cfg, .quilt]
    (fun d => d.inQuilt = true ∧ d.isCoord = true ∧ h.hopsLeft ≠ 0 ∧ d.quilt.ack = some a ∧ a.opId = h.opId ∧ a.waiting = [h.src] ∧
      a.sent = false ∧ a.vetoed = false ∧ b.newGen = a.newGen ∧ d.quilt.running = some q ∧ q.decided = false ∧
      a.count + b.count = q.targets.length ∧ a.digest ^^^ b.digest = q.expected)
    fun _ d' => d'.quilt.ack = none ∧ ∃ t, d'.quilt.running = some { q with decided := true, t := t } ∧ (q.timed = true → t = q.t)) ∧
  (∀ q a, Happens .ackDeadlineExpiry [.now, .ctl, .cfg, .quilt]
    (fun d => d.isCoord = true ∧ d.quilt.running = some q ∧ q.decided = false ∧ d.quilt.ack = some a ∧ a.count = q.targets.length ∧
      a.digest = q.expected)
    fun d d' => d'.now = max d.now (d.time.countAt q.ackDeadline) ∧ d'.quilt.ack = none ∧
      ∃ t, d'.quilt.running = some { q with decided := true, t := t } ∧ (q.timed = true → t = q.t)) ∧
  (∀ q a, Happens .ackDeadlineExpiry [.now, .ctl, .mon, .cfg, .pkt, .quilt]
    (fun d => d.isCoord = true ∧ d.quilt.running = some q ∧ q.decided = false ∧ q.policy = 0 ∧ d.quilt.ack = some a ∧
      a.count ≠ q.targets.length)
    fun d d' => d'.now = max d.now (d.time.countAt q.ackDeadline) ∧ d'.quilt.ack = none ∧ d'.quilt.running = none) ∧
  (∀ h gen dev status q, Happens (.veto h gen dev status) [.ctl, .mon, .cfg, .pkt, .quilt]
    (fun d => d.inQuilt = true ∧ h.hopsLeft ≠ 0 ∧ d.isCoord = true ∧ d.quilt.running = some q ∧ q.decided = false ∧ q.opId = h.opId)
    fun _ d' => d'.quilt.running = none) ∧
  (∀ i t g l, Happens .detachedRecheck [.now, .ctl, .quilt]
    (fun d => d.isCoord = true ∧ d.quilt.recheck[i]? = some (t, g, l) ∧ t ≠ 0 ∧ ∀ j < i, ∀ r, d.quilt.recheck[j]? = some r → r.1 = 0)
    fun d d' => d'.quilt.recheck = d.quilt.recheck.set i (0, g, l) ∧ d'.now = max d.now (d.time.countAt (t + 10000 * 1000 * 65536)) ∧
      ∀ n ∈ l, ∀ k, d.quilt.members.get (fun _ => none) n = some k → ∃ m ∈ (d'.link k).txq, m.cls = MsgType.cmd.cls)

/-! ### Converters, control buses and calibration (R97 to R131) -/

/-- CONV_GAIN, CONV_SWING, CONV_MON_SET, CONV_FE_SET, CONV_FE_WRITE, CONV_LAS_SET, CONV_LAS_WRITE, CAL_POLICY, CAL_IMPORT and CAL_DROP.
CONV_LEVEL_READ, CAL_QUALITY, CAL_SETS and CAL_EXPORT answer from the session's view; CONV_FE_READ drives a read frame and answers what the
part drives, which the spec leaves open, or 0xFFFF where the board has none; CONV_LAS_READ joins the laser bus's queue. -/
def Obligations.ConverterVerbsStageAndRead : Prop :=
  (Stages verbConvGain .convGain (fun c d => (∀ n ∈ c.insts d, 4 ≤ n) ∧ d.lacks .core = false)
     (eachUnit fun c n => [fv .gain n (c.p 4 0 8) 8]) ∧
   Stages verbConvSwing .convSwing (fun c d => (∀ n ∈ c.insts d, n < 4) ∧ d.lacks .core = false)
     (eachUnit fun c n => [fv .gain n (c.p 4 0 8) 8]) ∧
   Stages verbConvMonSet .convMonSet (fun _ _ => True)
     (eachUnit fun c n => [fv .clipExp n (c.p 4 0 4) 4, fv .lowLevel n (c.p 6 0 16) 16]) ∧
   Stages verbConvFeSet .convFeSet (fun _ _ => True) (fun c _ => [(⟨.line, 0⟩, [fv .feDiv 0 (c.p 0 0 2) 2])]) ∧
   Stages verbConvFeWrite .convFeWrite
     (fun c d => Item.field c.item 6 0 16 = 4 + 4 * c.p 0 0 8 ∧ (∀ j < c.p 0 0 8, c.p (4 + 4 * j) 3 1 = 0) ∧ d.feLimits = [] ∧
       (d.ownStaged c.slot .feWrite).length ≤ 56)
     (fun c _ => [(⟨.line, 0⟩, (List.range (c.p 0 0 8)).map fun j =>
       fv .feWrite (c.p (4 + 4 * j) 0 3 * 4096 + c.p (4 + 4 * j) 4 12) (c.p (6 + 4 * j) 0 16))]) ∧
   Stages verbConvLasSet .convLasSet (fun c _ => c.p 8 0 1 = c.p 20 0 1)
     (fun c _ => [(⟨.line, 0⟩, [0, 1].flatMap fun b =>
       [fv .lasAddr b (c.p (12 * b) 0 7) 7, fv .lasEnable b (c.p (12 * b) 7 1) 1, fv .lasWide b (c.p (12 * b + 1) 0 1) 1,
        fv .lasInvert b (c.p (12 * b + 1) 1 1) 1, fv .lasPtr b (c.p (12 * b + 2) 0 16) 16, fv .lasLsb b (c.p (12 * b + 4) 0 16) 16,
        fv .lasLimit b (c.p (12 * b + 6) 0 16) 16, fv .lasFast b (c.p (12 * b + 8) 0 1) 1])]) ∧
   Stages verbConvLasWrite .convLasWrite
     (fun c d => (c.p 1 0 1 = 0 → c.p 3 0 8 = 0) ∧ c.p (8 + c.p 4 0 4) 0 (8 * (8 - c.p 4 0 4)) = 0 ∧
       (d.ownStaged c.slot .lasWrite).length < 8)
     (fun c d => [(⟨.line, 0⟩, [fv .lasWrite (d.ownStaged c.slot .lasWrite).length (c.p 0 0 128) 128])]) ∧
   Stages verbCalPolicy .calPolicy (fun _ _ => True)
     (fun c _ => [(⟨.line, 0⟩, [fv .calTrigger 0 (c.p 0 0 8) 8, fv .calHoldoff 0 (c.p 2 0 16) 16, fv .calTolSkew 0 (c.p 4 0 16) 16,
       fv .calTolGain 0 (c.p 6 0 8) 8, fv .calTolOffset 0 (c.p 7 0 8) 8, fv .calTolBw 0 (c.p 8 0 16) 16, fv .calTolLin 0 (c.p 10 0 8) 8])]) ∧
   Stages verbCalImport .calImport (fun c d => calImportCheck c d = none)
     (fun c _ => [(⟨.line, 0⟩, ⟨.calImport, 16, (calRecords c).length, 0⟩ ::
       (calRecords c).mapIdx fun k b => fv .calImport k (leNat b) (8 * 16384))]) ∧
   Stages verbCalDrop .calDrop (fun _ _ => True) (fun c _ => [(⟨.line, 0⟩, [fv .calDrop 0 (c.p 0 0 2) 2])])) ∧
  (ReadsUnit verbConvLevelRead .convLevelRead 16 (fun w _ => w.runs .core = true) (fun w n => let x := w.conv.lvlOf n
     [fieldAtS 0 16 x.level, fieldAt 2 10 x.peak, fieldAt 4 32 (sat 32 x.clipLast), fieldAt 8 48 x.clipTotal,
      fieldAt 14 8 (w.conv.settingOf n), at' 15 0 1 (b2n x.clipAlarm), at' 15 1 1 (b2n x.lowAlarm)]) ∧
   ReadsUnit verbCalQuality .calQuality 9 (fun w _ => w.runs .core = true) (fun w n => (qualityFields w n).map (·.bf)) ∧
   Reads verbCalSets .calSets 34 (fun _ _ => True)
     (fun _ w => [fieldAt 0 8 (w.conv.setsOf true).length, fieldAt 1 8 (w.conv.setsOf false).length] ++
       setTemps 2 (w.conv.setsOf true) ++ setTemps 18 (w.conv.setsOf false)) ∧
   (∀ b, Serves verbCalExport .calExport .ok [.ctl, .mon]
     (fun c v _ => 16384 * (v.conv.setsOf true ++ v.conv.setsOf false).length ≤ c.extLen ∧
       (v.conv.setsOf true ++ v.conv.setsOf false).flatMap (calRecord v.otp.identity) = b)
     (fun _ v _ => res 1 [fieldAt 0 8 (v.conv.setsOf true ++ v.conv.setsOf false).length])
     (fun c _ d' => .hostWrite c.slot (scatter c.descs b) ∈ d'.out)) ∧
   Serves verbConvFeRead .convFeRead .ok [.ctl, .mon, .free] (fun _ _ d => d.conv.fe = [])
     (fun c _ d => res 2 [fieldAt 0 16 (if Config.fePart (c.p 0 0 3) then Config.freeValue d.free % 65536 else 0xFFFF)])
     (fun c _ d' => .feFrame (2 ^ 31 + c.p 0 0 3 * 2 ^ 28 + c.p 2 0 12 * 2 ^ 16) ∈ d'.out) ∧
   Waits verbConvFeRead .convFeRead [.ctl, .mon] (fun _ d => d.conv.fe ≠ [])
     (fun c _ => .feRead (c.p 0 0 3) (c.p 2 0 12)) (fun _ d d' => d'.conv = d.conv) ∧
   Waits verbConvLasRead .convLasRead [.ctl, .mon, .conv] (fun c d => (c.p 1 0 1 = 0 → c.p 3 0 8 = 0) ∧ d.conv.lasCur.isSome = true)
     (fun _ _ => .lasRead) (fun c d d' => d'.conv = { d.conv with lasQueue := d.conv.lasQueue ++
       [⟨.read c.slot (d.slot c.slot).serial, c.p 0 0 7, c.p 1 0 1 == 1, c.p 2 0 16, [], c.p 4 0 4⟩] }))

/-- LEVEL_INTERVAL (R99, R107, R108, R165): of the next millisecond with the core running, each converter's level, relative to a full-scale
sine, its peak and its clip count, from the codes of the ADCs and the samples sent to the DACs, the alarms, and the signal's presence; SIGNAL_LOST, at the second interval in succession with an ADC below `SIG_MIN`, takes an acquired line to `NO_SIGNAL`.
FE_WRITES_DONE, LASBUS_TRANSACTION_END and LASBUS_STRETCH_TIMEOUT (R112, R115, R117): a bus is free at the end of its transaction and takes
the next one queued; a read of a session that still waits for it is answered. -/
def Obligations.LevelsSignalPresenceAndControlBuses : Prop :=
  ((∀ ms : List LevelMeas, Happens (.levelInterval ms) [.now, .ctl, .mon, .conv, .line, .scs, .ohd, .free]
     (fun d => d.runs .core = true ∧ ms.length = 4)
     fun d d' => d'.conv.intervals = max (d.conv.intervals + 1) (ceilDiv (d.frameUp d.now - d.conv.lvlFrom) 100) ∧
       d'.now = max d.now (d.frameStart (d.conv.lvlFrom + 100 * d'.conv.intervals)) ∧
       (∀ i m, ms[i]? = some m → (d'.conv.lvlOf (4 + i)).clipTotal = sat 48 ((d.conv.lvlOf (4 + i)).clipTotal +
         ((m.codes.filter fun x => x.1 = -512 ∨ x.1 = 511).map (·.2)).sum)) ∧
       ∀ n x, (d.levelSums ms)[n]? = some x → (d'.conv.lvlOf n).peak = x.peak ∧
         (d'.conv.lvlOf n).clipTotal = sat 48 ((d.conv.lvlOf n).clipTotal + x.clips) ∧
         (x.sq ≠ 0 → (d'.conv.lvlOf n).level = decibel (2 * x.sq) (d.intervalSamples * 512 ^ 2)) ∧
         (x.clips * 10 ^ d.conf .clipExp n > d.intervalSamples → (d'.conv.lvlOf n).clipAlarm = true) ∧
         (x.sq ≠ 0 → decibel (2 * x.sq) (d.intervalSamples * 512 ^ 2) < signed 16 (d.conf .lowLevel n) →
           (d'.conv.lvlOf n).lowAlarm = true) ∧
         (d.anyBelow ms = false → d'.line.signal = true ∧ d'.line.below = 0 ∧ (d.line.state = .noSignal → d'.line.state = .freqAcq))) ∧
   (∀ ms : List LevelMeas, Happens (.signalLost ms) [.now, .ctl, .mon, .conv, .line, .scs, .ohd, .free]
     (fun d => d.runs .core = true ∧ ms.length = 4 ∧ d.anyBelow ms = true ∧ d.line.signal = true ∧ 1 ≤ d.line.below)
     fun d d' => d'.line.signal = false ∧ d'.line.below = 2 ∧
       (d.line.state = .locked ∨ d.line.state = .freqAcq → d'.line.state = .noSignal))) ∧
  ((∀ u id left, Happens .feWritesDone [.now, .ctl, .mon, .cfg, .quilt, .conv, .free] (fun d => d.conv.fe = (u, id) :: left)
     fun d d' => d'.conv = { d.conv with fe := left } ∧ d'.now = max d.now u) ∧
   (∀ r x, Happens (.lasbusTransactionEnd r) [.ctl, .mon, .cfg, .quilt, .conv, .line] (fun d => d.conv.lasCur = some x)
     fun d d' => d'.conv.lasCur = d.conv.lasQueue.head? ∧ d'.conv.lasQueue = d.conv.lasQueue.tail ∧
       (∀ n serial, x.kind = .read n serial → n < 8 → (d.slot n).serial = serial →
         (d.slot n).taken.any (fun y => y.why == .lasRead) = true → (d'.slot n).taken = none ∧
           ∃ y more, (d'.slot n).rsp.unread = (d.slot n).rsp.unread ++ y :: more) ∧
       (∀ n step b, x.kind = .correct n step → r = .done b → d'.conv.lasWritten = d.conv.lasWritten.set n d.now ∧
         d'.line.dwell = d.line.dwell.set n d.now ∧ d'.line.offs = d.line.offs.set n [])) ∧
   (∀ x, Happens .lasbusStretchTimeout [.now, .ctl, .mon, .cfg, .quilt, .conv] (fun d => d.conv.lasCur = some x)
     fun d d' => d'.conv.lasCur = d.conv.lasQueue.head? ∧ d'.conv.lasQueue = d.conv.lasQueue.tail ∧ .lasRecover ∈ d'.out ∧
       d'.now = max d.now (d.conv.lasSince + 250000)))

/-- CAL_RUN and CAL_TRIGGER request leave for a run (R122, R127); CAL_RUN_END of a run within tolerance and 1 °C keeps a new set at the mean
temperature, with the sums of the two passes' values (R118 to R120). -/
def Obligations.CalibrationRunsStartAndEnd : Prop :=
  Serves verbCalRun .calRun .accepted [.ctl, .mon, .conv, .power]
    (fun _ _ d => d.runs .core = true ∧ d.conv.run = none ∧ calLeave d.power.coreFull ≤ d.budget) (fun _ _ _ => {})
    (fun c d d' => d'.conv = { d.conv with
        calRef := d.convTemp, run := some ⟨.commanded, none, d.power.coreFull, 0, c.slot, (d.slot c.slot).serial, c.seq, 1, []⟩ } ∧
      d'.power.queue = d.power.queue ++ [⟨.calibration, calLeave d.power.coreFull, d.now⟩]) ∧
  Happens .calTrigger [.now, .ctl, .conv, .power]
    (fun d => d.runs .core = true ∧ d.conv.run = none ∧ d.conv.suspended = false ∧ d.conf .calTrigger ≠ 0 ∧
      tempGap d.convTemp d.conv.calRef > 25 * d.conf .calTrigger ∧ calLeave d.power.coreFull ≤ d.budget)
    (fun d d' => d'.now = max d.now (d.conv.calEnd + 25000000 * d.conf .calHoldoff) ∧ d'.conv.calRef = d.convTemp ∧
      (∃ r, d'.conv.run = some r ∧ r.kind = .auto ∧ r.started = none) ∧
      d'.power.queue = d.power.queue ++ [⟨.calibration, calLeave d.power.coreFull, d'.now⟩]) ∧
  (∀ m r start, Happens (.calRunEnd m) [.now, .ctl, .mon, .cfg, .quilt, .conv, .power, .line, .scs, .free]
    (fun d => d.conv.run = some r ∧ r.started = some start ∧ r.kind ≠ .initial ∧ m.bad (calSlices r.full) = [] ∧
      m.disagrees (calSlices r.full) r.tol = none ∧ tempGap d.convTemp r.startTemp ≤ 100)
    fun d d' => d'.conv.run = none ∧ d'.conv.quality.get (fun _ => []) (b2n r.full) = m.quality ∧
      d'.now = max d.now (start + calTime r.full) ∧ d'.conv.calEnd = d'.now ∧
      ∃ x ∈ d'.conv.sets, x.full = r.full ∧ x.temp = (r.startTemp + d.convTemp) / 2 ∧ x.vals = calZip (· + ·) m.passA m.passB ∧
        x.retired = d.conv.retired)

/-! ### Bit loading and the receivers (R132 to R160, R226, R233) -/

/-- LOAD_PLAN, LOAD_POLICY and LOAD_NARROW stage (R146, R153, R157). LOAD_SNR_READ of one running tile answers its estimates and resets
`SNR_MIN`; LOAD_STATUS, LOAD_SHAPE_READ and, for one tile with a valid SNR, LOAD_PROPOSE (R139, R154, R158). -/
def Obligations.LoadingVerbsStageAndRead : Prop :=
  (Stages verbLoadPlan .loadPlan (fun c d => ∀ n ∈ c.insts d, d.txShared n = false ∧ d.lacks (.sc n) = false)
     (eachUnit fun c n => [fv .planH n (c.p 4 0 7) 7, fv .planCode n (c.p 5 0 1) 1]) ∧
   Stages verbLoadPolicy .loadPolicy (fun c _ => c.ext = true → c.extLen = 260)
     (fun c _ => [(⟨.line, 0⟩, [fv .loadMargin 0 (c.p 0 0 16) 16, fv .gapStd 0 (c.p 2 0 16) 16, fv .gapLong 0 (c.p 4 0 16) 16,
         fv .loadFloor 0 (c.p 6 0 16) 16, fv .smooth 0 (c.p 8 0 3) 3, fv .annRetry 0 (c.p 9 0 4) 4, fv .ackWait 0 (c.p 9 4 1) 1,
         fv .fastPenalty 0 (c.p 10 0 8) 8] ++
       (List.range 130).map fun k => fv .corr k (if c.ext then leNat (slice c.bytes (2 * k) 2) else 0) 16)]) ∧
   Stages verbLoadNarrow .loadNarrow
     (fun c d => d.role = .leaf ∧ c.p 0 0 5 + c.p 1 0 3 ≤ 32 ∧ c.p 2 0 5 + c.p 3 0 3 ≤ 32 ∧
       (c.ps 4 0 16).natAbs ≤ narrowLimit (c.p 1 0 3) ∧ (c.ps 6 0 16).natAbs ≤ narrowLimit (c.p 3 0 3))
     (fun c _ => [(⟨.line, 0⟩, [fv .rxFirst 0 (c.p 0 0 5) 5, fv .rxCount 0 (c.p 1 0 3) 3, fv .txFirst 0 (c.p 2 0 5) 5,
       fv .txCount 0 (c.p 3 0 3) 3, fv .rxLo 0 (c.p 4 0 16) 16, fv .txLo 0 (c.p 6 0 16) 16])])) ∧
  ((∀ m low, Serves verbLoadSnrRead .loadSnrRead .ok [.ctl, .mon, .free, .scs]
     (fun c v _ => c.insts v = [m] ∧ v.runs (.sc m) = true ∧ (v.sc m).snr.min = some low)
     (fun _ v _ => let x := (v.sc m).snr
       res 16 [fieldAt 0 16 x.snr, fieldAt 2 16 x.x, fieldAt 4 16 x.y, fieldAt 6 16 (smoothVal x.smooth), fieldAt 8 16 low,
         fieldAtS 10 16 (v.rxMargin m), at' 12 0 1 (b2n x.valid), at' 12 1 1 (b2n x.low)])
     (fun c d d' => ∀ n ∈ c.insts d, (d'.sc n).snr = { (d.sc n).snr with min := none })) ∧
   ReadsUnit verbLoadStatus .loadStatus 18 (fun w n => w.runs (.sc n) = true) (fun w n =>
     let t := (w.sc n).tx
     [at' 0 0 4 t.plan.id, at' 1 0 7 t.plan.h, at' 1 7 1 t.plan.code, fieldAt 2 8 (slotsOf t.plan.h t.plan.code), at' 3 2 4 t.retries,
      fieldAt 8 16 (w.sc n).rx.report, fieldAt 10 32 (w.sc n).rx.missed, fieldAt 14 32 (w.sc n).rx.lost]) ∧
   Reads verbLoadShapeRead .loadShapeRead 12 (fun _ _ => True) (fun c _ => let n := composition (c.p 0 0 7)
     [fieldAt 0 16 (16 * c.p 0 0 7), fieldAt 2 16 n.1, fieldAt 4 16 n.2.1, fieldAt 6 16 n.2.2.1, fieldAt 8 16 n.2.2.2,
      fieldAt 10 8 (baseM (c.p 0 0 7)), at' 11 0 1 (b2n (c.p 0 0 7 == 32 || c.p 0 0 7 == 64))]) ∧
   (∀ dev n x p q, Serves verbLoadPropose .loadPropose .ok [.ctl, .mon, .free]
     (fun c v _ => c.patch 16 = some ⟨dev, false, .subcarrier, n⟩ ∧ v.num = dev ∧ n < 32 ∧ 8 ≤ c.extLen ∧ c.p 20 2 1 = 0 ∧ v.runs (.sc n) = true ∧
       (v.sc n).snr.smooth = some x ∧ v.propose (x / 2 ^ 20 : Nat) (c.p 20 0 1) (c.p 20 1 1 == 1) = p ∧
       (x / 2 ^ 20 : Nat) - v.snrReq p.1 (c.p 20 0 1) (c.p 20 1 1 == 1) = q)
     (fun _ _ _ => res 3 [fieldAt 0 16 p.2.1, fieldAt 2 8 1])
     (fun c _ d' => .hostWrite c.slot (scatter c.descs (leBytes 1 n ++ leBytes 1 p.1 ++ leBytes 1 (b2n p.2.2) ++ leBytes 1 p.2.1 ++
       leBytes 2 (x / 2 ^ 20) ++ leBytes 2 (unsigned 16 q))) ∈ d'.out)))

/-- TX_MULTIFRAME_BOUNDARY (R150): a pending change is announced, and after its final multiframe the announced plan is in force.
RX_MULTIFRAME_BOUNDARY (R137, R176): the SNRs that the pilots of the multiframe that ends show, and its tap estimates. -/
def Obligations.MultiframeBoundariesStepTheLoading : Prop :=
  (∀ n, Happens (.txMultiframeBoundary n) [.now, .ctl, .mon, .cfg, .pkt, .quilt, .scs, .time, .ref]
    (fun d => n < 32 ∧ d.runs (.sc n) = true)
    fun d d' =>
      let x := (d.sc n).tx
      let y := (d'.sc n).tx
      y.mf = x.mf + 1 ∧ d'.now = max d.now (d.frameStart (x.start + 256 * (x.mf + 1) - x.first)) ∧
      (x.state = .steady → x.pend = none → y.state = .steady ∧ y.plan = x.plan) ∧
      (∀ p id, x.state = .steady → x.pend = some (p, id) → y.state = .announce ∧ y.next = p ∧ y.plan = x.plan) ∧
      (x.state = .final → y.state = .steady ∧ y.plan = x.next)) ∧
  (∀ n m, Happens (.rxMultiframeBoundary n m) [.ctl, .mon, .cfg, .line, .scs, .time, .ref, .free]
    (fun d => n ∈ d.contScs ∧ (d.sc n).eq.state ≠ .off)
    fun d d' =>
      let x := (d.sc n).snr
      let y := (d'.sc n).snr
      y.snr = db100 (combined x.sumX.ratio x.sumY.ratio) ∧ y.x = db100 x.sumX.ratio ∧ y.y = db100 x.sumY.ratio ∧ y.sumX = {} ∧ y.sumY = {} ∧
      (y.valid = true ↔ x.whole = true ∧ (d.sc n).fr.state = .inFrame ∧ (d.sc n).eq.state = .track ∧ 0 < x.sumX.n) ∧
      (d'.sc n).eq.dgd = sat 16 (Config.tapsDgd (d.sc n).eq.taps.nums) ∧ (d'.sc n).eq.pdl = sat 16 (Config.tapsPdl (d.sc n).eq.taps.nums))

/-- LINE_FRAME_RECEIVED (R149, R173, R190, R206, R213, R223, R226): a frame in `IN_FRAME` whose equalised symbols pass the checks, with its
phase known and its plan confirmed by its beacon, is counted, with the taps and the decoder's history as they then are; where the overhead
that decoder and deframer give is good, it is kept and its SNR report taken in; the second frame in `GRID` with one pilot position leads to `TRACK`. CHUNK_RECEIVED (R229, R233, R234): of the oldest chunk
that waits, of a container that is no member of a group, one for the stitch port enters the container's store as it came; one whose header
check fails is counted and drops the stream position; without a binding it is only counted. -/
def Obligations.ReceivedFramesAndChunksGoOn : Prop :=
  ((∀ f e sums m p map b k oh, Happens (.lineFrameReceived f)
       [.ctl, .mon, .cfg, .pkt, .quilt, .line, .scs, .conts, .ohd, .time, .mem, .free]
     (fun d =>
       let x := d.sc f.sc
       let out := e.out
       let w := ({ word := e.ahead.take 64, pilots := pilotsOf out } : FrameSyms).meas f.sc
       f.sc ∈ d.contScs ∧ d.bandUp f.sc = true ∧ x.eq.state = .track ∧ x.fr.state = .inFrame ∧ (d.frontTrack f.sc f.codes).equalise f = e ∧
       d.frameSums f.sc f.grid out = sums ∧ 10 * d.conf .convMinSnr f.sc ≤ db100 (combined sums.1.ratio sums.2.ratio) ∧
       singular out = false ∧ d.wordOk f.sc w.aw1 w.aw2 = true ∧ d.pilotsOk f.sc w.rhoX w.rhoY = true ∧
       x.rx.plan = some p ∧ p.map = some map ∧ beaconPlan (beaconOf f.sc (pilotsOf out)) = some b ∧ b.id = p.id ∧ b.h = p.h ∧ b.code = p.code ∧
       x.fec.first = false ∧ d.fastDue f.sc = false ∧ x.fr.held = none ∧ x.fr.phase = true ∧ x.fr.k = some k ∧ (markOf (out.take 64) = true ↔ (k + 1) % 64 = 0) ∧
       d.decode f.sc p out e.ahead (noiseOf sums) = m ∧ (deframe f.sc p.h p.code x.fr.nextK x.fec.tail m).oh = oh)
     fun d d' => (ohGood f.sc oh = true → (d'.sc f.sc).fr.oh = oh ∧ (d'.sc f.sc).rx.report = beNat (slice oh 12 2)) ∧
       (d'.sc f.sc).eq.taps = e.loop.taps ∧ (d'.sc f.sc).fec.hist = m.hist ∧ (d'.sc f.sc).fec.frames = ((d.sc f.sc).fec.frames + 1) % 2 ^ 64) ∧
   (∀ f pos, Happens (.lineFrameReceived f) [.ctl, .mon, .line, .scs, .ohd]
     (fun d => f.sc ∈ d.contScs ∧ d.bandUp f.sc = true ∧ (d.sc f.sc).eq.state = .grid ∧ (d.sc f.sc).fr.state = .search ∧ (d.sc f.sc).fr.held = none ∧ f.grid = some pos ∧
       (d.sc f.sc).eq.grid = some (pos % 64))
     fun d d' => (d'.sc f.sc).eq.state = .track ∧ (d'.sc f.sc).eq.count = ((d.sc f.sc).eq.count + 1) % 2 ^ 32)) ∧
  (∀ (envs : List PktEnv) (r : RxPiece) rest, Happens (.chunkReceived envs) [.ctl, .mon, .scs, .conts, .ohd]
     (fun d => d.ohd.chunks = r :: rest ∧ r.stitch = false ∧ d.memberOf r.id = none ∧ d.secFailed r.sc = false ∧
       (d.conf .contBind (2 * r.id + 1) = 1 → (d.cont r.id true).need = 0 ∧ (Chunk.read r.bytes r.marks r.pm).ok = false))
     fun d d' =>
       let ch := Chunk.read r.bytes r.marks r.pm
       d'.ohd.chunks = rest ∧
       (d.conf .contBind (2 * r.id + 1) = 2 →
         (d'.cont r.id true).relay = (d.cont r.id true).relay ++ [{ ch with hit := (envs.headD {}).hit }]) ∧
       (d.conf .contBind (2 * r.id + 1) = 1 → (d'.cont r.id true).sync = false ∧
         (d'.cont r.id true).chunkErrors = ((d.cont r.id true).chunkErrors + 1) % 2 ^ 32) ∧
       (d.conf .contBind (2 * r.id + 1) = 0 → d'.ohd.unbound = (d.ohd.unbound + 1) % 2 ^ 32))

/-! ### Equalisation, coding and the line frame (R161 to R248) -/

/-- EQ_CD_SET, EQ_FRONT_END, EQ_POL_SET, EQ_TX_RESPONSE, FEC_MODE and FEC_INJECT stage (R166, R169, R177, R188, R216, R217). EQ_LINE_STATUS,
EQ_STATUS, EQ_SCAN_READ and FEC_STATUS (R194, R195, R215). FRAME_SLOT_MAP, FRAME_CONTAINER, FRAME_ALIGN_SET and FRAME_LOOPBACK stage;
FRAME_STATUS and FRAME_CONTAINER_STATUS read (R241 to R246). -/
def Obligations.EqualiserDecoderAndFramingVerbs : Prop :=
  (Stages verbEqCdSet .eqCdSet
     (fun c d => (∀ n < 4, (d.narrowTarget = true → n = 0) →
         (d.dTile d.narrowTarget n (c.ps 4 0 32) (c.ps 8 0 16)).natAbs ≤ classLimit (c.p 0 0 2)) ∧ ∃ n < 4, d.lacks (.wb n) = false)
     (fun c _ => [(⟨.line, 0⟩, [fv .cdClass 0 (c.p 0 0 2) 2, fv .cd 0 (c.p 4 0 32) 32, fv .cdSlope 0 (c.p 8 0 16) 16])]) ∧
   Stages verbEqFrontEnd .eqFrontEnd (fun c d => ∀ n ∈ c.insts d, n % 2 = 0 → c.p 7 0 8 = 0)
     (eachUnit fun c n => [fv .feSkew n (c.p 4 0 16) 16, fv .feGain n (c.p 6 0 8) 8, fv .fePhase n (c.p 7 0 8) 8]) ∧
   Stages verbEqPolSet .eqPolSet (fun _ _ => True)
     (eachUnit fun c n => [fv .sopMode n (c.p 4 0 1) 1, fv .convMinSnr n (c.p 5 0 8) 8, fv .sopAlarm n (c.p 6 0 8) 8]) ∧
   Stages verbEqTxResponse .eqTxResponse (fun c d => eqTxResponseCheck c d = none)
     (fun c _ => [(⟨.line, 0⟩, (List.range 132).flatMap fun i =>
       let p := if c.p 16 0 1 = 1 then (0, 0) else respPoint c.bytes (i / 33) (i % 33)
       [fv .respGain i (unsigned 16 p.1) 16, fv .respPhase i (unsigned 16 p.2) 16])]) ∧
   Stages verbFecMode .fecMode (fun c d => ∀ n ∈ c.insts d, d.rxShared n = false)
     (eachUnit fun c n => [fv .fecFast n (c.p 4 0 1) 1, fv .sdMant n (c.p 5 0 8) 8, fv .sdExp n (c.p 6 0 8) 8]) ∧
   Stages verbFecInject .fecInject
     (fun c _ => c.p 4 0 1 = 1 → 10 ≤ c.p 5 0 8 ∧ c.p 5 0 8 ≤ 99 ∧ 1 ≤ c.p 6 0 8 ∧ c.p 6 0 8 ≤ 12)
     (eachUnit fun c n => [fv .inject n (c.p 4 0 1) 1, fv .injMant n (c.p 5 0 8) 8, fv .injExp n (c.p 6 0 8) 8])) ∧
  (Reads verbEqLineStatus .eqLineStatus 32 (fun _ w => w.wbAwake = true) (fun _ w =>
     [at' 0 0 2 w.line.state.code, at' 0 2 2 w.line.cls, at' 0 4 1 (b2n w.line.scan.isSome), fieldAtS 2 32 w.line.cdApplied,
      fieldAt 6 16 ((w.line.freqOffset.map (unsigned 16)).getD 0x8000), fieldAtS 20 32 (w.conv.lasAcc.getD 1 0),
      fieldAtS 24 32 (w.conv.lasAcc.getD 0 0), fieldAt 28 16 w.line.corrections]) ∧
   ReadsUnit verbEqStatus .eqStatus 26 (fun w n => (w.sc n).eq.state ≠ .off) (fun w n => let e := (w.sc n).eq
     [at' 0 0 3 e.state.code, at' 0 4 1 (b2n e.sopAlarm), fieldAt 2 16 (sat 16 e.sopRate), fieldAt 4 16 e.dgd, fieldAt 6 16 e.pdl,
      fieldAt 14 32 e.slips, fieldAt 18 32 e.count, fieldAt 22 16 e.time, fieldAt 24 16 (sat 16 e.attempt)]) ∧
   Reads verbEqScanRead .eqScanRead 10 (fun _ _ => True) (fun _ w =>
     [fieldAtS 0 32 w.line.scanEst, at' 4 0 1 (b2n w.line.scanValid), at' 4 1 1 (b2n w.line.scan.isSome), fieldAt 6 16 w.line.scanPeak,
      fieldAt 8 16 w.line.scanCands]) ∧
   ReadsUnit verbFecStatus .fecStatus 56 (fun w n => w.runs (.sc n) = true) (fun w n => let f := (w.sc n).fec
     [at' 0 0 1 (w.conf .fecFast n), at' 0 2 1 (b2n f.sdAlarm), at' 0 4 1 (b2n f.decoding),
      fieldAt 1 8 (if w.conf .fecFast n = 1 then 5 else 10), fieldAt 2 16 f.ber, fieldAt 4 64 f.coded, fieldAt 12 64 f.corrected,
      fieldAt 20 64 f.outerCorrected, fieldAt 28 64 f.outerFailed, fieldAt 36 64 f.uncorr, fieldAt 44 64 f.frames])) ∧
  (Stages verbFrameSlotMap .frameSlotMap (fun _ _ => True)
     (eachUnit fun c n => (List.range 17).map fun p => fv .mapEntry (17 * n + p) (c.p (6 + 2 * p) 0 16) 16) ∧
   Stages verbFrameContainer .frameContainer
     (fun c d => (c.p 2 1 2 = 2 → d.conf .stitchUse ≠ 0) ∧ (c.p 2 1 2 ≠ 2 → c.p 4 0 10 = 0))
     (fun c _ => [(⟨.line, 0⟩, [fv .contBind (2 * c.p 0 0 10 + c.p 2 0 1) (c.p 2 1 2) 2,
       fv .contStitch (2 * c.p 0 0 10 + c.p 2 0 1) (c.p 4 0 10) 10])]) ∧
   Stages verbFrameAlignSet .frameAlignSet (fun _ _ => True)
     (eachUnit fun c n => [fv .awThresh n (c.p 4 0 8) 8, fv .pilotThresh n (c.p 5 0 8) 8, fv .lossCount n (c.p 6 0 4) 4]) ∧
   Stages verbFrameLoopback .frameLoopback
     (fun c d => (c.p 4 0 2 = 1 ∨ c.p 4 0 2 = 2 → c.cls = .line ∧
         (d.narrow = true → d.conf .rxFirst = d.conf .txFirst ∧ d.conf .rxCount = d.conf .txCount)) ∧ (c.p 4 0 2 = 3 → c.cls ≠ .line))
     (eachUnit fun c n => [fv .loopMode (if c.cls = .line then 0 else 1 + n) (c.p 4 0 2) 2]) ∧
   ReadsUnit verbFrameStatus .frameStatus 28 (fun w n => w.runs (.sc n) = true) (fun w n => let f := (w.sc n).fr
     [at' 0 0 2 f.state.code, at' 0 2 1 (b2n f.phase), at' 1 3 2 f.rotation, at' 1 5 1 (b2n f.swapped), fieldAt 2 8 f.mfi,
      fieldAt 4 32 f.oof, fieldAt 8 32 f.falseCands, fieldAt 12 32 f.ohErrors, fieldAt 16 32 f.notDelivered, fieldAt 20 32 f.mapMismatch,
      fieldAt 24 32 f.slips]) ∧
   Reads verbFrameContainerStatus .frameContainerStatus 40
     (fun c w => w.conf .contBind (2 * c.p 0 0 16 + c.p 2 0 1) ≠ 0)
     (fun c w => let x := w.cont (c.p 0 0 16) (c.p 2 0 1 == 1)
       [fieldAt 0 64 x.frames, fieldAt 8 64 x.bytes, fieldAt 16 32 x.stomped, fieldAt 20 32 x.delin, fieldAt 24 32 x.chunkErrors,
        fieldAt 28 32 x.pfnJumps, fieldAt 32 32 x.slips, fieldAt 36 16 x.lastPfn]))

/-- EQ_LINE_SET (R186): an operator's command of 8 parameter bytes. Each of its four values may be what the table says, and nothing else;
with a value outside its range it answers `OUT_OF_RANGE` and changes nothing; else it stages the signal threshold and the feedback timing,
each for the one line. The fields stand at their defaults after reset. -/
def Obligations.LineSetStagesTheThresholdAndTheTiming : Prop :=
  let inRange : Call → Prop := fun c =>
    (-5000 ≤ c.ps 0 0 16 ∧ c.ps 0 0 16 ≤ -1000) ∧ (10 ≤ c.p 2 0 16 ∧ c.p 2 0 16 ≤ 2000) ∧ (10 ≤ c.p 4 0 16 ∧ c.p 4 0 16 ≤ 10000) ∧
    (10 ≤ c.p 6 0 16 ∧ c.p 6 0 16 ≤ 10000)
  (verbEqLineSet.code = 0x1306 ∧ verbEqLineSet.role = .operator ∧ verbEqLineSet.len = 8) ∧
  (∀ c d, verbEqLineSet.fits c d → (verbEqLineSet.check c d = none ↔ inRange c)) ∧
  Refuses verbEqLineSet .eqLineSet .outOfRange (fun c d => verbEqLineSet.fits c d ∧ ¬inRange c) ∧
  Stages verbEqLineSet .eqLineSet (fun _ _ => True)
    (fun c _ => [(⟨.line, 0⟩, [fv .sigMin 0 (c.p 0 0 16) 16, fv .fbThresh 0 (c.p 2 0 16) 16, fv .fbDwell 0 (c.p 4 0 16) 16,
      fv .fbSettle 0 (c.p 6 0 16) 16])]) ∧
  (signed 16 (State.reset.dev.conf .sigMin 0) = -3500 ∧ State.reset.dev.conf .fbThresh 0 = 200 ∧ State.reset.dev.conf .fbDwell 0 = 100 ∧
   State.reset.dev.conf .fbSettle 0 = 50)

/-- EQ_CD_SCAN and CD_SCAN_END (R172); EQ_REACQUIRE of the line and of a subcarrier (R189, R190, R193). COARSE_ESTIMATE_FORMED,
LINE_TRACK_LOSS, PRECONV_ATTEMPT_END, GRID_TIMEOUT and CONVERGENCE_LOST (R181, R189 to R192). -/
def Obligations.ScansReacquisitionAndAcquisition : Prop :=
  (Serves verbEqCdScan .eqCdScan .accepted [.ctl, .mon, .line]
     (fun c _ d => c.ps 0 0 32 ≤ c.ps 4 0 32 ∧ c.p 8 0 16 % 10 = 0 ∧ d.runs .core = true ∧ d.wbAwake = true ∧ d.line.scan = none)
     (fun _ _ _ => {})
     (fun c d d' => d'.line = { d.line with
       scan := some ⟨c.ps 0 0 32, c.ps 4 0 32, c.p 8 0 16, d.now, !d.line.signal, c.slot, (d.slot c.slot).serial, c.seq⟩ }) ∧
   (∀ (m : ScanMeas) x, Happens (.cdScanEnd m) [.now, .ctl, .mon, .line, .free] (fun d => d.line.scan = some x ∧ x.noSignal = false)
     fun d d' =>
       let coarse := (List.range x.coarse).map fun k => m.coarse.getD k 0
       let best := coarse.getD (argMax coarse) 0
       let fine := x.fine (x.min + argMax coarse * (x.step : Int))
       d'.line.scan = none ∧ (d'.line.scanValid = true ↔ median2 coarse ≤ best) ∧
       d'.line.scanPeak = sat 16 (ratio100 (2 * best) (median2 coarse)) ∧ d'.line.scanCands = x.coarse + fine.length ∧
       (median2 coarse ≤ best → ∀ e, vertex (fine.mapIdx fun k c => (c, m.fine.getD k 0)) = some e → d'.line.scanEst = e) ∧
       (best < median2 coarse → d'.line.scanEst = d.line.scanEst) ∧ d'.now = max d.now x.endsAt) ∧
   Serves verbEqReacquire .eqReacquire .ok [.ctl, .mon, .line, .scs, .ohd]
     (fun c _ d => c.cls = .line ∧ d.line.state ≠ .idle) (fun _ _ _ => {})
     (fun _ d d' => d'.line.state = .noSignal ∧ ∀ n ∈ d.contScs, (d.sc n).eq.state ≠ .off → (d'.sc n).eq.state = .waitLine) ∧
   (∀ n, Serves verbEqReacquire .eqReacquire .ok [.ctl, .mon, .line, .scs, .ohd]
     (fun c _ d => c.cls = .subcarrier ∧ c.insts d = [n] ∧ d.runs (.sc n) = true ∧ d.line.state = .locked ∧ (d.sc n).eq.state ≠ .off)
     (fun _ _ _ => {}) (fun _ _ d' => (d'.sc n).eq.state = .preconv ∧ (d'.sc n).eq.held = none))) ∧
  ((∀ est, Happens (.coarseEstimateFormed est) [.ctl, .mon, .line, .scs, .ohd]
     (fun d => d.line.state = .freqAcq ∧ est.natAbs ≤ (if d.narrow then 2000 else 3000))
     fun d d' => d'.line.state = .locked ∧ d'.line.freqOffset = some est ∧
       ∀ n ∈ d.contScs, (d.sc n).eq.state = .waitLine → d.bandUp n = true → (d'.sc n).eq.state = .preconv) ∧
   Happens .lineTrackLoss [.now, .ctl, .mon, .line, .scs, .ohd]
     (fun d => d.line.state = .locked ∧ d.line.reached = true ∧ d.tracking = [])
     (fun d d' => d'.line.state = .freqAcq ∧ d'.now = max d.now (d.line.outSince + 2000) ∧
       ∀ n ∈ d.contScs, (d.sc n).eq.state ≠ .off → (d'.sc n).eq.state = .waitLine) ∧
   (∀ n, Happens (.preconvAttemptEnd n) [.now, .ctl, .mon, .line, .scs, .ohd]
     (fun d => n ∈ d.contScs ∧ (d.sc n).eq.state = .preconv)
     fun d d' => d'.now = max d.now ((d.sc n).eq.since + 375) ∧
       (if (d.sc n).eq.converged = true then (d'.sc n).eq.state = .grid ∧ (d'.sc n).eq.taps = (d.sc n).eq.taps ∧ (d'.sc n).fr.state = .search
         else (d'.sc n).eq.state = .preconv ∧ (d'.sc n).eq.attempt = (d.sc n).eq.attempt + 1 ∧
           (d'.sc n).eq.taps = .identity ((d.sc n).eq.attempt + 1))) ∧
   (∀ n, Happens (.gridTimeout n) [.now, .ctl, .mon, .line, .scs, .ohd] (fun d => n ∈ d.contScs ∧ (d.sc n).eq.state = .grid)
     fun d d' => (d'.sc n).eq.state = .preconv ∧ (d'.sc n).eq.attempt = (d.sc n).eq.attempt + 1 ∧ (d'.sc n).fr.state = .wait ∧
       d'.now = max d.now ((d.sc n).eq.since + 2000)) ∧
   (∀ n snr corr, Happens (.convergenceLost n snr corr) [.ctl, .mon, .line, .scs, .ohd]
     (fun d => n ∈ d.contScs ∧ (d.sc n).eq.state = .track ∧
       ((3 ≤ (d.sc n).eq.low ∧ snr < 10 * d.conf .convMinSnr n) ∨ 90 < corr))
     fun _ d' => (d'.sc n).eq.state = .preconv ∧ (d'.sc n).eq.lost = true ∧ (d'.sc n).fr.state = .wait))

/-- SOP_WINDOW, SOP_ALARM_CLEAR_TIMEOUT, LASER_CORRECTION_DUE and BER_WINDOW_END (R176, R184, R185, R214). -/
def Obligations.WindowsAlarmsAndLaserFeedback : Prop :=
  (∀ n, Happens (.sopWindow n) [.now, .ctl, .mon, .scs] (fun d => n ∈ d.contScs)
    fun d d' => d'.now = max d.now ((d.sc n).eq.sopFrom + 250000) ∧ (d'.sc n).eq.sop = ((d.sc n).eq.sopPeak :: (d.sc n).eq.sop).take 100 ∧ (d'.sc n).eq.sopPeak = 0 ∧
      (d'.sc n).eq.sopFrom = d'.now ∧ (d.conf .sopAlarm n < (d.sc n).eq.sopPeak → (d'.sc n).eq.sopAlarm = true)) ∧
  (∀ n, Happens (.sopAlarmClearTimeout n) [.now, .ctl, .mon, .scs] (fun d => n ∈ d.contScs ∧ (d.sc n).eq.sopAlarm = true)
    fun d d' => (d'.sc n).eq.sopAlarm = false ∧ d'.now = max d.now ((d.sc n).eq.sopOver + 25000000)) ∧
  (∀ (lo : Bool) f, Happens (.laserCorrectionDue lo) [.now, .ctl, .mon, .conv, .line]
    (fun d => d.line.state = .locked ∧ d.tracking ≠ [] ∧ d.steers (b2n lo) = true ∧ d.lasMean (b2n lo) (d.lasDueAt (b2n lo)) = f ∧
      1000 * (d.conf .fbThresh : Int) < f.natAbs ∧ d.conv.correcting (b2n lo) = false)
    fun d d' => d'.line.corrections = (d.line.corrections + 1) % 2 ^ 16 ∧ d'.now = d.lasDueAt (b2n lo) ∧
      (d.lasDescribed (b2n lo) = true → d.conf .lasEnable (b2n lo) = 1 → d.conv.lasAcc.length = 2 →
        let step : Int := max (-250000) (min 250000 f)
        d'.conv.lasAcc.getD (b2n lo) 0 = max (-1000 * (d.conf .lasLimit (b2n lo) : Int)) (min (1000 * d.conf .lasLimit (b2n lo))
          (d.conv.lasAcc.getD (b2n lo) 0 + if lo then step else -step)))) ∧
  (∀ n, Happens (.berWindowEnd n) [.now, .ctl, .mon, .scs, .free] (fun d => n ∈ d.liveScs)
    fun d d' => let x := (d.sc n).fec
      let y := (d'.sc n).fec
      d'.now = max d.now (x.winFrom + 4096000) ∧ y.winCoded = 0 ∧ y.winCorrected = 0 ∧ y.winFrom = d'.now ∧
      y.winMant = d.conf .sdMant n ∧ y.winExp = d.conf .sdExp n ∧
      (0 < x.winCoded → x.winMant * x.winCoded < x.winCorrected * 10 ^ (x.winExp + 1) → y.sdAlarm = true))

/-- ALIGNMENT_CANDIDATE_FOUND, CANDIDATE_TEST, FRAME_LOSS and PHASE_LOST, by the correlations and the quarter turns of the symbols that they
bring (R236 to R239). -/
def Obligations.TheAlignerFindsAndLosesFrames : Prop :=
  (∀ n pos r ax by' ay bx, wordCorrs r = (ax, by', ay, bx) → Happens (.alignmentCandidateFound n pos r) [.ctl, .scs]
    (fun d => n ∈ d.contScs ∧ (d.sc n).fr.state = .search ∧ (d.sc n).fr.cands.length < 4 ∧
      ((d.conf .awThresh n ≤ ax ∧ d.conf .awThresh n ≤ by') ∨ (d.conf .awThresh n ≤ ay ∧ d.conf .awThresh n ≤ bx)))
    fun d d' => (d'.sc n).fr.cands = (d.sc n).fr.cands ++
      [(pos % 87500, !(decide (d.conf .awThresh n ≤ ax) && decide (d.conf .awThresh n ≤ by')))]) ∧
  (∀ n pos m c w q, ((m.unswap c.2).meas n : AlignMeas) = w → (m.unswap c.2).turns n = q → Happens (.candidateTest n pos m) [.ctl, .mon, .cfg, .scs]
    (fun d => n ∈ d.contScs ∧ (d.sc n).fr.state = .search ∧ (d.sc n).fr.cands.find? (fun c => c.1 == pos % 87500) = some c ∧
      d.wordOk n w.aw1 w.aw2 = true ∧ d.pilotsOk n w.rhoX w.rhoY = true)
    fun d d' => let f := (d'.sc n).fr
      f.state = .inFrame ∧ f.pos = c.1 ∧ f.swapped = c.2 ∧ f.rotation = q.1 ∧ f.rotY = q.2 ∧ f.phase = false ∧
      ∀ b, beaconPlan (beaconOf n ((m.unswap c.2).pilots.map ({ rotation := q.1, rotY := q.2 } : FrSc).correct)) = some b →
        (d.sc n).rx.plan = none → ∃ p, (d'.sc n).rx.plan = some p ∧ p.id = b.id ∧ p.h = b.h ∧ p.code = b.code) ∧
  (∀ n m w sw, ((m.unswap sw).meas n : AlignMeas) = w → Happens (.frameLoss n m) [.ctl, .mon, .scs, .ohd]
    (fun d => n ∈ d.contScs ∧ (d.sc n).fr.state = .inFrame ∧ (d.sc n).fr.swapped = sw ∧ d.conf .lossCount n ≤ (d.sc n).fr.misses + 1 ∧
      (d.wordOk n w.aw1 w.aw2 = false ∨ d.pilotsOk n w.rhoX w.rhoY = false))
    fun d d' => (d'.sc n).fr.state = .search ∧ (d'.sc n).fr.cands = [((d.sc n).fr.pos, (d.sc n).fr.swapped)] ∧
      (d'.sc n).fr.oof = ((d.sc n).fr.oof + 1) % 2 ^ 32 ∧ (d'.sc n).fec.decoding = false) ∧
  (∀ n mark mfi, Happens (.phaseLost n mark mfi) [.ctl, .mon, .scs, .ohd]
    (fun d => n ∈ d.contScs ∧ (d.sc n).fr.state = .inFrame ∧ (d.sc n).fr.phase = true ∧ 1 ≤ (d.sc n).fr.markMiss ∧
      ¬(mark = true ↔ ((d.sc n).fr.k.getD 0 + 1) % 64 = 0))
    fun _ d' => (d'.sc n).fr.phase = false ∧ (d'.sc n).fr.k = none ∧ (d'.sc n).fr.retake = true)

/-! ### Overhead and protection (R249 to R276) -/

/-- OH_SECTION_SET, OH_TTI_SET and OH_PATH_SET, PROT_GROUP, PROT_REQUEST and PROT_RESKEW stage (R269 to R271, R274, R275). OH_PM_READ of a
subcarrier and of a container's path; OH_DEFECT_READ of a subcarrier, with its accepted trace in the buffer; PROT_STATUS of a group that
exists (R272, R273, R276). -/
def Obligations.OverheadAndProtectionVerbs : Prop :=
  (Stages verbOhSectionSet .ohSectionSet (fun _ _ => True)
     (eachUnit fun c n => [fv .timMode n (c.p 4 0 2) 2, fv .timAct n (c.p 4 2 1) 1, fv .labelMode n (c.p 4 3 1) 1,
       fv .expLabel n (c.p 5 0 8) 8]) ∧
   Stages verbOhTtiSet .ohTtiSet (fun c _ => c.extLen = 64)
     (fun c d => (c.insts d 16).map fun n =>
       (⟨.subcarrier, n⟩, [fv (if c.p 20 0 1 = 1 then .ttiExp else .ttiTx) n (beNat c.bytes) 512])) ∧
   Stages verbOhPathSet .ohPathSet
     (fun c d => d.seen c.slot .contBind (2 * c.p 0 0 10 + 1) ≠ 0 ∨ (groupKeys fun f i => d.seen c.slot f i).contains (c.p 0 0 10) = true)
     (fun c _ => let k := c.p 0 0 10
       [(⟨.line, 0⟩, [fv .returnId k (c.p 2 0 10) 10, fv .returnEn k (c.p 2 15 1) 1, fv .degThr k (c.p 4 0 17) 17,
         fv .degM k (c.p 8 0 4) 4])]) ∧
   Stages verbProtGroup .protGroup (fun _ _ => True)
     (fun c _ => let i := 2 * c.p 0 0 7 + c.p 0 7 1
       [(⟨.protection, c.p 0 0 7⟩, [fv .grpEn (2 * c.p 0 0 7 + (1 - c.p 0 7 1)) 0 1, fv .grpEn i (c.p 1 0 1) 1, fv .grpStitch i (c.p 1 1 1) 1, fv .grpRev i (c.p 1 2 1) 1,
         fv .grpW i (c.p 2 0 10) 10, fv .grpP i (c.p 4 0 10) 10, fv .grpDiff i (c.p 6 0 9) 9, fv .grpWtr i (c.p 8 0 16) 16,
         fv .grpHold i (c.p 10 0 7) 7])]) ∧
   Stages verbProtRequest .protRequest (fun _ _ => True)
     (fun c _ => [(⟨.protection, c.p 0 0 8⟩, [fv .protReq (c.p 0 0 8) (c.p 1 0 8) 8])]) ∧
   Stages verbProtReskew .protReskew (fun _ _ => True)
     (fun c _ => [(⟨.protection, c.p 0 0 8⟩, [fv .protReskew (c.p 0 0 8) 1 1])])) ∧
  ((∀ n, Reads verbOhPmRead .ohPmRead 36
     (fun c w => c.insts w = [n] ∧ (c.cls = .subcarrier ∧ w.runs (.sc n) = true ∨ c.cls = .line ∧ w.pathKeys.contains (c.p 4 0 16) = true))
     fun c w =>
       let m := if c.cls = .line then (w.path (c.p 4 0 16)).pm else (w.sec n).pm
       let x := m.near.set (c.p 6 0 8)
       let y := m.far.set (c.p 6 0 8)
       [fieldAt 0 32 x.es, fieldAt 4 32 x.ses, fieldAt 8 32 x.uas, fieldAt 12 32 x.bbe, fieldAt 16 32 y.es, fieldAt 20 32 y.ses,
        fieldAt 24 32 y.uas, fieldAt 28 32 y.bbe, at' 32 0 4 m.near.pending.length, at' 32 4 1 (b2n m.near.unavail),
        at' 32 5 1 (b2n m.far.unavail), at' 32 6 1 (b2n (if c.p 6 0 8 = 1 then m.prevSuspect else m.suspect))]) ∧
   (∀ n tr, Serves verbOhDefectRead .ohDefectRead .ok [.ctl, .mon]
     (fun c v _ => c.cls = .subcarrier ∧ c.insts v = [n] ∧ v.runs (.sc n) = true ∧ (c.ext = true → c.extLen = 64) ∧
       (v.sec n).accepted = tr)
     (fun _ v _ => let x := v.sec n
       res 8 [fieldAt 0 8 x.defects, fieldAt 1 8 (topDefect x.defects), fieldAt 2 8 (x.label.getD 0), fieldAt 4 32 x.bipErr])
     (fun c _ d' => c.ext = true → .hostWrite c.slot (scatter c.descs tr) ∈ d'.out)) ∧
   Reads verbProtStatus .protStatus 22 (fun c w => c.p 0 0 8 ∈ w.rxGroups) fun c w =>
     let g := c.p 0 0 8
     let x := w.prot g
     [at' 0 0 4 (topReq x.reqs), at' 0 4 1 (b2n x.active), at' 0 5 1 (b2n x.anchorP), at' 0 6 1 (b2n (w.eligible g).1),
      at' 0 7 1 (b2n (w.eligible g).2), fieldAt 1 8 (w.path (w.wKey g)).defects, fieldAt 2 8 (w.path (w.pKey g)).defects,
      fieldAtS 3 16 x.differential, fieldAt 8 32 x.rescued, fieldAt 12 32 x.slips, fieldAt 16 32 x.switches, fieldAt 20 16 x.farPs])

/-- DLG_CLEAR_TIMEOUT, PERFORMANCE_SECOND and PM_INTERVAL_END (R257, R260 to R263); HOLD_OFF_EXPIRY, PROT_WTR_EXPIRY and ANCHOR_TIMEOUT
(R265, R267). -/
def Obligations.SecondsIntervalsAndProtectionTimers : Prop :=
  (∀ n, Happens (.dlgClearTimeout n) [.now, .ctl, .mon, .ohd]
    (fun d => n ∈ d.contScs ∧ bit (d.sec n).defects 2 = true ∧ (d.sec n).lgRun = 0)
    fun d d' => bit (d'.sec n).defects 2 = false ∧ d'.now = max d.now ((d.sec n).lgLast + 2500000)) ∧
  (∀ n, Happens .performanceSecond [.now, .ctl, .mon, .ohd]
    (fun d => n ∈ d.contScs ∧ (d.sec n).pm.ended = none ∧ (∀ x ∈ d.contScs, d.secondEnds (d.sec n).pm ≤ d.secondEnds (d.sec x).pm) ∧
      (∀ k ∈ d.pathKeys, d.secondEnds (d.sec n).pm ≤ d.secondEnds (d.path k).pm) ∧
      ∀ l ∈ d.hubLeaves, d.secondEnds (d.sec n).pm ≤ d.secondEnds (d.leafAt l).pm)
    fun d d' =>
      let m := (d.sec n).pm
      d'.now = max d.now (d.secondEnds m) ∧ (d'.sec n).pm.from' = d'.now ∧ (d'.sec n).pm.blocks = 0 ∧ (d'.sec n).pm.errored = 0 ∧
      if (d.sec n).bip = none then (d'.sec n).pm.near = (m.near.push (pmSec m.blocks m.errored m.defect)).2
      else (d'.sec n).pm.near = m.near ∧
        (d'.sec n).pm.ended = some (some ⟨m.blocks, m.errored, m.farErrored, m.defect, m.farDefect⟩)) ∧
  (∀ n, Happens .pmIntervalEnd [.now, .ctl, .mon, .ohd] (fun _ => True)
    fun d d' => d'.ohd.interval = max (d.time16 / (900 * 65536000000000)).toNat (d.ohd.interval + 1) ∧
      (d'.sec n).pm.near.prev = (d.sec n).pm.near.cur ∧ (d'.sec n).pm.far.prev = (d.sec n).pm.far.cur ∧
      (d'.sec n).pm.near.cur = {} ∧ (d'.sec n).pm.near.tot = (d.sec n).pm.near.tot) ∧
  (∀ g t, Happens (.holdOffExpiry g) [.now, .ctl, .mon, .ohd]
    (fun d => let x := d.prot g
      g ∈ d.rxGroups ∧ x.sf = [some t, none] ∧ x.sd = [none, none] ∧ x.reqs = 0 ∧ d.now ≤ t + 2500000 * d.conf .grpHold (2 * g + 1) ∧
      (d.path (d.wKey g)).failed = true ∧ (d.path (d.pKey g)).failed = false ∧ d.protSd (d.wKey g) = false ∧ d.protSd (d.pKey g) = false)
    fun d d' => (d'.prot g).reqs = 2 ^ 7 ∧ (d'.prot g).active = true ∧ d'.now = t + 2500000 * d.conf .grpHold (2 * g + 1)) ∧
  (∀ g t, Happens (.protWtrExpiry g) [.now, .ctl, .mon, .ohd]
    (fun d => let x := d.prot g
      g ∈ d.rxGroups ∧ x.wtr = some t ∧ x.reqs = 2 ^ 2 ∧ (d.path (d.wKey g)).failed = false ∧ (d.path (d.pKey g)).failed = false ∧
      d.protSd (d.wKey g) = false ∧ d.protSd (d.pKey g) = false)
    fun d d' => (d'.prot g).reqs = 0 ∧ (d'.prot g).active = false ∧ (d'.prot g).wtr = none ∧
      d'.now = max d.now (t + 25000000 * d.conf .grpWtr (2 * g + 1))) ∧
  (∀ g, Happens (.anchorTimeout g) [.now, .ctl, .mon, .ohd]
    (fun d => g ∈ d.rxGroups ∧ (d.prot g).next = none ∧ (d.prot g).anchorP = false)
    fun d d' => (d'.prot g).anchorP = true ∧ d'.now = max d.now ((d.prot g).from' + 2500000))

/-! ### The hub's tree and its leaves (R279 to R317) -/

/-- BURST_TREE, BURST_SHARE, BURST_GRANTS, BURST_ADMIT, BURST_MOVE and BURST_LEAF_CFG stage (R310 to R314). BURST_INVITE queues its record
and marks the next occasion; BURST_RANGE starts a ranging of an active leaf; BURST_LEAF_STATUS, BURST_DISC_READ and BURST_LEAF_READ (R295,
R308, R314, R315). -/
def Obligations.BurstVerbsStageInviteRangeAndRead : Prop :=
  (Stages verbBurstTree .burstTree
     (fun c d => d.role = .hub ∧ c.p 2 0 16 ≤ c.p 4 0 16 ∧ 8750 * c.p 4 0 16 ≤ (c.p 0 0 7 - 1) * 87500 ∧
       (c.p 0 0 7 = d.conf .loopFrames ∨ ∀ e ∈ d.ohd.hub.leaves, e.2.state ≠ .active))
     (fun c _ => [(⟨.line, 0⟩, [fv .loopFrames 0 (c.p 0 0 7) 7, fv .rtdMin 0 (c.p 2 0 16) 16, fv .rtdMax 0 (c.p 4 0 16) 16,
       fv .captureDb 0 (c.p 6 0 8) 8, fv .uwThresh 0 (c.p 7 0 8) 8])]) ∧
   Stages verbBurstShare .burstShare
     (fun c d => ∀ n ∈ c.insts d, d.role = .hub ∧ (c.p 4 0 1 = d.conf .shared n ∨ d.leavesOf n = []) ∧
       (c.p 4 0 1 = 1 → d.lacks .lem = false))
     (eachUnit fun c n => [fv .shared n (c.p 4 0 1) 1, fv .discEn n (c.p 4 1 1) 1]) ∧
   Stages verbBurstGrants .burstGrants
     (fun c d => d.role = .hub ∧ c.extLen = 2 * (2 ^ c.p 20 0 4 * 8) ∧
       (∀ i, i < 2 ^ c.p 20 0 4 * 8 → bits (leNat (slice c.bytes (2 * i) 2)) 12 3 = 0) ∧ ∀ n ∈ c.insts d 16, d.seen c.slot .shared n ≠ 0)
     (fun c d => (c.insts d 16).map fun n => (⟨.subcarrier, n⟩, fv .cycleLog n (c.p 20 0 4) 4 ::
       (List.range (2 ^ c.p 20 0 4 * 8)).map fun i => fv .grant (2048 * n + i) (leNat (slice c.bytes (2 * i) 2)) 16)) ∧
   Stages verbBurstAdmit .burstAdmit
     (fun c d => d.role = .hub ∧ (c.p 2 0 1 = 1 →
       let n := c.p 0 0 12
       let new := (d.overlay (d.cfg.staged.filter (·.owner == c.slot))).overlay [⟨c.slot, ⟨.leaf, n⟩, burstAdmitVals c⟩]
       let near := fun m => new.conf .leafHome m = new.conf .leafHome n ∧ new.conf .leafDed m = new.conf .leafDed n
       (∀ m ∈ new.admitted, m ≠ n → new.conf .leafIdent m ≠ new.conf .leafIdent n ∧ (new.conf .leafDed n = 1 → ¬near m)) ∧
       (new.conf .leafDed n = 0 → (new.admitted.filter fun m => decide (m ≠ n ∧ near m)).length < 128) ∧
       (new.conf .shared (c.p 3 0 5) = 1 ↔ c.p 2 1 1 ≠ 1)))
     (fun c _ => let n := c.p 0 0 12
       [(⟨.leaf, n⟩, [fv .leafEn n (c.p 2 0 1) 1, fv .leafDed n (c.p 2 1 1) 1, fv .leafHome n (c.p 3 0 5) 5, fv .leafMod n (c.p 4 0 2) 2,
         fv .leafCode n (c.p 4 2 1) 1, fv .leafCont n (c.p 6 0 10) 10, fv .leafIdent n (c.p 8 0 64) 64])]) ∧
   Stages verbBurstMove .burstMove (fun c d => d.role = .hub ∧ d.seen c.slot .leafEn (c.p 0 0 12) ≠ 0)
     (fun c _ => [(⟨.leaf, c.p 0 0 12⟩, [fv .leafMove (c.p 0 0 12) (c.p 2 0 48) 48])]) ∧
   Stages verbBurstLeafCfg .burstLeafCfg (fun _ d => d.role = .leaf)
     (fun c _ => [(⟨.line, 0⟩, [fv .ownDisc 0 (c.p 0 0 1) 1, fv .ownSleep 0 (c.p 0 1 1) 1, fv .ownHome 0 (c.p 1 0 5) 5,
       fv .ownCont 0 (c.p 2 0 10) 10])])) ∧
  (Serves verbBurstInvite .burstInvite .ok [.ctl, .mon, .ohd] (fun _ _ d => d.role = .hub) (fun _ _ _ => {})
     (fun c d d' => (d'.burstSc (c.p 8 0 5)).invite = true ∧ d'.ohd.hub.msgs = d.ohd.hub.msgs ++ [⟨c.p 8 0 5, 4,
       beBytes 1 6 ++ beBytes 1 (d.leafAt 4095).mseq ++ beBytes 2 0xFFF ++ padTo 20 (beBytes 8 (c.p 0 0 64) ++ beBytes 1 (c.p 8 0 5))⟩]) ∧
   Serves verbBurstRange .burstRange .accepted [.ctl, .mon, .ohd]
     (fun c _ d => d.role = .hub ∧ (d.leafAt (c.p 0 0 12)).state = .active) (fun _ _ _ => {})
     (fun c d d' =>
       let n := c.p 0 0 12
       let sc := d.conf .leafHome n
       let f := d.rangeFrame n
       (d'.leafAt n).state = .ranging ∧ (d'.leafAt n).rangeOp = some (c.slot, (d.slot c.slot).serial, c.seq) ∧
       (d'.leafAt n).rangeEnd = (d.sc sc).tx.start + f - (d.sc sc).tx.first + 64 ∧
       d'.ohd.hub.msgs = d.ohd.hub.msgs ++
         [⟨sc, 4, beBytes 1 4 ++ beBytes 1 (d.leafAt n).mseq ++ beBytes 2 n ++ padTo 20 (beBytes 1 f)⟩]) ∧
   ReadsUnit verbBurstLeafStatus .burstLeafStatus 44 (fun w _ => w.role = .hub) (fun w n =>
     let l := w.leafAt n
     [at' 0 0 3 l.state.code, at' 0 3 1 (w.conf .leafDed n), at' 0 5 1 (b2n l.dLG), at' 0 6 1 (b2n l.dBDI), at' 1 0 5 (w.conf .leafHome n),
      fieldAt 2 32 l.rtd, fieldAt 6 24 l.eqd, fieldAt 10 16 ((l.freq.map (unsigned 16)).getD 0x8000), fieldAt 12 16 (l.snr.getD 0xFFFF),
      fieldAt 16 32 l.granted, fieldAt 20 32 l.good, fieldAt 24 32 l.missed, fieldAt 28 32 l.hdrErrors, fieldAt 32 32 l.misaligned,
      fieldAt 36 32 l.uncorr, fieldAt 40 32 l.stale]) ∧
   (∀ n l, Serves verbBurstDiscRead .burstDiscRead .ok [.ctl, .mon]
     (fun c v _ => v.role = .hub ∧ c.insts v 16 = [n] ∧ (v.ohd.hub.disc.filter (·.sc == n)).take (c.extLen / 24) = l)
     (fun _ v _ => let b := v.burstSc n
       res 20 [fieldAt 0 8 l.length, fieldAt 4 32 b.falsePre, fieldAt 8 32 b.collisions, fieldAt 12 32 b.decoded, fieldAt 16 32 b.cancelled])
     (fun c _ d' => .hostWrite c.slot (scatter c.descs (l.flatMap fun e => leBytes 8 e.ident ++ leBytes 4 e.rtd ++
       leBytes 2 (unsigned 16 e.freq) ++ leBytes 2 (unsigned 16 e.power) ++ leBytes 1 (e.sc + 32 * b2n e.far) ++ leBytes 6 e.sec ++
       leBytes 1 0)) ∈ d'.out)) ∧
   Reads verbBurstLeafRead .burstLeafRead 14 (fun _ w => w.role = .leaf) (fun _ w =>
     let l := w.ohd.leaf
     [at' 0 0 4 l.state.code, fieldAt 1 8 l.r, fieldAt 2 16 l.id, fieldAt 4 24 l.eqd, fieldAt 8 32 l.rtd,
      fieldAt 12 16 ((l.freq.map (unsigned 16)).getD 0x8000)]))

/-- OPEN_SEARCH_CONTEXT, DISCOVERY_BURST_RECEIVED, ECHO_BURST_RECEIVED and RANGING_TIMEOUT (R284, R303, R306, R308). -/
def Obligations.TheHubSearchesDiscoversAndRanges : Prop :=
  (∀ sc e, Happens (.openSearchContext sc e) [.ctl, .mon, .ohd] (fun d => d.role = .hub ∧ sc < 32 ∧ d.rxShared sc = true)
    fun d d' =>
      let x := d.burstSc sc
      let y := d'.burstSc sc
      match e with
      | .detected r =>
          if autoCorr100 r < 50 then y = x
          else if x.contexts.length < 2 then y.contexts = x.contexts ++ [preamblePower r]
          else y.contexts = x.contexts ∧ y.collisions = (x.collisions + 1) % 2 ^ 32
      | .noWord i => i < x.contexts.length → y.contexts = x.contexts.eraseIdx i ∧ y.falsePre = (x.falsePre + 1) % 2 ^ 32
      | .oneWord i => 2 ≤ x.contexts.length → i < 2 →
          y.contexts = x.contexts.eraseIdx (1 - i) ∧ y.falsePre = (x.falsePre + 1) % 2 ^ 32
      | .bothWords gap => ∀ p q, x.contexts = [p, q] → gap < 640 →
          if d.captures p q = true then y.contexts = [p] ∧ y.collisions = (x.collisions + 1) % 2 ^ 32
          else if d.captures q p = true then y.contexts = [q] ∧ y.collisions = (x.collisions + 1) % 2 ^ 32
          else y.contexts = [] ∧ y.collisions = (x.collisions + 2) % 2 ^ 32) ∧
  (∀ b : OpenBurst, Happens (.discoveryBurstReceived b) [.ctl, .mon, .quilt, .line, .scs, .ohd]
    (fun d => d.role = .hub ∧ b.sc < 32 ∧ d.rxShared b.sc = true ∧ d.runs .lem = true)
    fun d d' =>
      let got := (d.openBurst b).1
      let body := (got.bytes.drop 40).take 24
      let good := burstPartOk 40 (got.bytes.take 40) = true ∧ burstPartOk 24 body = true
      let ident := beNat (body.take 8)
      let rtd := (b.arrival - 700000 - 5120 * ((body.getD 8 0).toNat % 16 : Nat)).toNat
      (¬good → (d'.burstSc b.sc).decoded = (d.burstSc b.sc).decoded ∧
        (d'.burstSc b.sc).collisions = ((d.burstSc b.sc).collisions + 1) % 2 ^ 32) ∧
      (good → (d'.burstSc b.sc).decoded = ((d.burstSc b.sc).decoded + 1) % 2 ^ 32 ∧
        (∀ n, d.leafOfIdent ident = some n → 0 ≤ d.eqdOf rtd →
          (d'.leafAt n).state = .active ∧ (d'.leafAt n).rtd = rtd ∧ (d'.leafAt n).eqd = (d.eqdOf rtd).toNat ∧
            d'.lemAt n = some got.entry) ∧
        (d.leafOfIdent ident = none ∨ d.eqdOf rtd < 0 → d'.ohd.hub.discCount = d.ohd.hub.discCount + 1 ∧
          ∃ e ∈ d'.ohd.hub.disc, e.ident = ident ∧ e.rtd = rtd ∧ e.sc = b.sc ∧ (e.far = true ↔ d.eqdOf rtd < 0)))) ∧
  (∀ b : OpenBurst, Happens (.echoBurstReceived b) [.ctl, .mon, .quilt, .line, .scs, .free, .ohd]
    (fun d => d.role = .hub ∧ d.runs .lem = true)
    fun d d' =>
      let got := (d.openBurst b).1
      let n := beNat ((got.bytes.take 40).take 2) % 4096
      let rtd := (b.arrival - 700000).toNat
      let good := burstPartOk 40 (got.bytes.take 40) = true ∧ burstPartOk 24 ((got.bytes.drop 40).take 24) = true
      (¬good ∨ (d.leafAt n).state ≠ .ranging → ∀ m, d'.leafAt m = d.leafAt m) ∧
      (¬good → (d'.burstSc b.sc).collisions = ((d.burstSc b.sc).collisions + 1) % 2 ^ 32) ∧
      (good → (d.leafAt n).state = .ranging → 0 ≤ d.eqdOf rtd →
        (d'.leafAt n).state = .active ∧ (got.outerFail = false → d'.lemAt n = some got.entry) ∧ (d'.leafAt n).rtd = rtd ∧
        (d'.leafAt n).rangeOp = none ∧ (∀ sc, (d'.burstSc sc).quiet = (d.burstSc sc).quiet.filter (·.1 != n)) ∧
        ∃ t, (d'.leafAt n).eqdNext = some ((d.eqdOf rtd).toNat, t))) ∧
  (∀ n, Happens (.rangingTimeout n) [.now, .ctl, .mon, .ohd] (fun d => (d.leafAt n).state = .ranging)
    fun d d' => (d'.leafAt n).state = .lost ∧ (d'.leafAt n).rangeOp = none ∧ d'.now = max d.now (d.frameStart (d.leafAt n).rangeEnd))

/-- BURST_RECEIVED of an active leaf's grant, whose container ends at no packet engine: a burst without its unique word is missed, one with a
bad header is counted, a good one is counted, its header taken in and the leaf's entry written back unless a codeword failed;
LEAF_ALIGNMENT_LOST starts a ranging; LEAF_BURST_SEND sends what is due, a frame after the downstream frame that it refers to, with the
delay and the slot of a granted burst, and with the position drawn of a discovery burst (R285, R288, R292, R294, R300 to R302, R305, R307, R309). -/
def Obligations.BurstsAreReceivedAndSent : Prop :=
  (∀ (b : DataBurst) (g : SentGrant), Happens (.burstReceived b) [.ctl, .mon, .quilt, .line, .scs, .conts, .ohd]
    (fun d => d.role = .hub ∧ d.runs .lem = true ∧ (d.leafAt b.leaf).state = .active ∧
      (d.leafAt b.leaf).grants.find? (fun g => g.frame == b.frame && g.slot == b.slot) = some g ∧
      d.conf .contBind (2 * d.conf .leafCont b.leaf + 1) ≠ 1)
    fun d d' =>
      let x := d.leafAt b.leaf
      let y := d'.leafAt b.leaf
      let sw := (d.lemAt b.leaf).any (·.swap)
      let sc := d.conf .leafHome b.leaf
      let shift := ((d.eqdSettle b.leaf g.frame).leafAt b.leaf).shift
      let at' := burstAt (8 * (slotStart g.slot + shift))
      let w := (d.eqdSettle b.leaf g.frame).frontTrack sc b.codes
      let place := wordPlace (d.conf .uwThresh)
        ((w.burstWindow (d.lemAt b.leaf) sc b.freq at' b.codes).map fun s => if sw = true then s.swap else s)
      (place = none → y.missed = (x.missed + 1) % 2 ^ 32 ∧ y.good = x.good ∧ d'.lemAt b.leaf = d.lemAt b.leaf) ∧
      (∀ p, place = some p →
        let e : Int := 8 * ((p : Int) - 16 + shift) + b.fine
        let got := w.receiveBurst (d.lemAt b.leaf) sw sc g.mod g.code (burstLen g.span - 352) b.codes
          (at' + 256 * ((p : Int) - 16) + 32 * b.fine) b.freq b.fine
        let head := got.bytes.take 40
        (burstPartOk 40 head = false →
          y.hdrErrors = (x.hdrErrors + 1) % 2 ^ 32 ∧ y.good = x.good ∧ d'.lemAt b.leaf = d.lemAt b.leaf) ∧
        (burstPartOk 40 head = true → y.good = (x.good + 1) % 2 ^ 32 ∧ y.missRun = 0 ∧ y.freq = some b.freq ∧
          y.bseq = some (beNat (slice head 2 2)) ∧ (64 < e.natAbs → y.misaligned = (x.misaligned + 1) % 2 ^ 32) ∧
          d'.lemAt b.leaf = if got.outerFail = true then d.lemAt b.leaf else some got.entry))) ∧
  (∀ n, Happens (.leafAlignmentLost n) [.ctl, .ohd] (fun d => (d.leafAt n).state = .active ∧ 3 ≤ (d.leafAt n).missRun)
    fun d d' => (d'.leafAt n).state = .ranging ∧ (d'.leafAt n).missed = ((d.leafAt n).missed + 1) % 2 ^ 32) ∧
  (∀ g r t, Happens (.leafBurstSend .data) [.now, .ctl, .mon, .free, .quilt, .scs, .conts, .ohd]
    (fun d => let l := d.ohd.leaf
      d.role = .leaf ∧ d.homeUp = true ∧ l.state = .active ∧ l.grants = g :: r ∧ g.record / 2 ^ 20 = l.id ∧
      slotStart g.slot + burstLen (bits g.record 16 3 + 1) ≤ 87500 ∧ (d.ownEqdSettle g.frame).upInstant g.frame = some t)
    fun d d' => d.BurstLeaves d' g.sc (t + symTime (slotStart g.slot)) ∧ d'.ohd.leaf.grants = r ∧ d'.ohd.leaf.bseq = (d.ohd.leaf.bseq + 1) % 65536) ∧
  (∀ attempt sub inv f a, Happens (.leafBurstSend .disc) [.now, .ctl, .free, .quilt, .scs, .ohd]
    (fun d => d.role = .leaf ∧ d.homeUp = true ∧ d.ohd.leaf.state = .discSent ∧ d.ohd.leaf.disc = some (attempt, sub, inv, f) ∧
      d.arrival f = some a)
    fun d d' => d'.ohd.leaf.disc = none ∧ d.BurstLeaves d' d.home (a + tcFrame + symTime (640 * sub))) ∧
  (∀ f a, Happens (.leafBurstSend .echo) [.now, .ctl, .free, .quilt, .scs, .ohd]
    (fun d => d.role = .leaf ∧ d.homeUp = true ∧ d.ohd.leaf.state = .active ∧ d.ohd.leaf.echo = some f ∧ d.arrival f = some a)
    fun d d' => d'.ohd.leaf.echo = none ∧ d.BurstLeaves d' d.home (a + tcFrame))

/-- SEEN, ASSIGN, EQD, RANGE, REPORT, INVITE, MOVE and DEREGISTER that the leaf acts on; DISCOVERY_OCCASION, DISC_RESPONSE_TIMEOUT and
SILENT_TIMEOUT (R295, R305, R307). -/
def Obligations.LeavesFollowTheirHub : Prop :=
  (∀ h ident, Happens (.seen h ident) [.ctl, .ohd]
    (fun d => d.isMe ident = true ∧ (d.leafTakes 1 h).1 = true ∧ d.ohd.leaf.state = .discSent)
    fun d d' => d'.ohd.leaf.state = .seen ∧ d'.ohd.leaf.disc = none ∧ d'.ohd.leaf.since = d.now) ∧
  (∀ h ident eqd ded rtd, Happens (.assign h ident eqd ded rtd) [.ctl, .mon, .scs, .ohd]
    (fun d => d.isMe ident = true ∧ (d.leafTakes 2 h).1 = true ∧ (d.ohd.leaf.state = .discSent ∨ d.ohd.leaf.state = .seen))
    fun d d' => let l := d'.ohd.leaf
      l.state = .active ∧ l.id = h.leaf % 4096 ∧ l.eqd = eqd ∧ l.rtd = rtd ∧ l.dedicated = ded ∧
      d.raised d' .leafAssigned (h.leaf % 4096)) ∧
  (∀ h eqd mfi rtd, Happens (.eqd h eqd mfi rtd) [.ctl, .ohd] (fun d => d.isLeaf h = true ∧ (d.leafTakes 3 h).1 = true)
    fun d d' => d'.ohd.leaf.rtd = rtd ∧ ∃ k, d.ohd.leaf.Names mfi k ∧ d'.ohd.leaf.eqdNext = some (eqd, k)) ∧
  (∀ h mfi, Happens (.range h mfi) [.ctl, .ohd]
    (fun d => d.isLeaf h = true ∧ (d.leafTakes 4 h).1 = true ∧ d.ohd.leaf.state = .active)
    fun d d' => ∃ k, d.ohd.leaf.Names mfi k ∧ d'.ohd.leaf.echo = some k) ∧
  (∀ h b, Happens (.report h b) [.ctl, .line, .ohd] (fun d => d.isLeaf h = true ∧ (d.leafTakes 5 h).1 = true)
    fun d d' => d'.ohd.leaf.rtd = b.rtd ∧ d'.ohd.leaf.farBei = d.ohd.leaf.farBei + b.bei ∧ d'.ohd.leaf.farBdi = b.bdi ∧
      d'.ohd.leaf.freq = if b.freq % 2 ^ 16 = 0x8000 then none else some (signed 16 (b.freq % 2 ^ 16))) ∧
  (∀ h ident sc, Happens (.invite h ident sc) [.ctl, .ohd]
    (fun d => d.isMe ident = true ∧ (d.leafTakes 6 h).1 = true ∧ d.ohd.leaf.state = .inviteWait)
    fun d d' => d'.ohd.leaf.state = .discWait ∧ d'.ohd.leaf.invited = some (sc % 32, ceilDiv d.ohd.leaf.no 4096 * 4096) ∧
      d'.ohd.leaf.r = 0) ∧
  (∀ h b, Happens (.move h b) [.ctl, .mon, .ohd]
    (fun d => d.isLeaf h = true ∧ (d.leafTakes 7 h).1 = true ∧ d.ohd.leaf.state = .active)
    fun d d' => d'.ohd.leaf.state = .active ∧ d'.ohd.leaf.id = d.ohd.leaf.id ∧
      d.raised d' .leafMoveRequest (b.rxFirst % 32 + 32 * (b.rxCount % 8) + 256 * (b.home % 32) + 8192 * b2n b.dedicated)) ∧
  (∀ h, Happens (.deregister h) [.ctl, .mon, .ohd]
    (fun d => d.isLeaf h = true ∧ (d.leafTakes 8 h).1 = true ∧ (d.ohd.leaf.state = .seen ∨ d.ohd.leaf.state = .active))
    fun d d' => d'.ohd.leaf.state = .inviteWait ∧ d'.ohd.leaf.id = 0xFFF ∧ d.raised d' .leafDeregistered 0) ∧
  (∀ sc f, Happens (.discoveryOccasion sc false f) [.ctl, .free, .ohd]
    (fun d => d.role = .leaf ∧ d.conf .ownHome = sc ∧ d.homeUp = true ∧ d.ohd.leaf.state = .discWait)
    fun d d' => d'.ohd.leaf.state = .discSent ∧ 
      ∃ sub < 16, d'.ohd.leaf.disc = some (d.ohd.leaf.r, sub, d.ohd.leaf.invited == some (d.home, f), f)) ∧
  Happens .discResponseTimeout [.now, .ctl, .mon, .free, .ohd] (fun d => d.ohd.leaf.state = .discSent)
    (fun d d' => d'.now = max d.now (d.ohd.leaf.since + 32000) ∧ d'.ohd.leaf.disc = none ∧
      if d.ohd.leaf.r < 8 then d'.ohd.leaf.state = .backoff ∧ d'.ohd.leaf.r = d.ohd.leaf.r + 1 ∧ 1 ≤ d'.ohd.leaf.waitOcc ∧
        d'.ohd.leaf.waitOcc ≤ 2 ^ min (d.ohd.leaf.r + 1) 4
      else d'.ohd.leaf.state = .inviteWait) ∧
  Happens .silentTimeout [.now, .ctl, .ohd] (fun d => d.ohd.leaf.state = .silent)
    (fun d d' => d'.ohd.leaf.state = (if d.role = .leaf ∧ d.homeUp = true then .discWait else .waitDs) ∧ d'.ohd.leaf.id = 0xFFF ∧ d'.now = max d.now (d.ohd.leaf.since + 25000000))

/-! ### Device time and references (R318 to R375) -/

/-- TIME_STEP at once and in waiting, TIME_SLEW, TIME_READ, TIME_LOST; TIME_LINK_SET and TIME_PORT_SET stage; TIME_TT_STATUS and
TIME_PORT_STATUS read (R319 to R325, R340 to R342). -/
def Obligations.TimeVerbsStepSlewReadAndStage : Prop :=
  Serves verbTimeStep .timeStep .ok [.ctl, .mon, .time, .ohd, .ref]
    (fun c _ d => c.p 0 0 2 = 0 ∧ d.time.established = false ∧ d.time.step = none) (fun _ _ d => res 8 [fieldAt 0 64 d.now])
    (fun c d d' => d'.time.established = true ∧ d'.time.anchorCnt = d.now ∧ d'.time.anchorCfr = 0 ∧
      d'.time.anchorT = ((c.p 8 0 48 * 1000000000 + c.p 14 0 30) * 65536 + c.p 18 0 16 : Nat) ∧ d'.time.rate = d.time.rate) ∧
  Serves verbTimeStep .timeStep .accepted [.ctl, .mon, .time]
    (fun c _ d => c.p 0 0 2 ≠ 0 ∧ d.time.established = false ∧ d.time.step = none ∧
      (c.p 0 0 2 = 3 → d.now + 25000 ≤ c.p 20 0 64 ∧ c.p 20 0 64 ≤ d.now + 50000000)) (fun _ _ _ => {})
    (fun c d d' => d'.time = { d.time with
      step := some ⟨c.p 0 0 2, ((c.p 8 0 48 * 1000000000 + c.p 14 0 30) * 65536 + c.p 18 0 16 : Nat),
        if c.p 0 0 2 = 3 then c.p 20 0 64 else d.now + 50000000, c.slot, (d.slot c.slot).serial, c.seq⟩ }) ∧
  Serves verbTimeSlew .timeSlew .ok [.ctl, .mon, .time] (fun _ _ d => d.conf .refTimeMode ≠ 1) (fun _ _ d => res 8 [fieldAt 0 64 d.now])
    (fun c d d' => d'.time = { d.time with
      anchorCnt := d.now, anchorCfr := 0, anchorT := d.time16, rate := c.ps 0 0 48,
      hold := if c.p 6 0 32 = 0 then none else some (d.now + 25000 * c.p 6 0 32, c.ps 10 0 48) }) ∧
  (∀ e, Serves verbTimeRead .timeRead .ok [.ctl, .mon]
    (fun c _ d => (if c.p 0 0 2 = 0 then some ⟨d.now, 0, d.time16, d.tcTotal d.now⟩ else if c.p 0 0 2 = 1 then d.time.ppsA else d.time.ppsB) = some e)
    (fun _ _ d => res 32 [fieldAt 0 64 e.cnt, fieldAt 8 16 e.frac, fieldAt 10 48 (toQTime e.time).sec, at' 16 0 30 (toQTime e.time).ns,
      fieldAt 20 16 (e.time % 65536).toNat, fieldAtS 22 48 d.time.rate, at' 28 0 1 (b2n d.time.established),
      at' 28 1 1 (b2n d.time.step.isSome), at' 28 2 1 (b2n d.time.hold.isSome)]) fun _ _ _ => True) ∧
  Serves verbTimeLost .timeLost .ok [.ctl, .mon, .time] (fun _ _ d => d.holdsTimed = false) (fun _ _ _ => {})
    (fun _ d d' => d'.time = { d.time with established := false } ∧ d.raised d' .timeLost 0) ∧
  Stages verbTimeLinkSet .timeLinkSet
    (fun c d => ∀ n ∈ c.insts d, c.p 5 0 3 ≤ 6 ∧ (c.ps 18 0 32).natAbs ≤ 1000000 ∧
      if c.cls = .stitchLane then c.p 4 1 1 = 0 ∧ c.p 8 0 32 = 0 ∧ c.p 12 0 24 = 0 ∧ c.p 15 0 24 = 0
      else 184000000 ≤ c.p 8 0 32 ∧ c.p 8 0 32 ≤ 200000000 ∧ c.p 12 0 24 ≤ 10000000 ∧ c.p 15 0 24 ≤ 10000000)
    (eachUnit fun c _ => let k := if c.cls = .line then 0 else 1
      [fv .ttEn k (c.p 4 0 1) 1, fv .ttFibre k (c.p 4 1 1) 1, fv .ttAvg k (c.p 5 0 3) 3, fv .rxRefMhz k (c.p 8 0 32),
       fv .txExtPs k (c.p 12 0 24) 24, fv .rxExtPs k (c.p 15 0 24) 24, fv .asymPs k (c.p 18 0 32)]) ∧
  Stages verbTimePortSet .timePortSet (fun _ _ => True)
    (eachUnit fun c n => [fv .portRxDelay n (c.p 4 0 32), fv .portTxDelay n (c.p 8 0 32)]) ∧
  Reads verbTimeTtStatus .timeTtStatus 34 (fun _ _ => True) (fun c w => let x := if c.cls = .line then w.time.line else w.time.stitch
    [at' 0 0 1 (b2n x.valid), at' 1 0 5 x.sc, fieldAtS 2 64 x.offset, fieldAtS 10 64 x.delay, fieldAtS 18 32 x.asym, fieldAt 22 32 x.used,
     fieldAt 26 32 x.discarded, fieldAt 30 32 x.rtt]) ∧
  ReadsUnit verbTimePortStatus .timePortStatus 16 (fun _ _ => True) (fun w n => let x := w.time.stamps.get (fun _ => {}) n
    [fieldAt 0 32 x.tx, fieldAt 4 32 x.rx, fieldAt 8 32 x.fallback, fieldAt 12 32 x.unstamped])

/-- STEP_AT_COUNT, STEP_PULSE_TIMEOUT, SLEW_HOLD_END, TT_OFFSET_INVALID, and PPS_EDGE with and without a step that waits for it (R318, R319,
R321, R323 to R325, R335). -/
def Obligations.StepsSlewsAndEdgesTakeEffect : Prop :=
  (∀ p, Happens .stepAtCount [.now, .ctl, .mon, .time, .ohd, .ref] (fun d => d.time.step = some p ∧ p.kind = 3)
    fun d d' => d'.now = max d.now p.limit ∧ d'.time.established = true ∧ d'.time.anchorCnt = p.limit ∧ d'.time.anchorCfr = 0 ∧
      d'.time.anchorT = p.t ∧ d'.time.step = none) ∧
  (∀ p, Happens .stepPulseTimeout [.now, .ctl, .mon, .time] (fun d => d.time.step = some p ∧ p.kind ≠ 3)
    fun d d' => d'.now = max d.now p.limit ∧ d'.time = { d.time with step := none }) ∧
  (∀ h, Happens .slewHoldEnd [.now, .ctl, .mon, .time] (fun d => d.time.hold = some h)
    fun d d' => d'.now = max d.now h.1 ∧ d'.time.rate = h.2 ∧ d'.time.hold = none ∧ d'.time.anchorCnt = d'.now ∧
      d'.time.anchorT = d.time.timeAt d'.now 0) ∧
  (∀ st, Happens (.ttOffsetInvalid st) [.now, .ctl, .mon, .time] (fun d => (if st then d.time.stitch else d.time.line).valid = true)
    fun d d' => (if st then d'.time.stitch else d'.time.line).valid = false ∧
      d'.now = max d.now ((if st then d.time.stitch else d.time.line).lastUsed + 512000)) ∧
  (∀ b frac, Happens (.ppsEdge b frac) [.ctl, .mon, .cfg, .quilt, .free, .time, .ref] (fun d => d.time.step = none)
    fun d d' => (if b then d'.time.ppsB else d'.time.ppsA) =
      some ⟨d.now, frac % 65536, d.time.timeAt d.now (frac % 65536), d.tcTotal d.now + (frac % 65536) * d.tcRate / 65536⟩) ∧
  (∀ b frac p, Happens (.ppsEdge b frac) [.ctl, .mon, .cfg, .quilt, .free, .time, .ohd, .ref]
    (fun d => d.time.step = some p ∧ p.kind = if b then 2 else 1)
    fun d d' => d'.time.established = true ∧ d'.time.anchorCnt = d.now ∧ d'.time.anchorCfr = frac % 65536 ∧ d'.time.anchorT = p.t ∧
      d'.time.step = none)

/-- REF_INPUT_SET, REF_SELECT_SET, REF_OUTPUT_SET, REF_HOLDOVER_SET, REF_PTP_SET and REF_MODEL_IMPORT stage; REF_STATUS, REF_INPUT_STATUS
and REF_MODEL_EXPORT read; REF_WTR_CLEAR ends a wait (R352, R364, R367 to R373). -/
def Obligations.ReferenceVerbsStageReadAndClear : Prop :=
  Stages verbRefInputSet .refInputSet
    (fun c d => ∀ n ∈ c.insts d, (n = 6 → c.p 4 0 1 ≠ 0) ∧ (1 < n → c.p 10 0 5 = 0 ∧ c.p 12 0 32 = 0) ∧ (n ≠ 5 → c.p 10 5 2 = 0))
    (eachUnit fun c n => [fv .refEnable n (c.p 4 0 1) 1, fv .refPrio n (c.p 4 4 4) 4, fv .refQl n (c.p 5 0 4) 4,
      fv .refQualMs n (c.p 6 0 16) 16, fv .refRange n (c.p 8 0 16) 16, fv .refTod n (c.p 10 0 2) 2, fv .refTodEdge n (c.p 10 2 1) 1,
      fv .refBaud n (c.p 10 3 2) 2, fv .refExtf n (c.p 10 5 2) 2, fv .refCable n (c.p 12 0 32)]) ∧
  Stages verbRefSelectSet .refSelectSet (fun _ _ => True)
    (fun c _ => [(⟨.time, 0⟩, [fv .refMode 0 (c.p 0 0 2) 2, fv .refForced 0 (c.p 0 2 4) 4, fv .refQlEn 0 (c.p 0 6 1) 1,
      fv .refRevertive 0 (c.p 0 7 1) 1, fv .refBw 0 (c.p 1 0 2) 2, fv .refTimeMode 0 (c.p 1 2 1) 1, fv .refUtcValid 0 (c.p 1 3 1) 1,
      fv .refWtr 0 (c.p 2 0 16) 16, fv .refPull 0 (c.p 4 0 16) 16, fv .refUtc 0 (c.p 6 0 16) 16, fv .refAlarm 0 (c.p 8 0 32),
      fv .refTrim 0 (c.p 12 0 48) 48])]) ∧
  Stages verbRefOutputSet .refOutputSet
    (fun c _ =>
      let period := c.p 2 0 16 * (if c.p 1 0 2 = 0 then 25000 else 256 * 25000)
      if c.p 0 0 3 = 4 then
        c.p 0 4 4 = 0 ∧ c.p 1 2 5 = 0 ∧ c.p 2 0 16 = 0 ∧ c.p 4 0 32 = 0 ∧ c.ps 8 0 40 = 0 ∧ c.p 13 0 24 = 0
      else if c.p 0 0 3 ≤ 1 then
        c.p 1 0 7 = 0 ∧ c.p 2 0 16 = 0 ∧ 1 ≤ c.p 4 0 32 ∧ c.p 4 0 32 ≤ 500000 ∧ -4000000000 ≤ c.ps 8 0 40 ∧ c.ps 8 0 40 ≤ 4000000000
      else
        c.p 0 6 2 = 0 ∧ (c.p 1 0 2 = 0 → c.p 1 2 5 = 0) ∧ c.p 2 0 16 ≠ 0 ∧ 1 ≤ c.p 4 0 32 ∧ c.p 4 0 32 < period ∧ 0 ≤ c.ps 8 0 40 ∧
        c.ps 8 0 40 * 5 ≤ period * 16)
    (fun c _ => let o := c.p 0 0 3
      [(⟨.time, 0⟩, [fv .outEn o (c.p 0 3 1) 1, fv .outPol o (c.p 0 4 1) 1, fv .outSup o (c.p 0 5 1) 1, fv .outAlign o (c.p 0 6 2) 2,
        fv .outSrc o (c.p 1 0 2) 2, fv .outSc o (c.p 1 2 5) 5, fv .outDiv o (c.p 2 0 16) 16, fv .outWidth o (c.p 4 0 32),
        fv .outOffset o (c.p 8 0 40) 40, fv .outDelay o (c.p 13 0 24) 24])]) ∧
  Stages verbRefHoldoverSet .refHoldoverSet (fun _ _ => True)
    (fun c _ => [(⟨.time, 0⟩, [fv .hoTherm 0 (c.p 0 0 2) 2, fv .hoQl 0 (c.p 0 2 4) 4, fv .hoAvg 0 (c.p 2 0 16) 16,
      fv .ntcBeta 0 (c.p 4 0 16) 16, fv .ntcR25 0 (c.p 6 0 32), fv .learnTau 0 (c.p 10 0 16) 16])]) ∧
  Stages verbRefPtpSet .refPtpSet (fun _ _ => True)
    (fun c _ => [(⟨.time, 0⟩, [fv .ptpMask 0 (c.p 0 0 16) 16, fv .ptpDomain 0 (c.p 2 0 8) 8, fv .ptpEn 0 (c.p 3 0 1) 1,
      fv .ptpMcast 0 (c.p 3 1 1) 1, fv .ptpPrio2 0 (c.p 4 0 8) 8])]) ∧
  Stages verbRefModelImport .refModelImport
    (fun c d => let b := c.bytes
      c.extLen = 72 ∧ leNat (slice b 0 2) = 1 ∧ leNat (slice b 2 1) < 4 ∧ leNat (slice b 2 1) = d.conf .hoTherm ∧
      leNat (slice b 3 1) = 0 ∧ slice b 4 8 = d.otp.identity ∧ leNat (slice b 64 4) = crc32 (b.take 64) ∧ leNat (slice b 68 4) = 0)
    (fun c _ => [(⟨.time, 0⟩, [fv .modelImport 0 (leNat c.bytes) 576])]) ∧
  Reads verbRefStatus .refStatus 32 (fun _ _ => True) (fun _ w => let x := w.ref
    [at' 0 0 3 x.sync.code, at' 0 3 4 (x.selected.getD 15), at' 1 4 1 (b2n x.model.valid), at' 1 5 1 (b2n x.alarm),
     at' 1 6 1 (b2n x.thermFault), fieldAtS 2 48 x.s, fieldAtS 8 48 w.time.rate, fieldAtS 22 16 x.temp, fieldAt 24 32 x.switches]) ∧
  ReadsUnit verbRefInputStatus .refInputStatus 20 (fun _ _ => True) (fun w n => let x := w.refIn n
    [at' 0 0 3 x.state.code, at' 0 3 1 (b2n (w.timeCapable n)), at' 0 4 4 x.cause, at' 1 0 4 (w.conf .refQl n),
     at' 1 4 4 (w.conf .refPrio n), fieldAt 12 32 x.failures, fieldAt 16 32 x.todErrors]) ∧
  (∀ b, Serves verbRefModelExport .refModelExport .ok [.ctl, .mon]
    (fun c v _ => c.extLen = 72 ∧ v.ref.model.valid = true ∧ v.modelRecord = b) (fun _ _ _ => {})
    fun c _ d' => .hostWrite c.slot (scatter c.descs b) ∈ d'.out) ∧
  (∀ r, Serves verbRefWtrClear .refWtrClear .ok [.ctl, .mon, .ref] (fun c _ d => c.insts d = [r] ∧ (d.refIn r).state = .wtr)
    (fun _ _ _ => {}) fun _ d d' => (d'.refIn r).state = .available ∧ d.raised d' .refAvailable r)

/-- REF_FAILURE, REF_FAILURE_CLEARS, REF_QUALIFIED and REF_WTR_EXPIRY (R347, R352); SELECTION_EVALUATION, SWITCH_COMPLETE, ACQUIRE_LOCKED
and REFERENCE_TIME_STEP (R321, R353 to R356, R359); TOD_MESSAGE (R348 to R350); OSC_TEMP_READING and MODEL_LEARN_UPDATE (R360, R361);
PTP_MESSAGE_INTERVAL (R366). -/
def Obligations.ReferencesFailQualifySwitchAndLock : Prop :=
  (∀ r k, Happens (.refFailure r k) [.ctl, .mon, .ref]
    (fun d => k ∈ refCauses r ∧ (d.refIn r).state ≠ .off ∧ (d.refIn r).state ≠ .failed ∧ d.ref.sw = none)
    fun d d' => (d'.refIn r).state = .failed ∧ (d'.refIn r).cause = k ∧ (d'.refIn r).lossStart = d.now ∧
      (d'.refIn r).failures = ((d.refIn r).failures + 1) % 2 ^ 32 ∧ d.raised d' .refFailed k) ∧
  (∀ r, Happens (.refFailureClears r) [.ctl, .ref] (fun d => (d.refIn r).state = .failed)
    fun d d' => if (d.refBad r).isSome then d'.refIn r = d.refIn r
      else if 250000 < d.now - (d.refIn r).lossStart then
        (d'.refIn r).state = .qualifying ∧ (d'.refIn r).due = d.now + 25000 * d.conf .refQualMs r
      else (d'.refIn r).state = .wtr ∧ (d'.refIn r).due = d.now + 25000000 * d.conf .refWtr) ∧
  (∀ r, Happens (.refQualified r) [.now, .ctl, .mon, .ref] (fun d => (d.refIn r).state = .qualifying)
    fun d d' => d'.now = max d.now (d.refIn r).due ∧
      (d'.refIn r).state = if 0 < d.conf .refWtr ∧ (d.refIn r).failed = true then .wtr else .available) ∧
  (∀ r, Happens (.refWtrExpiry r) [.now, .ctl, .mon, .ref] (fun d => (d.refIn r).state = .wtr)
    fun d d' => d'.now = max d.now (d.refIn r).due ∧ (d'.refIn r).state = .available ∧ d.raised d' .refAvailable r) ∧
  (∀ m t, Happens (.selectionEvaluation m) [.now, .ctl, .mon, .free, .time, .ref]
    (fun d => d.pkt.ctrlIn = [] ∧ d.ref.sw = none ∧ d.refTarget = some t ∧ (d.ref.sync.tracks = true → d.ref.selected ≠ some t) ∧
      ∀ r < 6, (((d.at d.ref.evalAt).refMeasure m).refBad r).isSome = true → (d.refIn r).state = .off ∨ (d.refIn r).state = .failed)
    fun d d' => d'.now = max d.now d.ref.evalAt ∧ d'.ref.evalAt = d'.now + 25000 ∧ d'.ref.sync = .switching ∧
      d'.ref.sw = some ⟨d.ref.selected, t, d'.now⟩) ∧
  (∀ ph m w, Happens (.switchComplete ph m) [.now, .ctl, .mon, .free, .time, .ref]
    (fun d => d.ref.sw = some w ∧ d.ref.held = [] ∧ d.conf .refMode = 0 ∧ w.new < 6 ∧ (d.refIn w.new).state ≠ .failed ∧
      d.refDnu w.new = false ∧ ∀ r < 7, d.refRank r < d.refRank w.new → d.refUp r false = false)
    fun d d' => d'.now = max d.now (w.start + 250000) ∧ d'.ref.sw = none ∧ d'.ref.selected = some w.new ∧
      (d'.ref.sync = .locked ∨ d'.ref.sync = .acquiring) ∧ d'.ref.buildFreq = ph ∧ d'.ref.switches = (d.ref.switches + 1) % 2 ^ 32) ∧
  (∀ t, Happens .acquireLocked [.now, .ctl, .mon, .ref] (fun d => d.ref.sync = .acquiring ∧ d.ref.goodFrom = some t)
    fun d d' => d'.now = max d.now (t + 250000000) ∧ d'.ref.sync = .locked ∧ d'.ref.lockedAt = d'.now) ∧
  (∀ m r t, Happens (.referenceTimeStep m) [.ctl, .mon, .time, .ohd, .ref]
    (fun d => d.ref.sync.tracks = true ∧ d.time.established = false ∧ d.conf .refTimeMode = 1 ∧ d.ref.selected = some r ∧
      (d.refMeasure m).refTimeOf r = some t)
    fun d d' => d'.time.established = true ∧ d'.time.anchorCnt = d.now ∧ d'.time.anchorT = d.time16 + t ∧ d'.time.step = none) ∧
  (∀ (b : Bool) bytes e m, Happens (.todMessage b bytes) [.ctl, .ref]
    (fun d => let r := b2n b
      (d.refIn r).state ≠ .off ∧ d.todFmt r = 2 ∧ d.conf .refTodEdge r = 0 ∧ todBinary bytes = some m ∧ m.locked = true ∧
      (if b then d.time.ppsB else d.time.ppsA) = some e ∧ 1250000 ≤ d.now - e.cnt ∧ d.now - e.cnt ≤ 23750000)
    fun d d' => let r := b2n b
      let last := (d.refIn r).todNext.orElse fun _ => (d.refIn r).todLast
      if last = none ∨ last = some (m.sec - 1) ∧ 0 < m.sec then
        (d'.refIn r).gotMsg = true ∧ (d'.refIn r).todLast = some m.sec ∧ (d'.refIn r).time = some (d.edgeOffset r e m.sec)
      else (d'.refIn r).todErrors = ((d.refIn r).todErrors + 1) % 2 ^ 32 ∧ (d'.refIn r).todLast = (d.refIn r).todLast) ∧
  (∀ codes, Happens (.oscTempReading codes) [.ctl, .mon, .free, .ref] (fun d => d.conf .hoTherm = 0)
    fun d d' =>
      let t := ntcTemp (d.conf .ntcBeta) (d.conf .ntcR25) codes.sum
      if -5000 ≤ t ∧ t ≤ 15000 then d'.ref.temp = t ∧ d'.ref.thermFault = false
      else d'.ref.thermFault = true ∧ d'.ref.temp = d.ref.temp) ∧
  Happens .modelLearnUpdate [.now, .ctl, .mon, .free, .ref] (fun d => d.ref.sync = .locked)
    (fun d d' => d'.now = max d.now d.ref.learnAt ∧ d'.ref.learnAt = d'.now + 1500000000 ∧
      d'.ref.model.learned = d.ref.model.learned + 60) ∧
  (∀ sl p, Happens (.ptpMessageInterval sl) [.now, .ctl, .mon, .time, .ref]
    (fun d => d.pkt.ctrlIn = [] ∧ d.conf .ptpEn ≠ 0 ∧ p < 16 ∧ bit (d.conf .ptpMask) p = true ∧ d.portServes p = true)
    fun d d' => d'.now = max d.now d.ref.ptpAt ∧ d'.ref.ptpAt = d'.now + 1562500 ∧
      .ptp p (if sl = some p then 1 else 0) (d.conf .ptpDomain) (d.conf .ptpMcast) d.clockClass (d.conf .ptpPrio2)
        (some (d'.time16 + ps16 (signed 32 (d.conf .portTxDelay p)))) ∈ d'.out)

/-! ### Lanes, ports and the stitch port (R376 to R397) -/

/-- LANE_PORT_SET, LANE_EQ_SET, LANE_LOOPBACK and LANE_STITCH_SET stage; LANE_STATUS, LANE_PORT_STATUS and LANE_STITCH_STATUS read (R383,
R392 to R395). -/
def Obligations.LaneVerbsStageAndRead : Prop :=
  Stages verbLanePortSet .lanePortSet
    (fun c d => ∃ l, portLanes (c.p 1 0 3) (c.p 1 3 2) = some l ∧ c.p 0 0 4 % l = 0 ∧ (c.p 1 7 1 ≠ 0 → ∀ k < l,
      c.p 0 0 4 + k ∉ d.heldLanes (c.p 0 0 4) ∧ (bit (c.p 1 5 2) 0 = true → d.lacks (laneUnit (c.p 0 0 4 + k) false) = false) ∧
      (bit (c.p 1 5 2) 1 = true → d.lacks (laneUnit (c.p 0 0 4 + k) true) = false)))
    (fun c _ => let p := c.p 0 0 4
      [(⟨.port, p⟩, [fv .portEn p (c.p 1 7 1) 1, fv .portSpeed p (c.p 1 0 3) 3, fv .portRate p (c.p 1 3 2) 2, fv .portDir p (c.p 1 5 2) 2,
        fv .portMax p (c.p 2 0 14) 14])]) ∧
  Stages verbLaneEqSet .laneEqSet (fun _ _ => True)
    (eachUnit fun c n => let k := if c.cls = .stitchLane then 16 + n else n
      [fv .laneSrc k (c.p 4 0 1) 1, fv .laneCtle k (c.p 5 0 8) 8, fv .lanePre2 k (c.p 6 0 8) 8, fv .lanePre1 k (c.p 7 0 8) 8,
       fv .lanePost1 k (c.p 8 0 8) 8]) ∧
  Stages verbLaneLoopback .laneLoopback
    (fun c d => c.p 4 0 1 = 1 → ∀ n ∈ c.insts d, let k := if c.cls = .stitchLane then 16 + n else n
      d.lacks (laneUnit k false) = false ∧ d.lacks (laneUnit k true) = false)
    (eachUnit fun c n => [fv .laneLoop (if c.cls = .stitchLane then 16 + n else n) (c.p 4 0 2) 2]) ∧
  Stages verbLaneStitchSet .laneStitchSet
    (fun c d => d.conf .stitchUse ≠ 0 ∧ (c.p 0 0 1 = 1 → ∀ n < 8, d.lacks (.stIn n) = false ∧ d.lacks (.stOut n) = false))
    (fun c _ => [(⟨.stitchLane, 0⟩, [fv .stitchRelay 0 (c.p 0 0 1) 1])]) ∧
  (∀ k, Reads verbLaneStatus .laneStatus 20
    (fun c w => (c.cls = .stitchLane ∧ 16 ≤ k ∧ c.insts w = [k - 16] ∨ c.cls = .hostLane ∧ c.insts w = [k]) ∧
      (w.runs (laneUnit k false) = true ∨ w.runs (laneUnit k true) = true))
    fun _ w => let x := w.laneSt k
      [at' 0 0 1 (b2n x.locked), at' 0 2 2 (w.conf .laneLoop k), at' 0 4 1 (b2n (!w.runs (laneUnit k false))),
       at' 0 5 1 (b2n (!w.runs (laneUnit k true))), fieldAt 2 16 x.snr, fieldAt 4 32 x.losses, fieldAt 8 64 x.symbols,
       fieldAt 16 32 x.slips]) ∧
  ReadsUnit verbLanePortStatus .lanePortStatus 56 (fun w p => ∃ n ∈ w.portSpan p, w.runs (.hostIn n) = true ∨ w.runs (.hostOut n) = true)
    (fun w p => let x := w.portSt p
      [at' 0 0 1 (b2n x.up), at' 0 1 1 (b2n x.localFault), at' 0 2 1 (b2n x.remoteFault), fieldAt 4 64 x.rxFrames, fieldAt 12 64 x.rxBytes,
       fieldAt 20 64 x.txFrames, fieldAt 28 64 x.txBytes, fieldAt 36 64 x.corrected, fieldAt 44 32 x.uncorr, fieldAt 48 32 x.discards,
       fieldAt 52 32 x.downs]) ∧
  Reads verbLaneStitchStatus .laneStitchStatus 24 (fun _ w => ∃ n < 8, w.runs (.stIn n) = true ∨ w.runs (.stOut n) = true) (fun _ w =>
    let x := w.lane.stitch
    [at' 0 0 2 x.state.code, at' 0 2 1 (b2n x.echo), at' 0 3 1 (w.conf .stitchRelay), at' 0 4 1 (b2n x.farBdi), at' 0 5 1 (b2n x.farLG),
     fieldAt 2 16 x.farNum, fieldAt 4 16 (x.txMap.map (·.2)).sum, fieldAt 6 16 x.skew, fieldAt 8 32 x.sohErrors, fieldAt 12 32 x.bipViol,
     fieldAt 16 32 x.downs, fieldAt 20 32 x.discarded])

/-- LANE_LOCK, LANE_UNLOCK, PORT_UP and PORT_DOWN (R378, R379); STITCH_LANE_MARKER, STITCH_FRAME_RECEIVED, STITCH_ALIGN_TIMEOUT and
STITCH_SOH_LOSS (R388, R389). -/
def Obligations.LanesPortsAndTheStitchReceiver : Prop :=
  (∀ k snr, Happens (.laneLock k snr) [.ctl, .mon, .lane]
    (fun d => k < 24 ∧ d.runs (laneUnit k false) = true ∧ (d.laneSt k).locked = false)
    fun d d' => d'.laneSt k = { d.laneSt k with locked := true, snr := snr, since := d.now } ∧ d.raised d' .laneLocked k) ∧
  (∀ k, Happens (.laneUnlock k) [.ctl, .mon, .lane, .ohd] (fun d => k < 24 ∧ (d.laneSt k).locked = true)
    fun d d' => d'.laneSt k = { d.laneSt k with locked := false, losses := ((d.laneSt k).losses + 1) % 2 ^ 32 } ∧
      d.raised d' .laneUnlocked k ∧ (16 ≤ k → d'.lane.stitch.state ≠ .up)) ∧
  (∀ p, Happens (.portUp p) [.now, .ctl, .mon, .lane]
    (fun d => p < 16 ∧ (d.portSt p).up = false ∧ d.portAwake p 0 = true ∧ ∀ n ∈ d.portSpan p, (d.laneSt n).locked = true)
    fun d d' => d'.portSt p = { d.portSt p with up := true, localFault := false, remoteFault := false } ∧ d.raised d' .portUp p ∧
      d'.now = max d.now (((d.portSpan p).map fun n => (d.laneSt n).since).foldl max (d.portSt p).since + 250000)) ∧
  (∀ p why, Happens (.portDown p why) [.ctl, .mon, .lane] (fun d => p < 16 ∧ (d.portSt p).up = true ∧ 1 ≤ why ∧ why ≤ 3)
    fun d d' => d'.portSt p = { d.portSt p with
        up := false, since := d.now, localFault := why == 2, remoteFault := why == 3, downs := ((d.portSt p).downs + 1) % 2 ^ 32 } ∧
      d.raised d' .portDown (p + 16 * why)) ∧
  (∀ k m0 m, Happens (.stitchLaneMarker k m0) [.ctl, .mon, .lane, .ohd]
    (fun d => let x := d.lane.stitch.mark k
      k < 8 ∧ (d.laneSt (16 + k)).locked = true ∧ d.markerSeen k m0 = m ∧ markerGood k m.bytes = true ∧
        (x.locked = true → x.word = m.word % 6250))
    fun d d' => let x := d.lane.stitch.mark k
      let n := if 0 < x.good ∧ m.word % 6250 = x.word then min 2 (x.good + 1) else 1
      d'.lane.stitch.mark k = { good := n, bad := 0, locked := x.locked || decide (2 ≤ n), sfi := (m.bytes.getD 1 0).toNat,
                                sfc := beNat (slice m.bytes 2 3), word := m.word % 6250 }) ∧
  (∀ k m0 m, Happens (.stitchLaneMarker k m0) [.ctl, .mon, .lane, .ohd]
    (fun d => let x := d.lane.stitch.mark k
      k < 8 ∧ (d.laneSt (16 + k)).locked = true ∧ d.markerSeen k m0 = m ∧ 2 ≤ x.bad ∧
        (markerGood k m.bytes = false ∨ x.locked = true ∧ x.word ≠ m.word % 6250))
    fun _ d' => (d'.lane.stitch.mark k).locked = false ∧ d'.lane.stitch.state ≠ .up) ∧
  (∀ f0 f, Happens (.stitchFrameReceived f0) [.ctl, .mon, .free, .quilt, .time, .lane, .ohd]
    (fun d => d.stitchRuns false = true ∧ d.stitchSeen f0 = f ∧ d.lane.stitch.state = .aligning ∧ 1 ≤ d.lane.stitch.good ∧ f.soh.length = 4600 ∧
      crc32 (f.soh.take 4596) = beNat (f.soh.drop 4596))
    fun d d' => let x := d'.lane.stitch
      x.state = .up ∧ x.farNum = beNat (slice f.soh 4 2) % 4096 ∧ (x.echo = true ↔ x.farNum = d.num) ∧
      x.bip = some (bip8 f.payload) ∧ x.map = (List.range 320).map fun p => beNat (slice f.soh (1280 + 2 * p) 2)) ∧
  (∀ f0 f, Happens (.stitchFrameReceived f0) [.ctl, .mon, .lane, .ohd]
    (fun d => d.stitchRuns false = true ∧ d.stitchSeen f0 = f ∧ d.lane.stitch.state = .up ∧ d.lane.stitch.bad < 7 ∧
      ¬(f.soh.length = 4600 ∧ crc32 (f.soh.take 4596) = beNat (f.soh.drop 4596)))
    fun d d' => d'.lane.stitch.state = .up ∧ d'.lane.stitch.bad = d.lane.stitch.bad + 1 ∧
      d'.lane.stitch.sohErrors = (d.lane.stitch.sohErrors + 1) % 2 ^ 32) ∧
  (∀ f0 f, Happens (.stitchAlignTimeout f0) [.ctl, .mon, .lane, .ohd]
    (fun d => d.stitchRuns false = true ∧ d.stitchSeen f0 = f ∧ d.lane.stitch.state = .aligning ∧ 7 ≤ d.lane.stitch.frames ∧
      (d.lane.stitch.good = 0 ∨ ¬(f.soh.length = 4600 ∧ crc32 (f.soh.take 4596) = beNat (f.soh.drop 4596))))
    fun d d' => d'.lane.stitch.state = .down ∧ d'.lane.stitch.downs = (d.lane.stitch.downs + 1) % 2 ^ 32) ∧
  (∀ f0 f, Happens (.stitchSohLoss f0) [.ctl, .mon, .lane, .ohd]
    (fun d => d.stitchRuns false = true ∧ d.stitchSeen f0 = f ∧ d.lane.stitch.state = .up ∧ 7 ≤ d.lane.stitch.bad ∧
      ¬(f.soh.length = 4600 ∧ crc32 (f.soh.take 4596) = beNat (f.soh.drop 4596)))
    fun d d' => d'.lane.stitch.state = .down ∧ d'.lane.stitch.downs = (d.lane.stitch.downs + 1) % 2 ^ 32)

/-! ### The packet engine and the queues (R398 to R447) -/

/-- HOST_FRAME_RECEIVED (R378, R383, R405, R409, R414, R415): a frame with a wrong FCS or length is discarded; a good one is counted, and, classified,
counts for its flow or its exception class. VERIFIED_RELEASE, QUEUE_SERVICE and GENERATION_RETIRED (R419, R425 to R428, R466). -/
def Obligations.FramesPassTheEngineAndQueues : Prop :=
  (∀ f g e, Happens (.hostFrameReceived f e) [.ctl, .mon, .lane]
    (fun d => f.port < 16 ∧ d.portAwake f.port 0 = true ∧ (d.portSt f.port).up = true ∧ (d.hostSeen f).1 = some g ∧
      (g.frame.length < 64 ∨ d.conf .portMax f.port < g.frame.length ∨
        g.frame.drop (g.frame.length - 4) ≠ fcs (g.frame.take (g.frame.length - 4))))
    fun d d' => (d'.portSt f.port).discards = ((d.portSt f.port).discards + 1) % 2 ^ 32 ∧
      (d'.portSt f.port).rxFrames = (d.portSt f.port).rxFrames) ∧
  (∀ f g e, Happens (.hostFrameReceived f e) [.ctl, .mon, .free, .time, .conts, .lane, .pkt, .mem, .crypt]
    (fun d => f.port < 16 ∧ d.portAwake f.port 0 = true ∧ (d.portSt f.port).up = true ∧ (d.hostSeen f).1 = some g ∧ e.hit = none ∧
      64 ≤ g.frame.length ∧ g.frame.length ≤ d.conf .portMax f.port ∧
      g.frame.drop (g.frame.length - 4) = fcs (g.frame.take (g.frame.length - 4)))
    fun d d' =>
      (d'.portSt f.port).rxFrames = ((d.portSt f.port).rxFrames + 1) % 2 ^ 64 ∧
      (d'.portSt f.port).rxBytes = ((d.portSt f.port).rxBytes + g.frame.length) % 2 ^ 64 ∧
      ((d.takePipe false e).1.isSome = true → match d.pkt.active.classify false false (some f.port) g.frame with
        | .exception c => d'.pkt.excs.get (fun _ => 0) c = (d.pkt.excs.get (fun _ => 0) c + 1) % 2 ^ 64
        | .flow n _ _ => (d.pkt.active.act n).recirc = 0 → d'.pkt.flows.get (fun _ => (0, 0)) n =
            (((d.pkt.flows.get (fun _ => (0, 0)) n).1 + 1) % 2 ^ 64,
             ((d.pkt.flows.get (fun _ => (0, 0)) n).2 + g.frame.length) % 2 ^ 64))) ∧
  (∀ e h r, Happens (.verifiedRelease e) [.ctl, .mon, .free, .time, .conts, .lane, .pkt, .mem, .crypt]
    (fun d => d.pkt.held = h :: r ∧ e.hit = none ∧ (h.good = false ∨ h.act.recirc = 0)) fun d d' => d'.pkt.held = r ∧
      (h.good = false → (d'.ctx h.act.ctx).tagFail = ((d.ctx h.act.ctx).tagFail + 1) % 2 ^ 32)) ∧
  (∀ q n i r x, Happens (.queueService q) [.ctl, .mon, .time, .conts, .lane, .pkt, .mem]
    (fun d => d.blocked q.kind q.id = false ∧ d.choose q.kind q.id = some (n, x) ∧ min 256 (d.headLen n) ≤ d.credit q ∧ q.hit = none ∧
      (d.queue n).items = i :: r)
    fun d d' => (d'.queue n).items = r ∧ (d'.queue n).deq = ((d.queue n).deq + 1) % 2 ^ 64 ∧
      (d'.queue n).deqBytes = ((d.queue n).deqBytes + i.pkt.frame.length) % 2 ^ 64) ∧
  (∀ g, Happens .generationRetired [.ctl, .mon, .pkt] (fun d => d.pkt.former = some g ∧ ∀ h ∈ d.pkt.held, h.gen ≠ g.gen)
    fun d d' => d'.pkt = { d.pkt with former := none } ∧ d.raised d' .classGenRetired g.gen)

/-- PARSE_PROFILE, PARSE_SELECT, PARSE_GLOBAL, CLASS_ENTRY_ADD, CLASS_ENTRY_DEL, CLASS_ACTION_SET, CLASS_BULK, CLASS_EXPRESS_SET,
CLASS_EXCEPTION and CLASS_GEN_CLEAR change the session's staged generation alone (R400, R401, R406 to R408, R411, R416, R417, R420, R421).
CLASS_STATUS, CLASS_FLOW_READ, CLASS_PIPE_STATUS, QUEUE_STATUS; QUEUE_SET stages (R421, R446, R447). -/
def Obligations.RuleClassifierAndQueueVerbs : Prop :=
  ((∀ (g : RuleGen) (g' : RuleGen),
     (∀ v i f, (v, i, f) ∈ [
       (verbParseProfile, Instr.parseProfile, fun (c : Call) => (profileOf c).bad = false ∧
         g' = { g with prof := g.prof.set (fun _ => none) (c.p 0 0 6) (if c.p 0 6 1 = 1 then some (profileOf c) else none) }),
       (verbParseSelect, .parseSelect, fun c =>
         let e : SelEntry := ⟨c.p 0 7 1 == 1, c.p 1 0 2, c.p 1 2 2, c.p 2 0 6, c.p 4 0 16, c.p 6 0 16, c.p 8 0 16⟩
         g' = { g with sel := g.sel.set (fun _ => none) (c.p 0 0 6) (if c.p 0 6 1 = 1 then some e else none) }),
       (verbParseGlobal, .parseGlobal, fun c => g' = { g with tpid3 := c.p 0 0 16, ecpriPort := c.p 2 0 16 }),
       (verbClassEntryDel, .classEntryDel, fun c => (∃ e ∈ g.table, e.flow = c.p 0 0 16) ∧
         g' = { g with table := g.table.filter (fun e => e.flow != c.p 0 0 16), cells := g.cells.filter fun e => e.2 != some (c.p 0 0 16) }),
       (verbClassActionSet, .classActionSet, fun c => let a := actOf (c.p 2 0 128)
         a.bad = false ∧ (a.notExpress = true → g.expressNames (c.p 0 0 16) = false) ∧
         g' = { g with acts := g.acts.set (fun _ => {}) (c.p 0 0 16) a }),
       (verbClassExpressSet, .classExpressSet, fun c => (c.p 1 0 1 ≠ 0 → (g.act (c.p 4 0 16)).notExpress = false) ∧
         let e : ExpressEntry := ⟨c.p 2 0 6, c.p 4 0 16, c.inline 8 8, c.inline 16 8⟩
         g' = { g with
           express := g.express.set (fun _ => none) (256 * c.p 1 1 1 + c.p 0 0 8) (if c.p 1 0 1 = 0 then none else some e) }),
       (verbClassException, .classException, fun c =>
         let q := if c.p 1 0 1 = 1 then some (c.p 2 0 14) else none
         g' = { g with exc := g.exc.set (fun _ => none) (8 * c.p 0 7 1 + c.p 0 0 3) q }),
       (verbClassGenClear, .classGenClear, fun _ => g' = {})] →
       Serves v i .ok [.ctl, .mon, .pkt] (fun c _ d => d.ownGen c.slot = g ∧ d.genRefused c.slot = none ∧ f c) (fun _ _ _ => {})
         fun c d d' => d'.pkt = { d.pkt with staged := some (c.slot, g') })) ∧
   (∀ g, Serves verbClassEntryAdd .classEntryAdd .ok [.ctl, .mon, .pkt]
     (fun c _ d => let e := entryOf (c.p 0 0 448)
       d.ownGen c.slot = g ∧ d.genRefused c.slot = none ∧ (∃ p, g.profile e.profile = some p ∧ (e.key.drop p.keyLen).all (· == 0) = true) ∧
       g.table.length < 61440 ∧ ∀ x ∈ g.table, ¬(x.rx = e.rx ∧ x.profile = e.profile ∧ x.key = e.key) ∧ x.flow ≠ e.flow)
     (fun _ _ _ => {})
     fun c d d' => ∃ k t, d'.pkt = { d.pkt with
       staged := some (c.slot, { g with table := g.table ++ [entryOf (c.p 0 0 448)], hashKey := k, cells := t }) }) ∧
   (∀ g g', Serves verbClassBulk .classBulk .accepted [.ctl, .mon, .pkt]
     (fun c _ d => d.ownGen c.slot = g ∧ d.genRefused c.slot = none ∧ g'.table.length ≤ 61440 ∧
       bulkAll g (chunks 80 (c.extLen / 80) c.bytes) = .ok g') (fun _ _ _ => {})
     fun c d d' => ∃ k t, d'.pkt = { d.pkt with staged := some (c.slot, { g' with hashKey := k, cells := t }) })) ∧
  (Reads verbClassStatus .classStatus 56 (fun _ _ => True) (fun _ w =>
     [fieldAt 0 32 w.pkt.active.gen, at' 4 0 1 (b2n w.pkt.staged.isSome), at' 4 1 1 (b2n w.pkt.former.isSome),
      fieldAt 6 16 (sat 16 (w.pkt.active.table.filter fun e => !e.rx).length),
      fieldAt 8 16 (sat 16 (w.pkt.active.table.filter fun e => e.rx).length), fieldAt 10 32 w.formerInFlight] ++
     (List.range 5).map (fun k => fieldAt (16 + 4 * k) 32 (w.pkt.excs.get (fun _ => 0) (1 + k))) ++
     (List.range 5).map fun k => fieldAt (36 + 4 * k) 32 (w.pkt.excs.get (fun _ => 0) (9 + k))) ∧
   Reads verbClassFlowRead .classFlowRead 36 (fun c _ => c.ext = true → c.extLen = 48) (fun c w =>
     let a := w.pkt.active.act (c.p 0 0 16)
     let x := w.pkt.flows.get (fun _ => (0, 0)) (c.p 0 0 16)
     [fieldAt 0 14 a.queue, at' 1 6 2 a.dest, at' 2 0 2 a.crypt, at' 2 3 2 a.recirc, fieldAt 4 16 a.ctx, fieldAt 6 8 a.decapOff,
      fieldAt 7 8 a.decapLen, at' 8 0 2 a.stampMode, fieldAt 10 16 a.stampId, fieldAt 16 64 x.1, fieldAt 24 64 x.2]) ∧
   ReadsUnit verbClassPipeStatus .classPipeStatus 12 (fun _ _ => True)
     (fun w n => [fieldAt 0 64 (w.pkt.spread.get (fun _ => 0) n), fieldAt 8 32 (w.pkt.overrun.getD (n / 4) 0)]) ∧
   ReadsUnit verbQueueStatus .queueStatus 56 (fun _ _ => True) (fun w n => let x := w.queue n
     [fieldAt 0 48 x.occ, at' 6 0 1 (b2n x.hbmPart), fieldAt 8 64 x.enq, fieldAt 16 64 x.deq, fieldAt 24 64 x.deqBytes,
      fieldAt 32 32 x.dropLimit, fieldAt 36 32 x.dropNoSpace, fieldAt 40 32 x.dropBw, fieldAt 44 32 x.dropOther, fieldAt 48 32 x.waits]) ∧
   Stages verbQueueSet .queueSet
     (fun c _ => (c.p 4 4 1 = 1 → c.p 4 3 1 ≠ 1 ∧ c.p 4 1 2 ≠ 2) ∧ (c.p 4 1 2 = 1 → c.p 6 0 10 ≤ 15) ∧ (c.p 4 1 2 = 2 → c.p 6 0 10 = 0))
     (eachUnit fun c q => [fv .qEn q (c.p 4 0 1) 1, fv .qKind q (c.p 4 1 2) 2, fv .qBuf q (c.p 4 3 1) 1, fv .qExpress q (c.p 4 4 1) 1,
       fv .qPrio q (c.p 4 5 3) 3, fv .qWeight q (c.p 5 0 8) 8, fv .qDest q (c.p 6 0 10) 10, fv .qMax q (c.p 8 0 32) 32,
       fv .qOndie q (c.p 12 0 16) 13, fv .qHigh q (c.p 14 0 7) 7]))

/-! ### HBM and the on-die memories (R431 to R451) -/

/-- MEM_REGION, MEM_BUDGET, MEM_SCRUB_SET and MEM_REMAP stage; MEM_FILL asks for leave of 1.2 W and takes `FILLED` away; MEM_TEST_WRITE
stores a line or a word with the check bits given; MEM_ERR_READ and MEM_STATUS read (R432, R443, R444, R448 to R451). MEM_READ gives the
stored bytes and counts of errors; MEM_WRITE stores whole lines, merges into a line covered in part, and stops at one that is uncorrectable
(R437, R438, R451). -/
def Obligations.MemoryVerbsAndAccesses : Prop :=
  (Stages verbMemRegion .memRegion (fun c d => memRegionCheck c d = none)
     (fun c d => let r := c.p 0 0 5
       let s := c.p 4 0 15 / 16384
       ((⟨.hbm, s⟩ : Patch), [fv .rgEn r (c.p 0 5 1) 1, fv .rgFilled r (c.p 0 6 1) 1, fv .rgKind r (c.p 1 0 3) 3,
         fv .rgBase r (c.p 4 0 15) 15, fv .rgSize r (c.p 8 0 15) 15]) ::
       if d.conf .rgEn r = 1 ∧ d.conf .rgBase r / 16384 ≠ s then [(⟨.hbm, d.conf .rgBase r / 16384⟩, [])] else []) ∧
   Stages verbMemBudget .memBudget (fun _ _ => True) (fun c _ =>
     [(⟨.hbm, 0⟩, [fv .bwTx 0 (c.p 0 0 16) 16, fv .bwRx 0 (c.p 2 0 16) 16, fv .bwVerify 0 (c.p 4 0 16) 16,
       fv .bwCapture 0 (c.p 6 0 16) 16, fv .bwMaint 0 (c.p 8 0 16) 16]), (⟨.hbm, 1⟩, [])]) ∧
   Stages verbMemScrubSet .memScrubSet (fun c d => c.cls = .sram → ∀ i ∈ c.insts d, i ≤ 7)
     (eachUnit fun c i => let m := if c.cls = .hbm then i else 2 + i
       [fv .scrubPeriod m (c.p 4 0 16) 16, fv .scrubEn m (c.p 6 0 1) 1, fv .scrubAuto m (c.p 6 1 1) 1]) ∧
   Stages verbMemRemap .memRemap
     (fun c d => ∀ i ∈ c.insts d,
       if c.cls = .hbm then c.p 8 0 64 % 64 = 0 ∧ c.p 8 0 64 / 2 ^ 34 = i ∧ c.p 4 0 4 < 16 else c.p 8 0 64 < sramWords i ∧ c.p 4 0 4 < 8)
     (eachUnit fun c i => let k := 16 * (if c.cls = .hbm then i else 2 + i) + c.p 4 0 4
       [fv .remapSet k (if c.p 4 7 1 = 1 then 1 + 2 * (if c.cls = .hbm then c.p 8 0 64 / 64 else c.p 8 0 64) else 0) 64]) ∧
   Serves verbMemFill .memFill .accepted [.ctl, .mon, .power, .mem]
     (fun c _ d => d.conf .rgEn (c.p 0 0 5) = 1 ∧ d.runs (.hbm (d.conf .rgBase (c.p 0 0 5) / 16384)) = true ∧ d.mem.fill = none ∧
       1200 ≤ d.budget)
     (fun _ _ _ => {})
     (fun c d d' => let r := c.p 0 0 5
       d'.power.queue = d.power.queue ++ [⟨.fill, 1200, d.now⟩] ∧ r ∉ d'.mem.filled ∧
       d'.mem.fill = some ⟨r, c.p 8 0 64, d.conf .rgBase r, d.conf .rgBase r + d.conf .rgSize r, c.slot, (d.slot c.slot).serial, c.seq, none⟩) ∧
   (∀ i r, Serves verbMemTestWrite .memTestWrite .ok [.ctl, .mon, .mem]
     (fun c _ d => c.patch 16 = some r ∧ r.cls = .hbm ∧ r.inst = i ∧ c.p 20 0 64 % 64 = 0 ∧ c.extLen = 68 ∧ c.p 20 0 64 / 2 ^ 34 = i ∧
       (∃ g, d.regionAt (c.p 20 0 64) = some g ∧ d.conf .rgKind g = 0) ∧ d.runs (.hbm i) = true)
     (fun _ _ _ => {})
     (fun c d d' => d'.hbmLine (c.p 20 0 64 / 64) = some ⟨leNat (c.bytes.take 64), .given (leNat (slice c.bytes 64 4))⟩ ∧
       ∀ n, n ≠ c.p 20 0 64 / 64 → d'.hbmLine n = d.hbmLine n)) ∧
   (∀ i r, Serves verbMemTestWrite .memTestWrite .ok [.ctl, .mon, .mem]
     (fun c _ _ => c.patch 16 = some r ∧ r.cls = .sram ∧ r.inst = i ∧ i ≠ 1 ∧ c.p 20 0 64 ≤ 7 ∧ c.extLen = 9)
     (fun _ _ _ => {})
     (fun c d d' => d'.mem.words.get (fun _ => ⟨0, .own⟩) (8 * i + c.p 20 0 64) =
         ⟨leNat (c.bytes.take 8), .given (leNat (slice c.bytes 8 1))⟩ ∧
       ∀ n, d'.hbmLine n = d.hbmLine n)) ∧
   (∀ m, Reads verbMemErrRead .memErrRead 40
     (fun c w => c.cls = .hbm ∧ c.insts w = [m] ∧ m < 2 ∨ c.cls = .sram ∧ 2 ≤ m ∧ m ≤ 9 ∧ c.insts w = [m - 2])
     fun _ w => let x := w.memSt m
       [fieldAt 0 64 x.corrected, fieldAt 8 32 x.uncorr, fieldAt 12 64 (if m < 2 then 64 * x.lastAddr else x.lastAddr),
        at' 20 0 5 (x.remap.filter (·.2.isSome)).length, at' 21 0 1 (b2n (x.running || (decide (2 ≤ m) && w.conf .scrubEn m == 1))),
        fieldAt 24 32 x.passes, fieldAt 28 32
          (if x.running = true ∨ 2 ≤ m ∧ w.conf .scrubEn m = 1 then (w.now - x.passFrom) / 25000000 else 0), fieldAt 32 64 x.rmw]) ∧
   (∀ c s k e, Ready verbMemStatus c s k e → Completes (.memStatus c) s fun t => (∃ r : Res, Answers s t c.slot e .ok r ∧ r.len = 34 ∧
       ∀ b ∈ [fieldAt 8 16 (ceilDiv (s.view c.slot).protShare 1000), fieldAt 30 32 (s.view c.slot).mem.trapSeq] ++
         (List.range 32).flatMap fun g => [fieldAt 0 32 0, fieldAt 4 32 0].map fun x =>
           ⟨x.off + g, 1, b2n (if x.off = 0 then (s.view c.slot).rgOn g else (s.view c.slot).rgFilled g)⟩,
         bits r.v b.off b.w = b.v % 2 ^ b.w) ∧
     s.dev.changesOnly [.ctl, .mon, .free] t.dev)) ∧
  (Serves verbMemRead (fun c => .memRead c []) .ok [.ctl, .mon]
     (fun c _ d => let a := c.p 16 0 64
       let len := c.p 24 0 32
       a % 64 = 0 ∧ len % 64 = 0 ∧ len ≤ c.extLen ∧ d.refusesRange a len (fun k => k == 0 || decide (k ≥ 5)) = none ∧
       ∀ n, n < len / 64 → ∃ x, d.hbmLine (a / 64 + n) = some ⟨x, .own⟩)
     (fun _ _ _ => res 16 [])
     (fun c d d' => .hostWrite c.slot (scatter c.descs ((List.range (c.p 24 0 32 / 64)).flatMap fun n =>
       leBytes 64 (((d.hbmLine (c.p 16 0 64 / 64 + n)).map (·.data)).getD 0))) ∈ d'.out) ∧
   Serves verbMemWrite (fun c => .memWrite c []) .ok [.ctl, .mon, .mem]
     (fun c _ d => let a := c.p 16 0 64
       a % 64 = 0 ∧ c.bytes.length = c.extLen ∧ c.extLen % 64 = 0 ∧ c.extLen ≤ 16777216 ∧ d.refusesRange a c.extLen (· == 0) = none)
     (fun _ _ _ => {})
     (fun c d d' => let n0 := c.p 16 0 64 / 64
       (∀ n, n < c.extLen / 64 → d'.hbmLine (n0 + n) = some ⟨leNat (slice c.bytes (64 * n) 64), .own⟩) ∧
       ∀ n, (n < n0 ∨ n0 + c.extLen / 64 ≤ n) → d'.hbmLine n = d.hbmLine n) ∧
   (∀ x, Serves verbMemWrite (fun c => .memWrite c []) .ok [.ctl, .mon, .mem]
     (fun c _ d => let a := c.p 16 0 64
       c.bytes.length = c.extLen ∧ 0 < c.extLen ∧ c.extLen < 64 ∧ a % 64 + c.extLen ≤ 64 ∧ d.refusesRange a c.extLen (· == 0) = none ∧
       d.hbmLine (a / 64) = some ⟨x, .own⟩)
     (fun _ _ _ => {})
     (fun c d d' => let a := c.p 16 0 64
       d'.hbmLine (a / 64) = some ⟨leNat ((leBytes 64 x).take (a % 64) ++ c.bytes ++ (leBytes 64 x).drop (a % 64 + c.extLen)), .own⟩ ∧
       (d'.memSt (a / 2 ^ 34)).rmw = ((d.memSt (a / 2 ^ 34)).rmw + 1) % 2 ^ 64 ∧
       ∀ n, n ≠ a / 64 → d'.hbmLine n = d.hbmLine n)) ∧
   (∀ x, Serves verbMemWrite (fun c => .memWrite c []) .memUncorrectable [.ctl, .mon, .mem]
     (fun c _ d => let a := c.p 16 0 64
       c.bytes.length = c.extLen ∧ 0 < c.extLen ∧ c.extLen < 64 ∧ a % 64 + c.extLen ≤ 64 ∧ d.refusesRange a c.extLen (· == 0) = none ∧
       d.hbmLine (a / 64) = some ⟨x, .bad⟩)
     (fun _ _ _ => {})
     (fun c d d' => let m := c.p 16 0 64 / 2 ^ 34
       (∀ n, d'.hbmLine n = d.hbmLine n) ∧ (d'.memSt m).uncorr = ((d.memSt m).uncorr + 1) % 2 ^ 32 ∧
       (d'.memSt m).rmw = ((d.memSt m).rmw + 1) % 2 ^ 64)))

/-- FILL_BURST_END, SCRUB_BURST_START, SCRUB_BURST_END and REMAP_COPY_DONE (R441, R443, R451). -/
def Obligations.FillsScrubsAndRemapsGoOn : Prop :=
  (∀ f, Happens .fillBurstEnd [.now, .ctl, .mon, .power, .mem]
    (fun d => d.mem.fill = some f ∧ f.started.isSome = true ∧ f.pattern < 2 ^ 64)
    fun d d' =>
      let n := min 4 (f.last - f.next)
      d'.now = max d.now (d.burstEnd 2) ∧
      (∀ k, f.next * 16384 ≤ k → k < (f.next + n) * 16384 →
        ∃ x, d'.hbmLine k = some ⟨x, .own⟩ ∧ ∀ j < 8, bits x (64 * j) 64 = f.pattern) ∧
      (∀ k, (k < f.next * 16384 ∨ (f.next + n) * 16384 ≤ k) → d'.hbmLine k = d.hbmLine k) ∧
      (f.last ≤ f.next + n → d'.mem.fill = none ∧ f.region ∈ d'.mem.filled) ∧
      (f.next + n < f.last → 1200 ≤ d.budget → d'.mem.fill = some { f with next := f.next + n, started := none } ∧
        d'.power.queue = d.power.queue ++ [⟨.fill, 1200, d'.now⟩])) ∧
  (∀ m, Happens (.scrubBurstStart m) [.now, .ctl, .power, .mem]
    (fun d => m < 2 ∧ d.runs (.hbm m) = true ∧ d.conf .scrubEn m ≠ 0 ∧ (d.memSt m).waiting = false ∧ (d.memSt m).refused = false ∧
      d.visits m (d.memSt m).burst = true ∧ 300 ≤ d.budget)
    fun d d' => let x := d.memSt m
      d'.memSt m = { x with running := true, waiting := true } ∧ d'.power.queue = d.power.queue ++ [⟨.scrub m, 300, d'.now⟩] ∧
      d'.now = max d.now (x.passFrom + x.burst * (secCycles (60 * d.conf .scrubPeriod m) / 4096))) ∧
  (∀ m r, Happens (.scrubBurstEnd m []) [.now, .ctl, .mon, .power, .pkt, .mem]
    (fun d => m < 2 ∧ d.power.held.find? (·.op == .scrub m) = some r)
    fun d d' => let x := d.memSt m
      d'.now = max d.now (d.burstEnd m) ∧ (d'.memSt m).waiting = false ∧ (∀ h ∈ d'.power.held, h.op ≠ .scrub m) ∧
      if x.burst < 4095 then (d'.memSt m).burst = x.burst + 1 ∧ (d'.memSt m).passes = x.passes
      else (d'.memSt m).burst = 0 ∧ (d'.memSt m).passes = (x.passes + 1) % 2 ^ 32) ∧
  (∀ m, Happens (.scrubBurstEnd m []) [.now, .ctl, .mon, .pkt, .mem] (fun d => 2 ≤ m ∧ m ≤ 9 ∧ d.conf .scrubEn m ≠ 0)
    fun d d' => let x := d.memSt m
      d'.now = max d.now (x.passFrom + secCycles (60 * d.conf .scrubPeriod m)) ∧
      (d'.memSt m).passes = (x.passes + 1) % 2 ^ 32 ∧ (d'.memSt m).passFrom = d'.now ∧ ∀ n, d'.hbmLine n = d.hbmLine n) ∧
  (∀ m k e, Happens (.remapCopyDone m k) [.ctl, .mon, .mem]
    (fun d => (d.memSt m).remap.get (fun _ => none) k = some e ∧ e.done = false)
    fun d d' => (d'.memSt m).remap.get (fun _ => none) k = some { e with done := true } ∧ d.raised d' .memRemapped k)

/-! ### Crypto contexts, keys and the thimble (R57, R454 to R475) -/

/-- CRYPT_CONTEXT_SET, CRYPT_KEY_LOAD of up to 64 records, CRYPT_KEY_ERASE, CRYPT_UNQUARANTINE, CRYPT_ALARM_SET and SESSION_CRED_SET stage
(R57, R471 to R473). CRYPT_ALARM_CLEAR returns to `ARMED` unless an enabled source still holds, CRYPT_ZEROISE erases every key, a larger
CRYPT_KEY_LOAD asks for leave, CRYPT_STATUS and CRYPT_CONTEXT_READ read (R459, R469, R472 to R474). -/
def Obligations.CryptoVerbsStageActAndRead : Prop :=
  (Stages verbCryptContextSet .cryptContextSet
     (fun c d => let n := c.p 0 0 16
       (c.p 2 1 2 = 0 → c.p 2 3 1 = 0 ∧ c.p 4 0 64 = 0 ∧ 0x600 ≤ c.p 18 0 16) ∧ (c.p 2 1 2 ≠ 0 → c.p 3 0 6 = 0 ∧ c.p 18 0 16 = 0) ∧
       ((∃ an < 4, ((d.ctx n).slot an).state ≠ .empty) → c.p 2 0 1 = d.conf .cRole n ∧ c.p 2 1 2 = d.conf .cFormat n))
     (fun c _ => let n := c.p 0 0 16
       [(⟨.cipher, 0⟩, [fv .cRole n (c.p 2 0 1) 1, fv .cFormat n (c.p 2 1 2) 2, fv .cSc n (c.p 2 3 1) 1, fv .cValid n (c.p 2 4 1) 1,
         fv .cClear n (c.p 3 0 6) 6, fv .cSci n (c.p 4 0 64) 64, fv .cWarn n (c.p 12 0 6) 6, fv .cWindow n (c.p 13 0 6) 6,
         fv .cReplay n (c.p 13 6 1) 1, fv .cQ n (c.p 14 0 16) 16, fv .cHold n (c.p 16 0 16) 16, fv .cEtype n (c.p 18 0 16) 16])]) ∧
   (∀ vals, Stages verbCryptKeyLoad .cryptKeyLoad
     (fun c d => let l := (chunks 96 (c.bytes.length / 96) c.bytes).map KeyRec.read
       c.extLen % 96 = 0 ∧ c.extLen / 96 ≤ 64 ∧ d.crypt.alarm = false ∧ d.otp.hasRoot = true ∧ keyRecsOk l = true ∧
       (∀ r ∈ l.filterMap id, d.keyOut c.slot r = false) ∧ d.keyRecords c.slot (l.filterMap id) = .ok vals)
     (fun _ _ => [(⟨.cipher, 0⟩, vals)])) ∧
   Stages verbCryptKeyErase .cryptKeyErase (fun _ _ => True) (fun c d => let n := c.p 0 0 16
     [(⟨.cipher, 0⟩, [fv .keyErase n (c.p 2 0 4 ||| (d.stagedVal c.slot .keyErase n).getD 0) 4])]) ∧
   Stages verbCryptUnquarantine .cryptUnquarantine (fun c d => (d.ctx (c.p 0 0 16)).quarantined = true)
     (fun c _ => [(⟨.cipher, 0⟩, [fv .unquar (c.p 0 0 16) 1 1])]) ∧
   Stages verbCryptAlarmSet .cryptAlarmSet (fun _ _ => True)
     (fun c _ => [(⟨.cipher, 0⟩, [fv .alarmEn 0 (c.p 0 0 8) 8, fv .authThresh 0 (c.p 1 0 8) 8])]) ∧
   (∀ kek key, Stages verbSessionCredSet .sessionCredSet
     (fun c d => d.kek (c.p 1 0 4) = some kek ∧ kwUnwrap kek (c.inline 2 40) = some key)
     (fun c _ => [(⟨.device, 0⟩, [fv .credSet (c.p 0 0 8) 1 8, fv .credKey (c.p 0 0 8) (beNat key) 256])]))) ∧
  (Serves verbCryptAlarmClear .cryptAlarmClear .ok [.ctl, .mon, .crypt]
     (fun _ _ d => d.crypt.alarm = true ∧ ∀ n ∈ d.crypt.live, d.alarmEnabled n = false) (fun _ _ _ => {})
     (fun _ d d' => d'.crypt = { d.crypt with alarm := false, seen := [], keks := d.otp.hasRoot } ∧ d.raised d' .thimbleCleared 0) ∧
   Serves verbCryptAlarmClear .cryptAlarmClear .state [.ctl, .mon]
     (fun _ _ d => d.crypt.alarm = true ∧ ∃ n ∈ d.crypt.live, d.alarmEnabled n = true) (fun _ _ _ => {}) (fun _ _ _ => True) ∧
   Serves verbCryptZeroise .cryptZeroise .ok [.ctl, .mon, .cfg, .pkt, .crypt] (fun _ _ d => d.crypt.alarm = false) (fun _ _ _ => {})
     (fun _ d d' => d'.keyless ∧ d'.crypt.alarm = true ∧ 7 ∈ d'.crypt.seen ∧ d.raised d' .thimbleAlarm 7) ∧
   Serves verbCryptKeyLoad .cryptKeyLoad .accepted [.ctl, .mon, .power, .crypt]
     (fun c _ d => c.extLen % 96 = 0 ∧ 64 < c.extLen / 96 ∧ c.extLen / 96 ≤ 65536 ∧ 800 ≤ d.budget) (fun _ _ _ => {})
     (fun c d d' => let id := d.crypt.nextBulk
       d'.power.queue = d.power.queue ++ [⟨.rekey id, 800, d.now⟩] ∧
       d'.crypt = { d.crypt with
         nextBulk := id + 1, bulks := d.crypt.bulks ++ [⟨id, c.bytes, c.slot, (d.slot c.slot).serial, c.seq, none⟩] }) ∧
   Reads verbCryptStatus .cryptStatus 20 (fun _ _ => True) (fun _ w =>
     [at' 0 0 1 (b2n w.crypt.alarm), fieldAt 2 16 (sat 16 (w.crypt.ctxs.filter (·.2.quarantined)).length), fieldAt 4 64 w.crypt.overrun,
      fieldAt 12 64 w.crypt.vrDrops] ++ ((List.range 7).map fun n => at' 0 (n + 1) 1 (b2n (w.crypt.seen.contains (n + 1)))) ++
      (List.range 5).map fun n => at' 1 n 1 (b2n (w.runs (.cipher n)))) ∧
   Reads verbCryptContextRead .cryptContextRead 44 (fun _ _ => True) (fun c w =>
     let x := w.ctx (c.p 0 0 16)
     ((List.range 4).map fun an => at' 0 (2 * an) 2 (x.slot an).state.code) ++ [at' 1 0 1 (b2n x.quarantined), at' 1 1 1 (b2n x.lost),
      fieldAt 8 64 (w.nextPn (c.p 0 0 16)), fieldAt 16 32 x.tagFail, fieldAt 20 32 x.noKey, fieldAt 24 32 x.format, fieldAt 28 32 x.len,
      fieldAt 32 32 x.ceiling, fieldAt 36 32 x.replay, fieldAt 40 32 x.quar]))

/-- THIMBLE_ALARM erases every key where the source is enabled, and records the end of a condition; in secure mode an edge of the boundary
scan with `JTAG_TMS` high is such an alarm, of source 6, and the scan does not run; OLD_HOLD_EXPIRY retires the older slots;
KEY_LOAD_BULK_END stages the records or says why not (R461, R467 to R469, R472). -/
def Obligations.AlarmsEraseKeysAndSlotsRetire : Prop :=
  (∀ n edges, Happens (.thimbleAlarm n true edges) [.ctl, .mon, .cfg, .pkt, .crypt]
    (fun d => 1 ≤ n ∧ n ≤ 5 ∧ d.alarmEnabled n = true ∧ d.crypt.alarm = false)
    fun d d' => d'.keyless ∧ d'.crypt.alarm = true ∧ n ∈ d'.crypt.seen ∧ (n ≤ 4 → n ∈ d'.crypt.live) ∧ d.raised d' .thimbleAlarm n) ∧
  (∀ edges, Happens (.thimbleAlarm 6 true edges) [.ctl, .mon, .cfg, .boot, .pkt, .crypt]
    (fun d => (∃ tdi, (true, tdi) ∈ edges) ∧ d.otp.secure = true ∧ d.crypt.alarm = false)
    fun d d' => d'.keyless ∧ d'.crypt.alarm = true ∧ 6 ∈ d'.crypt.seen ∧ d'.boot = { d.boot with tap := {} } ∧
      (∀ b, .tdo b ∉ d'.out) ∧ d.raised d' .thimbleAlarm 6) ∧
  (∀ n edges, Happens (.thimbleAlarm n false edges) [.ctl, .crypt] (fun _ => 1 ≤ n ∧ n ≤ 5)
    fun d d' => d'.crypt = { d.crypt with live := d.crypt.live.filter (· != n) }) ∧
  (∀ on edges, Happens (.thimbleAlarm 6 on edges) [.ctl, .free, .boot, .crypt] (fun d => d.otp.secure = false)
    fun d d' => d'.crypt.alarm = d.crypt.alarm ∧ d'.crypt.ctxs = d.crypt.ctxs ∧ d'.crypt.keks = d.crypt.keks) ∧
  (∀ n t order r, Happens (.oldHoldExpiry n) [.now, .ctl, .crypt] (fun d => (d.ctx n).holds = (t, order) :: r)
    fun d d' => d'.now = max d.now t ∧ (d'.ctx n).holds = r ∧ ∀ an < 4,
      let x := (d.ctx n).slot an
      (d'.ctx n).slot an = if x.state = .loaded ∧ x.order < order then { x with state := .retired } else x) ∧
  (∀ b t, Happens .keyLoadBulkEnd [.now, .ctl, .mon, .power, .cfg, .crypt]
    (fun d => d.crypt.bulks.find? (·.started.isSome) = some b ∧ b.started = some t ∧ b.slot < 8)
    fun d d' =>
      let live := (d.slot b.slot).serial = b.serial ∧ (d.slot b.slot).state = .opened
      let st := if live then (d.loadKeys b.slot b.bytes).1 else .sessionClosed
      d'.now = max d.now (t + ceilDiv (25 * (b.bytes.length / 96)) 2) ∧
      d'.crypt.bulks = d.crypt.bulks.filter (·.id != b.id) ∧ (∀ h ∈ d'.power.held, h.op ≠ .rekey b.id) ∧
      d'.cfg = (if live then (d.loadKeys b.slot b.bytes).2.cfg else d.cfg) ∧
      ((d.slot b.slot).serial = b.serial → (d'.slot b.slot).ops = (d.slot b.slot).ops.map fun o =>
        if o.seq = b.seq ∧ o.status = .accepted then { o with status := st } else o))

/-! ### Leave, wakes and thermal states (R477 to R489) -/

/-- POWER_SET stages the targets that differ from the units' states, POWER_BUDGET its limits; POWER_STATUS reads (R480, R481, R488). -/
def Obligations.PowerVerbsStageAndRead : Prop :=
  Stages verbPowerSet .powerSet
    (fun c d => ∀ i ∈ c.insts d, (c.cls = .sram → i = 2) ∧
      ∀ u ∈ Patch.units ⟨c.cls, i⟩ (c.p 4 2 2), d.refusesTarget u (c.p 4 0 2) = none)
    (fun c d => ((c.insts d).map fun i => ((⟨c.cls, i⟩ : Patch),
      ((Patch.units ⟨c.cls, i⟩ (c.p 4 2 2)).filter fun u => d.presentTarget u != c.p 4 0 2).map
        fun u => fv .wakeTarget u.index (c.p 4 0 2) 8)).filter fun x => !x.2.isEmpty) ∧
  Stages verbPowerBudget .powerBudget (fun c d => c.p 0 0 32 ≤ d.otp.ceiling ∧ c.p 4 0 32 ≤ d.otp.ceiling)
    (fun c _ => [(⟨.power, 0⟩, [fv .budget 0 (c.p 0 0 32), fv .steady 0 (c.p 4 0 32), fv .stepLimit 0 (c.p 8 0 8) 8,
      fv .tjMargin 0 (c.p 9 0 8) 8])]) ∧
  Reads verbPowerStatus .powerStatus 44 (fun _ _ => True) (fun _ w =>
    [at' 0 0 2 w.powerState.code, at' 0 2 3 w.power.thermal.code, fieldAt 1 8 (sat 8 w.power.queue.length),
     fieldAt 2 16 (unsigned 16 w.power.tj), fieldAt 4 32 w.estimate, fieldAt 8 32 (w.power.held.map (·.mw)).sum, fieldAt 20 32 w.budget,
     fieldAt 24 32 w.steady, fieldAt 28 32 w.otp.ceiling, fieldAt 32 16 w.power.vtile, fieldAt 36 32 w.power.grants,
     fieldAt 40 32 w.power.refusals])

/-- LEAVE_GRANT grants the head request that fits within the budget; RAMP_START starts the next granted wake when its ramp fits; WAKE_END
ends a started wake: the unit runs, or it stays asleep and its commit is told (R482 to R485). -/
def Obligations.LeaveIsGrantedAndWakesEnd : Prop :=
  (∀ r, Happens .leaveGrant [.ctl, .power, .otp, .mon, .conv, .mem, .crypt]
    (fun d => d.boot.pfail = none ∧ d.headReq = some r ∧ (d.power.held.map (·.mw)).sum + r.mw ≤ d.budget)
    fun d d' =>
      d'.power.queue = d.power.queue.erase r ∧ d'.power.held = d.power.held ++ [{ r with since := d.now }] ∧
      d'.power.grants = (d.power.grants + 1) % 2 ^ 32 ∧
      match r.op with
      | .wake u => (d'.unit u).phase = .granted ∨ (d'.unit u).phase = .starting
      | .fill => d'.mem.fill = d.mem.fill.map fun f => { f with started := some d.now }
      | .otp => d'.otp.prog = d.otp.prog.map fun p => { p with started := some d.now }
      | .calibration => ∀ x, d.conv.run = some x → ∃ y, d'.conv.run = some y ∧ y.started = some d.now
      | .rekey id => ∀ b ∈ d'.crypt.bulks, b.id = id → b.started = some d.now
      | .scrub _ => True) ∧
  (∀ u, Happens .rampStart [.now, .ctl, .power] (fun d => d.nextRamp = some u)
    fun d d' => d'.now = max d.now (d.rampFit (d.slope u)) ∧
      d'.unit u = { d.unit u with phase := .starting, since := d'.now } ∧ ∃ x ∈ d'.power.ramps, x.slope = d.slope u ∧ d'.now ≤ x.start) ∧
  (∀ u n, Happens (.wakeEnd u .running) [.now, .ctl, .cfg, .quilt, .power, .mon]
    (fun d => (u = .pipe n ∨ u = .cipher n) ∧ (d.unit u).phase = .starting)
    fun d d' => d'.now = max d.now ((d.unit u).since + u.holdFor d.power.coreFull) ∧ d'.runs u = true ∧ (d'.unit u).since = d'.now ∧
      (∀ h ∈ d'.power.held, h.op ≠ .wake u) ∧ d.raised d' .wakeDone 0) ∧
  (∀ u, Happens (.wakeEnd u .failed) [.now, .ctl, .cfg, .quilt, .power, .mon]
    (fun d => (d.unit u).phase = .starting ∧ (u = .core → d.calInitial = false))
    fun d d' => d'.now = max d.now ((d.unit u).since + u.holdFor d.power.coreFull) ∧ d'.asleep u = true ∧
      (∀ h ∈ d'.power.held, h.op ≠ .wake u) ∧ d.raised d' .wakeFailed Status.hardwareFault.code)

/-- THERMAL_READING (R487, R506) takes the highest of eight sensors and goes through the thermal table; THERMAL_SHUTDOWN stops every unit.
-/
def Obligations.ThermalStatesFollowTheSensors : Prop :=
  (∀ t0 r, Happens (.thermalReading (t0 :: r)) [.free, .ctl, .power, .mon, .conv, .ref]
    (fun d => d.fwRuns = true ∧ r.length = 7)
    fun d d' =>
      let tj := (r.foldl max t0) / 10
      let m : Int := 10 * d.conf .tjMargin
      d'.power.tj = tj ∧ d'.power.sensors = t0 :: r ∧
      match d.power.thermal with
      | .normal => (d.tMin + m < tj ∧ tj < d.tMax - m → d'.power.thermal = .normal) ∧
          (d.tMax - m ≤ tj ∧ tj < d.tMax → d'.power.thermal = .warn ∧ d.raised d' .tjWarn (unsigned 16 tj)) ∧
          (d.tMax - m ≤ tj ∧ d.tMax ≤ tj → d'.power.thermal = .hot ∧ d.raised d' .tjWarn (unsigned 16 tj))
      | .warn => (d.tMax ≤ tj → d'.power.thermal = .hot ∧ d.raised d' .tjHot (unsigned 16 tj)) ∧
          (tj < d.tMax → (d.tMax - m - 20 ≤ tj ∨ tj ≤ d.tMin + m + 20) → d'.power.thermal = .warn) ∧
          (tj < d.tMax → tj < d.tMax - m - 20 → d.tMin + m + 20 < tj → d'.power.thermal = .normal ∧ d.raised d' .tjNormal (unsigned 16 tj))
      | .hot => (d.tMax - 20 ≤ tj → d'.power.thermal = .hot) ∧
          (tj < d.tMax - 20 → d.tMax - m - 20 ≤ tj → d'.power.thermal = .warn)
      | .shutdown => (d.tMax - 50 ≤ tj → d'.power.thermal = .shutdown) ∧
          (tj < d.tMax - 50 → d.tMax - m - 20 ≤ tj → d'.power.thermal = .warn)) ∧
  (∀ t, Happens .thermalShutdown
    [.now, .free, .ctl, .cfg, .quilt, .power, .mon, .time, .conv, .line, .scs, .conts, .ohd, .lane, .pkt, .mem, .crypt]
    (fun d => d.power.thermal = .hot ∧ d.power.overSince = some t)
    fun d d' => d'.now = max d.now (t + 25000) ∧ d'.power.thermal = .shutdown ∧ (∀ u ∈ PowerUnit.all, d'.runs u = false) ∧
      d.raised d' .tjShutdown (unsigned 16 d.power.tj))

/-- VTILE_SETPOINT_CHANGE (R486): the setpoint that the device requests changes only to a value between 670 and 730 mV in steps of 5 mV;
each change raises `EV_VTILE_REQUEST` with the value in mV as `INFO`; any other value leaves all as it was. POWER_STATUS reports the
setpoint as `VTILE_REQ_MV`. -/
def Obligations.VtileSetpointIsRequestedAndReported : Prop :=
  (∀ mv, Happens (.vtileSetpointChange mv) [.ctl, .mon, .power]
    (fun d => 670 ≤ mv ∧ mv ≤ 730 ∧ mv % 5 = 0 ∧ mv ≠ d.power.vtile ∧ d.fwRuns = true)
    fun d d' => d'.power = { d.power with vtile := mv } ∧ d.raised d' .vtileRequest mv) ∧
  (∀ mv, Happens (.vtileSetpointChange mv) [.ctl] (fun d => ¬(670 ≤ mv ∧ mv ≤ 730 ∧ mv % 5 = 0) ∨ mv = d.power.vtile)
    fun d d' => d'.ctl.evt = d.ctl.evt) ∧
  Reads verbPowerStatus .powerStatus 44 (fun _ _ => True) (fun _ w => [fieldAt 32 16 w.power.vtile])

/-! ### Counters, dumps, housekeeping and capture (R491 to R516) -/

/-- MON_SELECT (R501): a privileged command of 8 parameter bytes that names a monitored patch (R491) or a group of that class, counters of
it and a selection code; its reserved bits are zero. A patch that is not monitored, named or a group's member, gives `BAD_PARAMETER`, a code
above 8 `OUT_OF_RANGE`, and nothing is staged; else every counter that the mask names is staged to take the code, in each unit. -/
def Obligations.MonSelectStagesCounterCodes : Prop :=
  let monitored : Call → Prop := fun c => (c.patch 0).any (fun r =>
    if r.group then [.device, .line, .subcarrier, .pipeline, .cipher, .hbm, .port, .stitchLane].contains r.cls
    else (MonUnit.ofPatch ⟨r.cls, r.inst⟩).isSome) = true
  let clear : Call → Prop := fun c => c.p 5 4 4 = 0 ∧ c.p 6 0 16 = 0
  (verbMonSelect.code = 0x4001 ∧ verbMonSelect.role = .privileged ∧ verbMonSelect.len = 8 ∧ verbMonSelect.groups = true) ∧
  (∀ c d, verbMonSelect.fits c d → verbMonSelect.remotes c d = [] →
    (verbMonSelect.check c d = none ↔ monitored c ∧ clear c ∧ 1 ≤ c.p 4 0 8 ∧ c.p 5 0 4 ≤ 8)) ∧
  Refuses verbMonSelect .monSelect .badParameter (fun c d => verbMonSelect.fits c d ∧ ¬monitored c) ∧
  Refuses verbMonSelect .monSelect .outOfRange (fun c d => verbMonSelect.fits c d ∧ monitored c ∧ clear c ∧ 8 < c.p 5 0 4) ∧
  Serves verbMonSelect .monSelect .badParameter [.ctl, .mon]
    (fun c _ d => ∃ i ∈ c.insts d, (MonUnit.ofPatch ⟨c.cls, i⟩).isSome = false) (fun _ _ _ => {}) (fun _ d d' => d'.cfg = d.cfg) ∧
  Stages verbMonSelect .monSelect (fun c d => ∀ i ∈ c.insts d, (MonUnit.ofPatch ⟨c.cls, i⟩).isSome = true)
    (eachUnit fun c i => match MonUnit.ofPatch ⟨c.cls, i⟩ with
      | some u => (maskBits 8 (c.p 4 0 8)).map fun j => fv .monSel (8 * u.index + j) (c.p 5 0 4) 4
      | none => [])

/-- MON_DUMP_SET, HK_SEQ_SET and CAPT_COEF stage (R502, R508, R512). MON_READ writes the record of a patch to host memory; MON_STATUS,
HK_READ and CAPT_STATUS read; HK_READ makes `MIN` and `MAX` restart (R494, R498, R503, R509, R516). -/
def Obligations.MonitoringVerbsStageAndRead : Prop :=
  (Stages verbMonDumpSet .monDumpSet
     (fun c _ => if c.p 2 0 2 = 1 then 2 ≤ c.p 4 0 32 ∧ c.p 4 0 32 ≤ 65536 ∧ c.p 8 0 64 % 4096 = 0 else c.p 4 0 32 = 0 ∧ c.p 8 0 64 = 0)
     (fun c _ => [(⟨.device, 0⟩, [fv .dumpPeriod 0 (c.p 0 0 16) 16, fv .dumpDest 0 (c.p 2 0 2) 2, fv .dumpAlign 0 (c.p 2 2 1) 1,
       fv .dumpSlots 0 (c.p 4 0 32), fv .dumpAddr 0 (c.p 8 0 64) 64])]) ∧
   Stages verbHkSeqSet .hkSeqSet
     (fun c _ => ∀ v ∈ hkEntries c, (bits v 10 2 = 2 → 10 ≤ bits v 48 16 ∧ bits v 48 16 ≤ 10000) ∧ (bits v 10 2 ≠ 2 → bits v 48 16 = 0) ∧
       (bits v 96 1 = 1 → signed 16 (bits v 64 16) ≤ signed 16 (bits v 80 16)))
     (fun c _ => [(⟨.housekeeping, 0⟩, fv .hkCount 0 (c.p 16 0 8) 8 :: (hkEntries c).mapIdx fun i v => fv .hkEntry i v 128)]) ∧
   Stages verbCaptCoef .captCoef
     (fun _ d => d.mon.capt = none)
     (fun c _ => [(⟨.capture, 0⟩, fv .captHost 0 (b2n c.ext) 1 :: (captCoefs c).mapIdx fun i v => fv .captCoef i (v % 2 ^ 18) 32)])) ∧
  ((∀ u i, Serves verbMonRead .monRead .ok [.ctl, .mon]
     (fun c v _ => (∃ r, c.patch 16 = some r ∧ r.group = false) ∧ c.insts v 16 = [i] ∧ MonUnit.ofPatch ⟨c.cls 16, i⟩ = some u)
     (fun _ _ _ => {})
     (fun c _ d' => ∃ b, .hostWrite c.slot (scatter c.descs b) ∈ d'.out ∧ b.length = 80 ∧ leNat (b.take 4) = c.p 16 0 32)) ∧
   (∀ u i c s k e, Ready verbMonRead c s k e →
     let call := verbMonRead.callOf c s e
     let w := s.view c.slot
     (∃ r, call.patch 16 = some r ∧ r.group = false) → call.insts w 16 = [i] → MonUnit.ofPatch ⟨call.cls 16, i⟩ = some u →
     Completes (.monRead c) s fun t => ∃ b, .hostWrite c.slot (scatter call.descs b) ∈ t.dev.out ∧
       bits (leNat b) 128 64 = w.cycles u % 2 ^ 64 ∧
       ∀ j < 8, bits (leNat b) (8 * (24 + 6 * j)) 48 = w.mon.counts.get (fun _ => 0) (9 * u.index + j) % 2 ^ 48) ∧
   Reads verbMonStatus .monStatus 24 (fun _ _ => True) (fun _ w =>
     [fieldAt 0 32 w.mon.dumpSeq, fieldAt 4 32 w.mon.dumpsLost, fieldAt 8 64 w.mon.produced, fieldAt 16 16 (w.conf .dumpPeriod),
      at' 18 0 2 (w.conf .dumpDest), fieldAt 20 32 (ceilDiv (w.dumpAt - w.now) 25000)]) ∧
   (∀ x, Serves verbHkRead .hkRead .ok [.ctl, .mon]
     (fun c v _ => c.p 0 0 8 < v.conf .hkCount ∧ v.mon.hk.get (fun _ => {}) (c.p 0 0 8) = x)
     (fun _ v _ => res 17 [fieldAt 0 16 (unsigned 16 x.value), fieldAt 2 16 x.code, fieldAt 4 16 (unsigned 16 x.min),
       fieldAt 6 16 (unsigned 16 x.max), fieldAt 8 32 x.results,
       fieldAt 12 32 (if x.valid then sat 32 ((v.now - x.at') / 25) else 0), at' 16 0 1 (b2n x.valid), at' 16 1 1 (b2n x.alarm)])
     (fun c d d' => d'.mon.hk.get (fun _ => {}) (c.p 0 0 8) = { d.mon.hk.get (fun _ => {}) (c.p 0 0 8) with fresh := true })) ∧
   Reads verbCaptStatus .captStatus 16 (fun _ _ => True) (fun _ w =>
     [at' 0 2 3 w.mon.captEnd, fieldAt 12 32 w.mon.captRate] ++ match w.mon.capt with
       | none => [at' 0 0 2 0, fieldAt 4 32 w.mon.captSets, fieldAt 8 32 w.mon.captWraps]
       | some r => if r.started then [at' 0 0 2 2] else [at' 0 0 2 1, fieldAt 4 32 0, fieldAt 8 32 0]))

/-- DUMP_BOUNDARY with no destination in force writes nothing; into a host ring with room it writes the dump and the count of those
produced, and counts it, else it is lost (R496, R499); HK_RESULT delivers what the filter gives of the conversions and goes on after `REPEAT`
results, and none before the filter has settled (R505; how a filter rounds and the scale of an input are the model's choice, assumption 213).
CAPT_START schedules a run at a device frame boundary; CAPTURE_RUN_START begins it; CAPT_STOP has it end at the next boundary; CAPTURE_END
ends it with its reason (R513 to R516). -/
def Obligations.DumpsResultsAndCaptureRuns : Prop :=
  ((∀ k, Happens (.dumpBoundary k) [.now, .ctl, .mon, .mem]
     (fun d => d.mon.frozen = false ∧ d.conf .dumpDest = 0)
     fun d d' => d'.now = max d.now d.dumpAt ∧ d'.mon.last = d'.now ∧ d'.mon.early = none ∧ d'.mon.wraps = [] ∧ d'.mon.pend = [] ∧
       d'.mon.dest = 0 ∧ d'.mon.dumpSeq = d.mon.dumpSeq ∧ (∀ b a, .dma a b ∉ d'.out) ∧
       ∀ p ∈ d.mon.pend, d'.mon.codes.get (fun _ => 0) p = d.conf .monSel p) ∧
   (∀ k, Happens (.dumpBoundary (some k)) [.now, .ctl, .mon]
     (fun d => let m := d.mon
       m.frozen = false ∧ m.dest = 1 ∧ d.conf .dumpDest = 1 ∧ d.conf .dumpAddr = m.destAddr ∧ d.conf .dumpSlots = m.destSlots ∧
       (d.ctl.pcie = .l0 ∨ d.ctl.pcie = .l1))
     fun d d' => let m := d.mon
       d'.mon.dumpSeq = (m.dumpSeq + 1) % 2 ^ 32 ∧
       if (m.produced + 2 ^ 64 - k % 2 ^ 64) % 2 ^ 64 = m.destSlots then
         d'.mon.dumpsLost = (m.dumpsLost + 1) % 2 ^ 32 ∧ d'.mon.losing = true ∧ d'.mon.produced = m.produced
       else d'.mon.produced = (m.produced + 1) % 2 ^ 64 ∧ d'.mon.losing = false ∧
         .dma m.destAddr (leBytes 8 (m.produced + 1)) ∈ d'.out ∧
         ∃ b, b.length = 5376 ∧ leNat (b.take 4) = m.dumpSeq % 2 ^ 32 ∧
           .dma (m.destAddr + 64 + 5376 * (m.produced % m.destSlots)) b ∈ d'.out) ∧
   (∀ codes, Happens (.hkResult codes) [.ctl]
     (fun d => (d.mon.hkHist ++ codes).length < hkSpan (d.conf .hkEntry d.mon.hkEntry)) fun _ _ => True) ∧
   (∀ codes, Happens (.hkResult codes) [.now, .ctl, .mon]
     (fun d => d.conf .hkCount ≠ 0 ∧ hkSpan (d.conf .hkEntry d.mon.hkEntry) ≤ (d.mon.hkHist ++ codes).length)
     fun d d' =>
       let e := d.mon.hkEntry
       let entry := d.conf .hkEntry e
       let x := d.mon.hk.get (fun _ => {}) e
       let y := d'.mon.hk.get (fun _ => {}) e
       let l := d.mon.hkHist ++ codes
       let code := hkCode entry (l.drop (l.length - hkSpan entry))
       let v := signed 16 (unsigned 16 (d.hkValue (bits entry 0 5) code))
       (bits entry 8 2 = 0 → ∀ a b, codes = a ++ [b] → code = 16 * b) ∧
       d'.now = max d.now d.hkDue ∧ y.value = v ∧ y.code = code % 65536 ∧ y.results = (x.results + 1) % 2 ^ 32 ∧ y.valid = true ∧
       y.at' = d'.now ∧ y.min = (if x.fresh then v else min x.min v) ∧ y.max = (if x.fresh then v else max x.max v) ∧
       if bits (d.conf .hkEntry e) 16 16 ≤ d.mon.hkDone + 1
       then d'.mon.hkDone = 0 ∧ d'.mon.hkEntry = (e + 1) % d.conf .hkCount ∧ d'.mon.hkFrom = d'.now
       else d'.mon.hkDone = d.mon.hkDone + 1 ∧ d'.mon.hkEntry = e)) ∧
  (Serves verbCaptStart .captStart .accepted [.ctl, .mon] (fun c _ d => captStartCheck c d = none) (fun _ _ _ => {})
     (fun c d d' => ∃ r, d'.mon.capt = some r ∧ r.tap = c.p 0 0 2 ∧ r.quarter = c.p 0 2 2 ∧ r.stages = c.p 0 4 4 ∧ r.sets = c.p 4 0 32 ∧
       (r.ring = true ↔ c.p 1 0 1 = 1) ∧ r.started = false ∧ r.stopAt = none ∧ (c.p 1 1 1 = 1 → ∃ t, r.startAt = d.gridUp t) ∧
       (c.p 1 1 1 = 0 → r.startAt = d.gridAfter d.now 1) ∧ r.slot = c.slot ∧ r.seq = c.seq) ∧
   (∀ r, Serves verbCaptStop .captStop .ok [.ctl, .mon] (fun _ _ d => d.mon.capt = some r) (fun _ _ _ => {})
     (fun _ d d' => d'.mon.capt = some { r with stopAt := some (r.stopAt.getD (d.gridAfter d.now 1)) })) ∧
   Serves verbCaptStop .captStop .state [.ctl, .mon] (fun _ _ d => d.mon.capt = none) (fun _ _ _ => {}) (fun _ _ d' => d'.mon.capt = none) ∧
   (∀ r taps, Happens (.captureRunStart taps) [.now, .ctl, .mon] (fun d => d.mon.capt = some r ∧ r.started = false)
     fun d d' => d'.now = max d.now r.startAt ∧ d'.mon.capt = some { r with
       started := true, startAt := d'.now, time := d'.time16, startTc := (d.tcTotal d'.now).toNat, taps := taps }) ∧
   (∀ r t, Happens .captureEnd [.now, .free, .ctl, .mon, .mem] (fun d => d.mon.capt = some r ∧ r.started = true ∧ r.ring = true ∧
       r.stopAt = some t)
     fun d d' => d'.now = max d.now t ∧ d'.mon.capt = none ∧ d'.mon.captEnd = 3 ∧
       d'.mon.captSets = ({ d with now := d'.now } : Dev).setsAt r % 2 ^ 32 ∧ d.raised d' .captDone 3) ∧
   (∀ r, Happens .captureEnd [.now, .free, .ctl, .mon, .mem] (fun d => d.mon.capt = some r ∧ r.started = true ∧ r.ring = false ∧
       r.stopAt = none)
     fun d d' => let g := d.captGoal r
       d'.now = max d.now (d.tcReach (r.startTc + ceilDiv (g.1 * 2 ^ r.stages * 10 ^ 17) r.rate)) ∧ d'.mon.capt = none ∧ d'.mon.captEnd = g.2 ∧
       d'.mon.captSets = g.1 % 2 ^ 32 ∧ d.raised d' .captDone g.2))

/-! ### Start-up, firmware, OTP, resets and the power-fail warning (R519 to R536) -/

/-- POR_RELEASE starts the boot from the counter value 0, and POR_ASSERT ends everything but what OTP holds (R520, R522, R534). FW_LOAD
takes the chunks of an image in order; the last one waits for the check; IMAGE_CHECK_END starts firmware with an image that passes, and
discards another, answering the chunk that ended it; FW_INFO reads (R523, R524, R531). -/
def Obligations.PowerOnAndFirmwareStart : Prop :=
  ((∀ s ok, s.dev.boot.held = true → Completes (.porRelease ok) s fun t =>
     t.dev.boot.held = false ∧ t.dev.now = 0 ∧ t.dev.boot.stage = (if s.dev.otp.identityOk && ok then 0 else 3) ∧
     t.dev.otp.bytes = s.dev.otp.bytes ∧ t.dev.ctl.pcie = (if s.dev.otp.identityOk && ok then .training else .down) ∧
     (∀ r, 1 ≤ r → r < 7 → t.dev.otp.force r = s.dev.otp.choose r) ∧
     t.dev.otp.force 0 = (if s.dev.otp.identityOk then some 0 else none) ∧
     (s.dev.otp.identityOk = true → t.dev.crypt.keks = t.dev.otp.hasRoot) ∧ t.pins = [] ∧ t.pending = s.pending) ∧
   (∀ s, s.dev.boot.held = false → s.dev.otp.prog = none → Completes .porAssert s fun t =>
     t.dev.boot.held = true ∧ t.dev.boot.stage = 0 ∧ t.dev.now = 0 ∧ t.dev.otp.bytes = s.dev.otp.bytes ∧
     t.dev.otp.unclear = s.dev.otp.unclear ∧ (∀ n, t.dev.slot n = {}) ∧ (∀ f i, t.dev.conf f i = f.reset i) ∧
     (∀ u, t.dev.runs u = false) ∧ t.dev.mem = {} ∧ t.dev.crypt = {} ∧ t.dev.time = {} ∧ t.pins = [] ∧ t.pending = s.pending)) ∧
  (Serves verbFwLoad .fwLoad .ok [.ctl, .mon, .boot]
     (fun c _ d => let len := Item.field c.item 6 0 16
       d.boot.stage = 0 ∧ c.p 4 0 1 = 0 ∧ (if c.ext then len = 8 else len ≠ 8) ∧ c.p 0 0 32 = d.boot.image.length ∧
       d.boot.image.length + (if c.ext then c.bytes.length else len - 8) ≤ 3145728)
     (fun _ _ _ => {})
     (fun c d d' => d'.boot = { d.boot with
       image := d.boot.image ++ (if c.ext then c.bytes else c.inline 8 (Item.field c.item 6 0 16 - 8)) }) ∧
   Waits verbFwLoad .fwLoad [.ctl, .mon, .boot]
     (fun c d => let len := Item.field c.item 6 0 16
       d.boot.stage = 0 ∧ c.p 4 0 1 = 1 ∧ (c.ext = true → len = 8) ∧ c.p 0 0 32 = d.boot.image.length ∧
       d.boot.image.length + (if c.ext then c.bytes.length else len - 8) ≤ 3145728)
     (fun _ _ => .fwCheck)
     (fun c d d' => d'.boot = { d.boot with
       stage := 1, image := d.boot.image ++ (if c.ext then c.bytes else c.inline 8 (Item.field c.item 6 0 16 - 8)) }) ∧
   Happens .imageCheckEnd [.free, .ctl, .boot, .mon, .time, .ref] (fun d => d.boot.stage = 1 ∧ fwCheck d.otp d.boot.image = none)
     (fun d d' => d'.boot.stage = 2 ∧ (d'.slot 0).state = .free ∧ d'.boot.fwVersion = leNat (slice d.boot.image 4 4) ∧
       d'.boot.startCount = d.now ∧ d'.boot.image = d.boot.image ∧ d.raised d' .boot d.boot.cause.code) ∧
   (∀ st item, Happens .imageCheckEnd [.ctl, .boot, .mon]
     (fun d => d.boot.stage = 1 ∧ fwCheck d.otp d.boot.image = some st ∧ (d.slot 0).taken = some ⟨item, .fwCheck⟩)
     fun d d' => d'.boot.stage = 0 ∧ d'.boot.image = [] ∧ (d'.slot 0).taken = none ∧ ∃ x more,
       (d'.slot 0).rsp.unread = (d.slot 0).rsp.unread ++ x :: more ∧ x.bits = responseItem 0 item st {}) ∧
   Reads verbFwInfo .fwInfo 37 (fun _ _ => True) (fun _ w =>
     [fieldAt 0 32 w.boot.fwVersion, fieldAt 4 256 (leNat (sha256 w.boot.image)), fieldAt 36 8 w.boot.hashEntry]))

/-- OTP_PROGRAM of a region that a host may write asks for leave of 250 mW; region 0, and in secure mode 1 and 3, are `DENIED`;
OTP_PROGRAM_END leaves the generation whole; OTP_STATUS and OTP_READ read, the root key never (R527 to R531). -/
def Obligations.OtpIsProgrammedAndRead : Prop :=
  (∀ g, Serves verbOtpProgram .otpProgram .accepted [.ctl, .mon, .power, .otp]
    (fun c _ d => let r := c.p 16 0 8
      let mw := leNat (c.bytes.take 4)
      r ≠ 0 ∧ (d.otp.secure = true → r ≠ 1 ∧ r ≠ 3) ∧ c.extLen = (otpRegion r).payload ∧ (r = 5 → 1000 ≤ mw ∧ mw ≤ 120000) ∧
      d.otp.prog = none ∧ d.otp.nextBlank r = some g ∧ 250 ≤ d.budget)
    (fun _ _ _ => {})
    (fun c d d' => d'.power.queue = d.power.queue ++ [⟨.otp, 250, d.now⟩] ∧
      d'.otp = { d.otp with prog := some ⟨c.p 16 0 8, g, c.bytes, c.slot, (d.slot c.slot).serial, c.seq, none, false⟩ })) ∧
  Serves verbOtpProgram .otpProgram .denied [.ctl, .mon]
    (fun c _ d => (c.p 16 0 8 = 0 ∨ d.otp.secure = true ∧ (c.p 16 0 8 = 1 ∨ c.p 16 0 8 = 3)) ∧
      c.extLen = (otpRegion (c.p 16 0 8)).payload) (fun _ _ _ => {})
    (fun _ d d' => d'.otp = d.otp) ∧
  (∀ p t, Happens (.otpProgramEnd .done) [.now, .ctl, .power, .otp, .mon]
    (fun d => d.otp.prog = some p ∧ p.started = some t ∧ p.stopped = false ∧ p.payload.length = (otpRegion p.region).payload)
    fun d d' => d'.now = max d.now (t + 8 * (p.payload.length + 8) * 13750) ∧ d'.otp.prog = none ∧
      d'.otp.payload p.region p.gen = p.payload ∧ d'.otp.inForce = d.otp.inForce ∧ (∀ h ∈ d'.power.held, h.op ≠ .otp) ∧
      d.raised d' .otpProgrammed (p.region + 16 * p.gen)) ∧
  (∀ p t, Happens (.otpProgramEnd .noVpp) [.ctl, .power, .otp, .mon]
    (fun d => d.otp.prog = some p ∧ p.started = some t ∧ p.stopped = false)
    fun d d' => d'.otp = { d.otp with prog := none } ∧ (∀ h ∈ d'.power.held, h.op ≠ .otp) ∧
      d.raised d' .opFailed p.seq) ∧
  Reads verbOtpStatus .otpStatus 24 (fun _ _ => True) (fun _ w => (List.range 6).flatMap fun i =>
    [at' (4 * i) 0 2 ((w.otp.force (i + 1)).getD 3), at' (4 * i) 7 1 (b2n (w.otp.force (i + 1)).isNone),
     fieldAt (4 * i + 2) 8 (genMask (w.otp.isTorn (i + 1)))]) ∧
  (∀ b, Serves verbOtpRead .otpRead .ok [.ctl, .mon]
    (fun c v _ => c.p 16 0 8 ≠ 1 ∧ c.extLen = (otpRegion (c.p 16 0 8)).payload ∧ v.otp.inForcePayload (c.p 16 0 8) = some b)
    (fun _ _ _ => {}) (fun c _ d' => .hostWrite c.slot (scatter c.descs b) ∈ d'.out)) ∧
  Serves verbOtpRead .otpRead .denied [.ctl, .mon] (fun c _ _ => c.p 16 0 8 = 1 ∧ c.extLen = (otpRegion 1).payload) (fun _ _ _ => {})
    (fun _ _ d' => ∀ n b, .hostWrite n b ∉ d'.out)

/-- SYS_RESET of the device answers `OK` and has the reset start 1 ms later; of units it waits for a device frame boundary, where
PATCH_RESET_APPLY completes it; DEVICE_RESET_START, WATCHDOG_RESET and CONTROLLER_MEMORY_FAULT are warm resets (R525, R526). -/
def Obligations.ResetsOfTheDeviceAndOfUnits : Prop :=
  (∀ r, Serves verbSysReset .sysReset .ok [.ctl, .mon, .boot]
    (fun c _ _ => c.patch 0 = some r ∧ r.cls = .device ∧ r.group = false) (fun _ _ _ => {})
    (fun c d d' => d'.boot = { d.boot with resetAt := some (d.now + 25000, c.p 4 0 1 == 1) })) ∧
  Waits verbSysReset .sysReset [.ctl, .mon, .boot]
    (fun c d => c.cls ≠ .device ∧ c.p 4 0 1 = 0 ∧ ∀ i ∈ c.insts d, d.resetAsleep ⟨c.cls, i⟩ = false) (fun _ _ => .unitReset)
    (fun c d d' => d'.boot = { d.boot with
      unitResets := d.boot.unitResets ++ [(c.slot, (c.insts d).map fun i => (⟨c.cls, i⟩ : Patch))] }) ∧
  (∀ n k item, Happens .patchResetApply [.now, .ctl, .boot, .pkt, .mon]
    (fun d => n < 8 ∧ d.boot.unitResets = [(n, [⟨.pipeline, k⟩])] ∧ (d.slot n).taken = some ⟨item, .unitReset⟩)
    fun d d' => d'.now = max d.now (d.gridUp d.now) ∧ d'.boot.unitResets = [] ∧ (d'.slot n).taken = none ∧ d.raised d' .patchReset 0 ∧
      (d'.pkt.intake.getD (k / 4) (0, 0)).1 = 0 ∧
      ∃ x more, (d'.slot n).rsp.unread = (d.slot n).rsp.unread ++ x :: more ∧ x.bits = responseItem n item .ok {}) ∧
  (∀ s t0 keep, s.dev.halted = false → s.dev.boot.resetAt = some (t0, keep) → Completes .deviceResetStart s fun t =>
    s.dev.warmed t.dev keep (if keep then .warmKept else .warmLoaded) ∧ t.dev.now = max s.dev.now t0 ∧ t.pins = [] ∧
    t.pending = s.pending) ∧
  (∀ s, s.dev.halted = false → s.dev.fwRuns = true → Completes .watchdogReset s fun t =>
    s.dev.warmed t.dev true .watchdog ∧ t.dev.now = s.dev.now ∧ t.pins = [] ∧ t.pending = s.pending) ∧
  (∀ s, s.dev.halted = false → Completes .controllerMemoryFault s fun t =>
    s.dev.warmed t.dev (s.dev.boot.stage != 0) .memory ∧ t.dev.now = s.dev.now ∧ t.pins = [] ∧ t.pending = s.pending)

/-- PFAIL_ASSERT freezes the counters at the next boundary and has 64 frames of last gasp sent; LAST_GASP_END and PFAIL_RECOVER end that
(R533); PCIE_LINK_CHANGE (R51). -/
def Obligations.PowerFailWarningsAndTheHostLink : Prop :=
  (∀ k, Happens (.pfailAssert k) [.now, .ctl, .boot, .mon]
    (fun d => d.boot.pfail = none ∧ d.fwRuns = true ∧ d.conv.run = none ∧ d.otp.prog = none ∧ d.conf .dumpDest = 0)
    fun d d' => d'.boot = { d.boot with pfail := some d.now, lastGasp := 64 } ∧ d'.now = max d.now (d.gridUp d.now) ∧
      d'.mon.frozen = true ∧ d'.mon.last = d'.now ∧ d.raised d' .pfail 1) ∧
  Happens .lastGaspEnd [.now, .ctl, .boot] (fun d => d.boot.lastGasp ≠ 0)
    (fun d d' => d'.boot = { d.boot with lastGasp := 0 } ∧ d'.now = max d.now (d.frameStart (d.boundary + d.boot.lastGasp - 1))) ∧
  Happens .pfailRecover [.ctl, .power, .boot, .otp, .mon] (fun d => d.boot.pfail ≠ none)
    (fun d d' => d'.boot = { d.boot with pfail := none } ∧ d'.mon.frozen = false ∧ d'.mon.last = d.gridUp d.now ∧
      d.raised d' .pfail 2 ∧ d'.otp = (if d.otp.prog.any (·.stopped) then { d.otp with prog := none } else d.otp)) ∧
  (∀ p, Happens (.pcieLinkChange p) [.ctl] (fun _ => True) fun _ d' => d'.ctl.pcie = p)

/-! ### The device frame boundary (R73, R76, R222) -/

/-- DEVICE_FRAME_BOUNDARY: the next boundary is 10 µs on; on a point-to-point line every running subcarrier that has started and whose
core and wideband tile run sends a frame whose overhead carries its CRC; with no commit waiting the snapshot is taken anew, whole (R73, R76, R222, R225). -/
def Obligations.EachBoundarySendsFramesAndTakesTheSnapshot : Prop :=
  ∀ s : State, s.dev.halted = false → Completes .deviceFrameBoundary s fun t =>
    t.dev.boundary = max s.dev.boundary (s.dev.frameUp s.dev.now) + 1 ∧
    t.dev.now = max s.dev.now (s.dev.frameStart (max s.dev.boundary (s.dev.frameUp s.dev.now))) ∧ t.dev.boot = { s.dev.boot with lastGasp := s.dev.boot.lastGasp - 1 } ∧
    t.dev.power = s.dev.power ∧ t.dev.otp = s.dev.otp ∧ t.pins = s.pins ∧
    (s.dev.role = .p2p → ∀ n < 32, s.dev.runs (.sc n) = true → s.dev.bandUp n = true → (s.dev.sc n).tx.start ≤ s.dev.frameNo t.dev.now → ∃ h code o p,
      .lineFrame n h code ((s.dev.sc n).tx.frameAt (s.dev.frameNo t.dev.now)).1 o p ∈ t.dev.out ∧
      beNat (o.drop (o.length - 4)) = crc32 (o.take (o.length - 4))) ∧
    (s.dev.cfg.commits = [] → t.dev.cfg.snapGen = (s.dev.cfg.snapGen + 1) % 2 ^ 32 ∧ t.dev.cfg.snapTime = toQTime t.dev.time16 ∧
      t.snap.changesOnly [.ctl] t.dev ∧ t.snap.ctl.slots = t.dev.ctl.slots)
end

