-- ==== Sys2Proof/Laws/Bits.lean ====
section
/-! SUPPORT. Packed fields read back, bytes and numbers turn into each other, and CRC-32 is a 32-bit number. -/

namespace Sys2Proof.Machine

theorem bits_eq (x lo w : Nat) : bits x lo w = (x >>> lo) % 2 ^ w := by rw [bits, Nat.shiftRight_eq_div_pow]

theorem testBit_bits (x lo w i : Nat) : (bits x lo w).testBit i = (decide (i < w) && x.testBit (lo + i)) := by
  rw [bits_eq, Nat.testBit_mod_two_pow, Nat.testBit_shiftRight]

theorem add_eq_or_of_disjoint {a b : Nat} (h : a &&& b = 0) : a + b = a ||| b := by
  have hlt : a + b < 2 ^ (a + b) := Nat.lt_two_pow_self
  have ha : a < 2 ^ (a + b) := by omega
  have hb : b < 2 ^ (a + b) := by omega
  have hx : BitVec.ofNat (a + b) a &&& BitVec.ofNat (a + b) b = 0#(a + b) := by
    apply BitVec.eq_of_toNat_eq
    simp [Nat.mod_eq_of_lt ha, Nat.mod_eq_of_lt hb, h]
  have := congrArg BitVec.toNat (BitVec.add_eq_or_of_and_eq_zero _ _ hx)
  simpa [Nat.mod_eq_of_lt ha, Nat.mod_eq_of_lt hb, Nat.mod_eq_of_lt hlt] using this

/-! ### Layouts -/

/-- Two fields do not overlap. -/
abbrev Bf.apart (f g : Bf) : Prop := f.off + f.w ≤ g.off ∨ g.off + g.w ≤ f.off

/-- A bit of a layout is the bit of the field it lies in. -/
theorem testBit_pack {l : List Bf} (hp : l.Pairwise Bf.apart) (j : Nat) :
    (pack l).testBit j = l.any fun g => decide (g.off ≤ j) && decide (j - g.off < g.w) && g.v.testBit (j - g.off) := by
  induction l generalizing j with
  | nil => simp [pack]
  | cons g r ih =>
    rw [List.pairwise_cons] at hp
    have hA : ∀ j, ((g.v % 2 ^ g.w) * 2 ^ g.off).testBit j =
        (decide (g.off ≤ j) && decide (j - g.off < g.w) && g.v.testBit (j - g.off)) := by
      intro j
      rw [Nat.testBit_mul_two_pow, Nat.testBit_mod_two_pow, Bool.and_assoc]
    have h0 : (g.v % 2 ^ g.w) * 2 ^ g.off &&& pack r = 0 := by
      apply Nat.eq_of_testBit_eq
      intro j
      rw [Nat.testBit_and, hA, ih hp.2, Nat.zero_testBit]
      by_cases hj : g.off ≤ j ∧ j - g.off < g.w
      · have : (r.any fun x => decide (x.off ≤ j) && decide (j - x.off < x.w) && x.v.testBit (j - x.off)) = false := by
          rw [List.any_eq_false]
          intro x hx
          have := hp.1 x hx
          simp only [Bool.and_eq_true, decide_eq_true_eq, not_and]
          omega
        rw [this, Bool.and_false]
      · have : (decide (g.off ≤ j) && decide (j - g.off < g.w)) = false := by simpa using hj
        simp [this]
    show ((g.v % 2 ^ g.w) * 2 ^ g.off + pack r).testBit j = _
    rw [add_eq_or_of_disjoint h0, Nat.testBit_or, hA, ih hp.2, List.any_cons]

theorem apart_of_mem {l : List Bf} (hp : l.Pairwise Bf.apart) {x f : Bf} (hx : x ∈ l) (hf : f ∈ l) (hne : x ≠ f) : x.apart f := by
  induction l with
  | nil => cases hx
  | cons y r ih =>
    rw [List.pairwise_cons] at hp
    rcases List.mem_cons.mp hx with ex | hx
    · rcases List.mem_cons.mp hf with ef | hf
      · exact absurd (ex.trans ef.symm) hne
      · exact ex ▸ hp.1 f hf
    · rcases List.mem_cons.mp hf with ef | hf
      · exact ef ▸ (hp.1 x hx).symm
      · exact ih hp.2 hx hf

/-- A field of a layout reads as its value cut to its width. -/
theorem bits_pack {l : List Bf} (hp : l.Pairwise Bf.apart) {f : Bf} (hf : f ∈ l) : bits (pack l) f.off f.w = f.v % 2 ^ f.w := by
  apply Nat.eq_of_testBit_eq
  intro i
  rw [testBit_bits, Nat.testBit_mod_two_pow, testBit_pack hp]
  by_cases hi : i < f.w
  · simp only [hi, decide_true, Bool.true_and]
    rw [Bool.eq_iff_iff, List.any_eq_true]
    constructor
    · rintro ⟨x, hx, h⟩
      simp only [Bool.and_eq_true, decide_eq_true_eq] at h
      by_cases hxf : x = f
      · subst hxf
        simpa using h.2
      · have := apart_of_mem hp hx hf hxf
        omega
    · intro h
      exact ⟨f, hf, by simp [hi, h]⟩
  · simp [hi]

/-! ### Bytes -/

@[simp] theorem leBytes_length (n v : Nat) : (leBytes n v).length = n := by
  induction n generalizing v with
  | zero => rfl
  | succ n ih => simp [leBytes, ih]

@[simp] theorem beBytes_length (n v : Nat) : (beBytes n v).length = n := by simp [beBytes]

@[simp] theorem leNat_leBytes (n v : Nat) : leNat (leBytes n v) = v % 256 ^ n := by
  induction n generalizing v with
  | zero => simp [leNat, leBytes, Nat.mod_one]
  | succ n ih =>
    simp only [leBytes, leNat, ih, BitVec.toNat_ofNat]
    rw [show 256 ^ (n + 1) = 256 * 256 ^ n by rw [Nat.pow_succ, Nat.mul_comm], Nat.mod_mul]

theorem beNat_reverse (l : List Byte) : beNat l.reverse = leNat l := by
  induction l with
  | nil => rfl
  | cons b r ih => rw [List.reverse_cons, beNat, List.foldl_append, ← beNat, ih]; simp [leNat]; omega

@[simp] theorem beNat_beBytes (n v : Nat) : beNat (beBytes n v) = v % 256 ^ n := by rw [beBytes, beNat_reverse, leNat_leBytes]

theorem bits_mod (x : Nat) {lo w n : Nat} (h : lo + w ≤ n) : bits (x % 2 ^ n) lo w = bits x lo w := by
  apply Nat.eq_of_testBit_eq
  intro i
  rw [testBit_bits, testBit_bits, Nat.testBit_mod_two_pow]
  by_cases hi : i < w
  · have : lo + i < n := by omega
    simp [hi, this]
  · simp [hi]

theorem leNat_lt (l : List Byte) : leNat l < 256 ^ l.length := by
  induction l with
  | nil => decide
  | cons b l ih =>
    have := b.isLt
    rw [leNat, List.length_cons, Nat.pow_succ]
    omega

theorem leBytes_leNat (l : List Byte) : leBytes l.length (leNat l) = l := by
  induction l with
  | nil => rfl
  | cons b l ih =>
    have hb := b.isLt
    rw [List.length_cons, leBytes, leNat, show (b.toNat + 256 * leNat l) / 256 = leNat l by omega, ih]
    congr 1
    apply BitVec.eq_of_toNat_eq
    rw [BitVec.toNat_ofNat]; omega

theorem leNat_bytes {l : List Byte} {n : Nat} (h : l.length = n) : leNat l < 256 ^ n ∧ leBytes n (leNat l) = l := by
  subst h; exact ⟨leNat_lt l, leBytes_leNat l⟩

theorem leNat_append (a b : List Byte) : leNat (a ++ b) = leNat a + 2 ^ (8 * a.length) * leNat b := by
  induction a with
  | nil => simp [leNat]
  | cons x a ih =>
    rw [List.cons_append, leNat, leNat, ih, List.length_cons, show 8 * (a.length + 1) = 8 * a.length + 8 by omega, Nat.pow_add,
      Nat.mul_add, Nat.mul_assoc (2 ^ (8 * a.length)), Nat.mul_left_comm 256, show 2 ^ 8 = 256 from rfl]
    omega

theorem bits_low (x y : Nat) {lo w n : Nat} (h : lo + w ≤ n) : bits (x + 2 ^ n * y) lo w = bits x lo w := by
  rw [← bits_mod _ h, Nat.add_mul_mod_self_left, bits_mod _ h]

/-! ### CRC-32 -/

theorem crc32Bit_lt {c : Nat} (h : c < 2 ^ 32) : crc32Bit c < 2 ^ 32 := by
  unfold crc32Bit
  split
  · exact Nat.xor_lt_two_pow (by omega) (by decide)
  · omega

theorem crc32Byte_lt {c : Nat} (h : c < 2 ^ 32) (b : Byte) : crc32Byte c b < 2 ^ 32 := by
  have : ∀ (l : List Nat) c, c < 2 ^ 32 → l.foldl (fun c _ => crc32Bit c) c < 2 ^ 32 := by
    intro l
    induction l with
    | nil => exact fun c h => h
    | cons _ r ih => exact fun c h => ih _ (crc32Bit_lt h)
  exact this _ _ (Nat.xor_lt_two_pow h (by have := b.isLt; omega))

theorem crc32_lt (l : List Byte) : crc32 l < 2 ^ 32 := by
  have : ∀ (l : List Byte) c, c < 2 ^ 32 → l.foldl crc32Byte c < 2 ^ 32 := by
    intro l
    induction l with
    | nil => exact fun c h => h
    | cons b r ih => exact fun c h => ih _ (crc32Byte_lt h b)
  exact Nat.xor_lt_two_pow (this l _ (by decide)) (by decide)

end Sys2Proof.Machine
end

