-- ==== Sys2Proof/Laws/Aes.lean ====
section
/-! SUPPORT. A SHA-256 value has 32 bytes, AES decrypts what it encrypts, and KW unwraps what it wraps (R459, R460). -/

namespace Sys2Proof.Machine

/-! ### SHA-256 -/

theorem sha256Round_length (h : List Nat) (x : Nat) : (sha256Round h x).length = h.length := by
  unfold sha256Round
  split
  · simp only [List.length_cons]
  · rfl

theorem sha256Block_length {h : List Nat} (b : List Byte) (hh : h.length = 8) : (sha256Block h b).length = 8 := by
  have hr : ∀ (l : List Nat) (h : List Nat), (l.foldl sha256Round h).length = h.length := fun l => by
    induction l with
    | nil => exact fun _ => rfl
    | cons x l ih =>
      intro h
      rw [List.foldl_cons, ih, sha256Round_length]
  rw [sha256Block, List.length_zipWith, hr, hh]; exact Nat.min_self 8

theorem sha256Blocks_length (l : List (List Byte)) : ∀ h : List Nat, h.length = 8 → (l.foldl sha256Block h).length = 8 := by
  induction l with
  | nil => exact fun _ h => h
  | cons b l ih =>
    intro h hh
    rw [List.foldl_cons]
    exact ih _ (sha256Block_length b hh)

theorem words_length (l : List Nat) : (l.flatMap (beBytes 4)).length = 4 * l.length := by
  induction l with
  | nil => rfl
  | cons x l ih => rw [List.flatMap_cons, List.length_append, beBytes_length, ih, List.length_cons]; omega

theorem sha256_length (m : List Byte) : (sha256 m).length = 32 := by
  unfold sha256
  have h := sha256Blocks_length (chunks 64 ((m ++ sha256Pad m.length).length / 64) (m ++ sha256Pad m.length)) sha256H0 (by decide)
  exact (words_length _).trans (congrArg (4 * ·) h)

/-! ### The field -/

theorem byte_xor_zero (a : Byte) : a ^^^ 0 = a := BitVec.xor_zero

theorem byte_zero_xor (a : Byte) : 0 ^^^ a = a := BitVec.zero_xor

theorem aesX_eq (b : Byte) : aesX b = (b <<< 1) ^^^ (bif b.getLsbD 7 then 0x1b else 0) := by
  have hm : b.getLsbD 7 = decide (128 ≤ b.toNat) := BitVec.msb_eq_decide b
  rw [aesX, hm]
  by_cases h : b.toNat < 128
  · rw [if_pos h, decide_eq_false (by omega), cond_false, byte_xor_zero]
  · rw [if_neg h, decide_eq_true (by omega), cond_true]

theorem aesX_xor (a b : Byte) : aesX (a ^^^ b) = aesX a ^^^ aesX b := by
  rw [aesX_eq, aesX_eq, aesX_eq, BitVec.shiftLeft_xor_distrib, BitVec.getLsbD_xor]
  have h : ∀ x y : Bool, (bif x ^^ y then (0x1b : Byte) else 0) = (bif x then 0x1b else 0) ^^^ (bif y then 0x1b else 0) := by decide
  rw [h]
  ac_rfl

theorem aesMul_xor (a b m : Byte) : aesMul (a ^^^ b) m = aesMul a m ^^^ aesMul b m := by
  unfold aesMul
  induction List.range 8 with
  | nil => exact BitVec.xor_self.symm
  | cons k l ih =>
    rw [List.foldr_cons, List.foldr_cons, List.foldr_cons, ih, aesX_xor]
    cases bit m.toNat k <;> simp only [if_true, if_neg Bool.false_ne_true, byte_xor_zero] <;> ac_rfl

theorem aesX_zero : aesX 0 = 0 := by decide

/-- Multiplication by the circulants' coefficients, as multiplications by x. -/
theorem aesMul_small (a : Byte) : aesMul a 1 = a ∧ aesMul a 2 = aesX a ∧ aesMul a 3 = aesX a ^^^ a ∧
    aesMul a 9 = aesX (aesX (aesX a)) ^^^ a ∧ aesMul a 11 = aesX (aesX (aesX a)) ^^^ aesX a ^^^ a ∧
    aesMul a 13 = aesX (aesX (aesX a)) ^^^ aesX (aesX a) ^^^ a ∧
    aesMul a 14 = aesX (aesX (aesX a)) ^^^ aesX (aesX a) ^^^ aesX a := by
  have h : ∀ m : Byte, aesMul a m = [bit m.toNat 0, bit m.toNat 1, bit m.toNat 2, bit m.toNat 3, bit m.toNat 4, bit m.toNat 5,
      bit m.toNat 6, bit m.toNat 7].foldr (fun b r => aesX r ^^^ (if b then a else 0)) 0 := fun _ => rfl
  have e : ∀ m : Byte, ∀ l : List Bool, [bit m.toNat 0, bit m.toNat 1, bit m.toNat 2, bit m.toNat 3, bit m.toNat 4, bit m.toNat 5,
      bit m.toNat 6, bit m.toNat 7] = l → aesMul a m = l.foldr (fun b r => aesX r ^^^ (if b then a else 0)) 0 := fun m l x => by rw [h, x]
  have f : (false = true) = False := eq_false Bool.false_ne_true
  refine ⟨(e 1 [true, false, false, false, false, false, false, false] (by decide)).trans ?_,
    (e 2 [false, true, false, false, false, false, false, false] (by decide)).trans ?_,
    (e 3 [true, true, false, false, false, false, false, false] (by decide)).trans ?_,
    (e 9 [true, false, false, true, false, false, false, false] (by decide)).trans ?_,
    (e 11 [true, true, false, true, false, false, false, false] (by decide)).trans ?_,
    (e 13 [true, false, true, true, false, false, false, false] (by decide)).trans ?_,
    (e 14 [false, true, true, true, false, false, false, false] (by decide)).trans ?_⟩ <;>
  simp only [List.foldr_cons, List.foldr_nil, if_true, f, if_false, aesX_zero, byte_xor_zero, byte_zero_xor, aesX_xor]

/-- A column of the product of the two circulants is a column of the identity. -/
theorem aesMul_mul (a : Byte) :
    aesMul (aesMul a 2) 14 ^^^ aesMul a 11 ^^^ aesMul a 13 ^^^ aesMul (aesMul a 3) 9 = a ∧
    aesMul (aesMul a 3) 14 ^^^ aesMul (aesMul a 2) 11 ^^^ aesMul a 13 ^^^ aesMul a 9 = 0 ∧
    aesMul a 14 ^^^ aesMul (aesMul a 3) 11 ^^^ aesMul (aesMul a 2) 13 ^^^ aesMul a 9 = 0 ∧
    aesMul a 14 ^^^ aesMul a 11 ^^^ aesMul (aesMul a 3) 13 ^^^ aesMul (aesMul a 2) 9 = 0 := by
  have h1 := fun b => (aesMul_small b).2.1
  have h2 := fun b => (aesMul_small b).2.2.1
  have h3 := fun b => (aesMul_small b).2.2.2.1
  have h4 := fun b => (aesMul_small b).2.2.2.2.1
  have h5 := fun b => (aesMul_small b).2.2.2.2.2.1
  have h6 := fun b => (aesMul_small b).2.2.2.2.2.2
  simp only [h1, h2, h3, h4, h5, h6, aesX_xor]
  generalize aesX (aesX (aesX (aesX a))) = t
  generalize aesX (aesX (aesX a)) = s
  generalize aesX (aesX a) = r
  generalize aesX a = q
  refine ⟨?_, ?_, ?_, ?_⟩ <;> apply BitVec.eq_of_getLsbD_eq <;> intro i _ <;> simp only [BitVec.getLsbD_xor] <;>
  · try rw [show (0 : Byte).getLsbD i = false from BitVec.getLsbD_zero]
    generalize t.getLsbD i = t
    generalize s.getLsbD i = s
    generalize r.getLsbD i = r
    generalize q.getLsbD i = q
    generalize a.getLsbD i = a
    revert t s r q a
    decide

theorem aesMix_row (a b c d : Byte) :
    aesMul (aesMul a 2 ^^^ aesMul b 3 ^^^ c ^^^ d) 14 ^^^ aesMul (aesMul b 2 ^^^ aesMul c 3 ^^^ d ^^^ a) 11 ^^^
      aesMul (aesMul c 2 ^^^ aesMul d 3 ^^^ a ^^^ b) 13 ^^^ aesMul (aesMul d 2 ^^^ aesMul a 3 ^^^ b ^^^ c) 9 = a := by
  have ha := (aesMul_mul a).1
  have hb := (aesMul_mul b).2.1
  have hc := (aesMul_mul c).2.2.1
  have hd := (aesMul_mul d).2.2.2
  have h := congr (congrArg HXor.hXor (congr (congrArg HXor.hXor ha) hb)) (congr (congrArg HXor.hXor hc) hd)
  simp only [aesMul_xor]
  refine Eq.trans ?_ (h.trans (by rw [byte_xor_zero, byte_xor_zero, byte_xor_zero]))
  ac_rfl

theorem aesMixCol_two (a b c d : Byte) : aesMixCol [2, 3, 1, 1] [a, b, c, d] =
    [aesMul a 2 ^^^ aesMul b 3 ^^^ c ^^^ d, aesMul b 2 ^^^ aesMul c 3 ^^^ d ^^^ a, aesMul c 2 ^^^ aesMul d 3 ^^^ a ^^^ b,
      aesMul d 2 ^^^ aesMul a 3 ^^^ b ^^^ c] := by
  have e : aesMixCol [2, 3, 1, 1] [a, b, c, d] = 
    [0 ^^^ aesMul a 2 ^^^ aesMul b 3 ^^^ aesMul c 1 ^^^ aesMul d 1, 0 ^^^ aesMul a 1 ^^^ aesMul b 2 ^^^ aesMul c 3 ^^^ aesMul d 1,
     0 ^^^ aesMul a 1 ^^^ aesMul b 1 ^^^ aesMul c 2 ^^^ aesMul d 3, 0 ^^^ aesMul a 3 ^^^ aesMul b 1 ^^^ aesMul c 1 ^^^ aesMul d 2] := rfl
  rw [e]
  simp only [(aesMul_small _).1, byte_zero_xor]
  congr 1
  congr 1
  · ac_rfl
  congr 1
  · ac_rfl
  congr 1
  ac_rfl

theorem aesMixCol_inv (a b c d : Byte) : aesMixCol [14, 11, 13, 9] (aesMixCol [2, 3, 1, 1] [a, b, c, d]) = [a, b, c, d] := by
  rw [aesMixCol_two]
  have e : ∀ w x y z : Byte, aesMixCol [14, 11, 13, 9] [w, x, y, z] = 
    [0 ^^^ aesMul w 14 ^^^ aesMul x 11 ^^^ aesMul y 13 ^^^ aesMul z 9, 0 ^^^ aesMul w 9 ^^^ aesMul x 14 ^^^ aesMul y 11 ^^^ aesMul z 13,
     0 ^^^ aesMul w 13 ^^^ aesMul x 9 ^^^ aesMul y 14 ^^^ aesMul z 11, 0 ^^^ aesMul w 11 ^^^ aesMul x 13 ^^^ aesMul y 9 ^^^ aesMul z 14] :=
    fun _ _ _ _ => rfl
  rw [e]
  simp only [byte_zero_xor]
  congr 1
  · exact aesMix_row a b c d
  congr 1
  · exact Eq.trans (by ac_rfl) (aesMix_row b c d a)
  congr 1
  · exact Eq.trans (by ac_rfl) (aesMix_row c d a b)
  congr 1
  exact Eq.trans (by ac_rfl) (aesMix_row d a b c)

/-! ### Rounds -/

/-- The inverse of the S-box, the place of byte v in bits 8v to 8v + 7. -/
def aesPlaces : Nat := 0x7d0c2155631469e126d677ba7e042b17619953833cbbebc8b0f52aae4d3be0a0ef9cc9939f7ae52d0d4ab519a97f51605fec8027591012b131c7078833a8dd1ff45acd78fec0db9a2079d2c64b3e56fc1bbe18aa0e62b76f89c5291d711af1476edf751ce837f9e28535ade72274ac9673e6b4f0cecff297eadc674f4111913a6b8a130103bdafc1020f3fca8f1e2cd00645b3b80558e4f70ad3bc8c00abd890849d8da75746155edab9edfd5048706c92b6655dcc5ca4d41698688664f6f87225d18b6d49a25b76b224d92866a12e084ec3fa420b954cee3d23c2a632947b54cbe9dec444438e3487ff2f9b8239e37cfbd7f3819ea340bf38a53630d56a0952

theorem aesSbox_places : aesSbox.map (fun v => aesPlaces / 2 ^ (8 * v) % 256) = List.range 256 := by decide +kernel

theorem aesSbox_bytes : aesSbox.all (· < 256) = true := by decide +kernel

theorem aesSubInv_aesSub (b : Byte) : aesSubInv (aesSub b) = b := by
  have hl : aesSbox.length = 256 := (List.length_map _).symm.trans ((congrArg List.length aesSbox_places).trans List.length_range)
  have place : ∀ n (h : n < aesSbox.length), aesPlaces / 2 ^ (8 * aesSbox[n]) % 256 = n := fun n h => by
    have hp : (aesSbox.map fun v => aesPlaces / 2 ^ (8 * v) % 256)[n]? = some n := by
      rw [aesSbox_places, List.getElem?_range (by rw [← hl]; exact h)]
    rw [List.getElem?_map, List.getElem?_eq_getElem h] at hp
    exact Option.some.inj hp
  have hb : b.toNat < aesSbox.length := by rw [hl]; exact b.isLt
  have hv := of_decide_eq_true (List.all_eq_true.mp aesSbox_bytes _ (List.getElem_mem hb))
  have hs : (aesSub b).toNat = aesSbox[b.toNat] := by
    rw [aesSub, List.getD_eq_getElem?_getD, List.getElem?_eq_getElem hb, Option.getD_some, BitVec.toNat_ofNat, Nat.mod_eq_of_lt hv]
  have hf : aesSbox.findIdx (· == aesSbox[b.toNat]) = b.toNat := by
    refine (List.findIdx_eq hb).mpr ⟨beq_self_eq_true _, fun j hj => ?_⟩
    refine beq_false_of_ne fun e => ?_
    have := place j (by omega)
    rw [e, place b.toNat hb] at this
    omega
  rw [aesSubInv, hs, hf, BitVec.ofNat_toNat, BitVec.setWidth_eq]

theorem xorBytes_length (a b : List Byte) : (xorBytes a b).length = min a.length b.length := List.length_zipWith

theorem xorBytes_cancel {a b : List Byte} (h : a.length ≤ b.length) : xorBytes (xorBytes a b) b = a := by
  induction a generalizing b with
  | nil => rfl
  | cons x a ih => cases b with
    | nil => cases h
    | cons y b =>
      show (x ^^^ y ^^^ y) :: xorBytes (xorBytes a b) b = x :: a
      rw [ih (Nat.le_of_succ_le_succ h), BitVec.xor_assoc, BitVec.xor_self, BitVec.xor_zero]

theorem list16 {s : List Byte} (h : s.length = 16) : ∃ a b c d e f g i j k l m n o p q : Byte,
    s = [a, b, c, d, e, f, g, i, j, k, l, m, n, o, p, q] := by
  match s, h with
  | [a, b, c, d, e, f, g, i, j, k, l, m, n, o, p, q], _ => exact ⟨_, _, _, _, _, _, _, _, _, _, _, _, _, _, _, _, rfl⟩

theorem aesShift_length (s : List Byte) : (aesShift s).length = 16 := by rw [aesShift, List.length_map, List.length_range]

theorem aesShiftInv_aesShift {s : List Byte} (h : s.length = 16) : aesShiftInv (aesShift s) = s := by
  obtain ⟨a, b, c, d, e, f, g, i, j, k, l, m, n, o, p, q, rfl⟩ := list16 h
  rfl

theorem aesMix_four (m : List Byte) (a b c d e f g i j k l n o p q r : Byte) :
    aesMix m [a, b, c, d, e, f, g, i, j, k, l, n, o, p, q, r] =
      aesMixCol m [a, b, c, d] ++ (aesMixCol m [e, f, g, i] ++ (aesMixCol m [j, k, l, n] ++ aesMixCol m [o, p, q, r])) := by
  show List.flatMap _ [[a, b, c, d], [e, f, g, i], [j, k, l, n], [o, p, q, r]] = _
  simp only [List.flatMap_cons, List.flatMap_nil, List.append_nil]

theorem aesMix_inv {s : List Byte} (h : s.length = 16) :
    aesMix [14, 11, 13, 9] (aesMix [2, 3, 1, 1] s) = s ∧ (aesMix [2, 3, 1, 1] s).length = 16 := by
  obtain ⟨a, b, c, d, e, f, g, i, j, k, l, m, n, o, p, q, rfl⟩ := list16 h
  rw [aesMix_four]
  refine ⟨?_, rfl⟩
  have x1 := aesMixCol_inv a b c d
  have x2 := aesMixCol_inv e f g i
  have x3 := aesMixCol_inv j k l m
  have x4 := aesMixCol_inv n o p q
  rw [aesMixCol_two] at x1 x2 x3 x4 ⊢
  rw [aesMixCol_two, aesMixCol_two, aesMixCol_two]
  simp only [List.cons_append, List.nil_append]
  rw [aesMix_four, x1, x2, x3, x4]
  rfl

/-- What a round's substitution and shift do is undone. -/
theorem aesRound_inv {s : List Byte} (h : s.length = 16) : (aesShiftInv (aesShift (s.map aesSub))).map aesSubInv = s := by
  rw [aesShiftInv_aesShift (by rw [List.length_map, h]), List.map_map]
  exact (List.map_congr_left fun b _ => aesSubInv_aesSub b).trans (List.map_id _)

theorem aesRounds_inv : ∀ (r : List (List Byte)) (hr : r ≠ []), (∀ k ∈ r, k.length = 16) → ∀ (x : List (List Byte)), x ≠ [] →
    ∀ s : List Byte, s.length = 16 →
    aesDecRounds (r.dropLast.reverse ++ x) (xorBytes (aesEncRounds r s) (r.getLast hr)) = aesDecRounds x (aesShift (s.map aesSub)) := by
  intro r
  induction r with
  | nil => intro h; exact absurd rfl h
  | cons k r ih =>
    intro _ hk x hx s hs
    have hk0 : k.length = 16 := hk k (List.mem_cons_self ..)
    cases r with
    | nil =>
      show aesDecRounds x (xorBytes (xorBytes (aesShift (s.map aesSub)) k) k) = _
      rw [xorBytes_cancel (Nat.le_of_eq (by rw [aesShift_length, hk0]))]
    | cons k2 r =>
      obtain ⟨hm, hl⟩ := aesMix_inv (aesShift_length (s.map aesSub))
      have hs2 : (xorBytes (aesMix [2, 3, 1, 1] (aesShift (s.map aesSub))) k).length = 16 := by rw [xorBytes_length, hl, hk0]; rfl
      have e := ih (List.cons_ne_nil _ _) (fun k' h' => hk k' (List.mem_cons_of_mem _ h')) (k :: x) (List.cons_ne_nil _ _) _ hs2
      rw [List.dropLast_cons_of_ne_nil (List.cons_ne_nil _ _), List.reverse_cons, List.append_assoc, List.getLast_cons (List.cons_ne_nil _ _)]
      refine Eq.trans e ?_
      cases x with
      | nil => exact absurd rfl hx
      | cons y x =>
        show aesDecRounds (y :: x) (aesMix [14, 11, 13, 9] (xorBytes ((aesShiftInv (aesShift (List.map aesSub _))).map aesSubInv) k)) = _
        rw [aesRound_inv hs2, xorBytes_cancel (Nat.le_of_eq (by rw [hl, hk0])), hm]

/-! ### Round keys -/

theorem aesExpand_words (nk : Nat) (hk : 0 < nk) : ∀ (n : Nat) (rc : Byte) (w : List (List Byte)), nk ≤ w.length →
    (∀ x ∈ w, x.length = 4) → (aesExpand nk n rc w).length = n + w.length ∧ ∀ x ∈ aesExpand nk n rc w, x.length = 4 := by
  intro n
  induction n with
  | zero => intro rc w _ h; exact ⟨(Nat.zero_add _).symm, h⟩
  | succ n ih =>
    intro rc w hw h
    have hfar : (w.getD (nk - 1) []).length = 4 := by
      rw [List.getD_eq_getElem?_getD, List.getElem?_eq_getElem (by omega)]
      exact h _ (List.getElem_mem _)
    have ht : (w.headD []).length = 4 := by
      cases w with
      | nil => exact absurd hw (by simpa using Nat.pos_iff_ne_zero.mp hk)
      | cons y w => exact h y (List.mem_cons_self ..)
    have go : ∀ rc' y, y.length = 4 → (aesExpand nk n rc' (y :: w)).length = n + 1 + w.length ∧ ∀ x ∈ aesExpand nk n rc' (y :: w), x.length = 4 := by
      intro rc' y hy
      obtain ⟨e1, e2⟩ := ih rc' (y :: w) (by simp only [List.length_cons]; omega) (fun x hx => by
        rcases List.mem_cons.mp hx with rfl | hx
        · exact hy
        · exact h x hx)
      refine ⟨?_, e2⟩
      rw [e1, List.length_cons]; omega
    rw [aesExpand]
    simp only
    split
    · apply go
      rw [xorBytes_length, xorBytes_length, hfar]
      simp only [List.length_map, List.length_append, List.length_drop, List.length_take, ht, List.length_cons, List.length_nil]
      rfl
    · split
      · apply go; rw [xorBytes_length, hfar, List.length_map, ht]; rfl
      · apply go; rw [xorBytes_length, hfar, ht]; rfl

theorem chunks_length {α : Type} (n : Nat) : ∀ (k : Nat) (l : List α), l.length = n * k → 0 < n →
    (chunks n k l).length = k ∧ ∀ x ∈ chunks n k l, x.length = n := by
  intro k
  induction k with
  | zero => intro l _ _; exact ⟨rfl, fun x hx => by cases hx⟩
  | succ k ih =>
    intro l hl hn
    have h0 : l.length = n + n * k := by rw [hl, Nat.mul_succ]; omega
    have hne : l.isEmpty = false := by
      cases l with
      | nil => simp only [List.length_nil] at h0; omega
      | cons _ _ => rfl
    obtain ⟨e1, e2⟩ := ih (l.drop n) (by rw [List.length_drop]; omega) hn
    simp only [chunks, hne, if_neg Bool.false_ne_true]
    refine ⟨by rw [List.length_cons, e1], fun x hx => ?_⟩
    rcases List.mem_cons.mp hx with rfl | hx
    · rw [List.length_take]; omega
    · exact e2 x hx

theorem mem_chunks {α : Type} (n : Nat) : ∀ (k : Nat) (l : List α), ∀ x ∈ chunks n k l, ∀ y ∈ x, y ∈ l := by
  intro k
  induction k with
  | zero => intro l x hx; cases hx
  | succ k ih =>
    intro l x hx y hy
    rw [chunks] at hx
    split at hx
    · cases hx
    · rcases List.mem_cons.mp hx with rfl | hx
      · exact List.mem_of_mem_take hy
      · exact List.mem_of_mem_drop (ih _ x hx y hy)

theorem flatten_length {α : Type} (m : Nat) : ∀ l : List (List α), (∀ x ∈ l, x.length = m) → l.flatten.length = m * l.length := by
  intro l
  induction l with
  | nil => intro _; rfl
  | cons x l ih =>
    intro h
    rw [List.flatten_cons, List.length_append, h x (List.mem_cons_self ..), ih fun y hy => h y (List.mem_cons_of_mem _ hy), List.length_cons,
      Nat.mul_succ]
    omega

theorem aesRoundKeys_length {key : List Byte} {nk : Nat} (h : key.length = 4 * nk) (hk : 0 < nk) :
    (aesRoundKeys key).length = nk + 7 ∧ ∀ k ∈ aesRoundKeys key, k.length = 16 := by
  have hn : key.length / 4 = nk := by omega
  obtain ⟨c1, c2⟩ := chunks_length 4 nk key h (by decide)
  obtain ⟨e1, e2⟩ := aesExpand_words nk hk (4 * (nk + 7) - nk) 1 (chunks 4 nk key).reverse (Nat.le_of_eq (by rw [List.length_reverse, c1]))
    (fun x hx => c2 x (List.mem_reverse.mp hx))
  have e3 : (aesExpand nk (4 * (nk + 7) - nk) 1 (chunks 4 nk key).reverse).reverse.length = 4 * (nk + 7) := by
    rw [List.length_reverse, e1, List.length_reverse, c1]; omega
  obtain ⟨g1, g2⟩ := chunks_length 4 (nk + 7) _ e3 (by decide)
  simp only [aesRoundKeys, hn]
  refine ⟨by rw [List.length_map, g1], fun k hx => ?_⟩
  obtain ⟨y, hy, rfl⟩ := List.mem_map.mp hx
  rw [flatten_length 4 y fun z hz => e2 z (List.mem_reverse.mp (mem_chunks _ _ _ y hy z hz)), g2 y hy]

/-- AES decrypts what it encrypts. -/
theorem aesDecrypt_aesEncrypt {key b : List Byte} {nk : Nat} (h : key.length = 4 * nk) (hk : 0 < nk) (hb : b.length = 16) :
    aesDecrypt key (aesEncrypt key b) = b := by
  obtain ⟨h1, h2⟩ := aesRoundKeys_length h hk
  rw [aesDecrypt, aesEncrypt]
  cases hr : aesRoundKeys key with
  | nil => rw [hr] at h1; simp only [List.length_nil] at h1; omega
  | cons k0 r =>
    rw [hr] at h1 h2
    have hne : r ≠ [] := by
      rintro rfl
      simp only [List.length_cons, List.length_nil] at h1; omega
    have h0 : k0.length = 16 := h2 k0 (List.mem_cons_self ..)
    have hx : (xorBytes b k0).length = 16 := by rw [xorBytes_length, hb, h0]; rfl
    have e : (k0 :: r).reverse = r.getLast hne :: (r.dropLast.reverse ++ [k0]) := by
      have e2 : r = r.dropLast ++ [r.getLast hne] := (List.dropLast_concat_getLast hne).symm
      have e3 : r.reverse = r.getLast hne :: r.dropLast.reverse :=
        (congrArg List.reverse e2).trans (by rw [List.reverse_append]; rfl)
      rw [List.reverse_cons, e3]; rfl
    rw [e]
    simp only
    rw [aesRounds_inv r hne (fun k hk' => h2 k (List.mem_cons_of_mem _ hk')) [k0] (List.cons_ne_nil _ _) _ hx]
    show xorBytes ((aesShiftInv (aesShift (List.map aesSub _))).map aesSubInv) k0 = b
    rw [aesRound_inv hx, xorBytes_cancel (Nat.le_of_eq (by rw [hb, h0]))]

theorem aesEncRounds_length : ∀ (r : List (List Byte)) (s : List Byte), (∀ k ∈ r, k.length = 16) → s.length = 16 →
    (aesEncRounds r s).length = 16 := by
  intro r
  induction r with
  | nil => intro s _ h; exact h
  | cons k r ih =>
    intro s hk hs
    have hk0 := hk k (List.mem_cons_self ..)
    cases r with
    | nil => rw [aesEncRounds, xorBytes_length, aesShift_length, hk0]; rfl
    | cons k2 r =>
      refine ih _ (fun k' h' => hk k' (List.mem_cons_of_mem _ h')) ?_
      rw [xorBytes_length, (aesMix_inv (aesShift_length _)).2, hk0]; rfl

theorem aesEncrypt_length {key b : List Byte} {nk : Nat} (h : key.length = 4 * nk) (hk : 0 < nk) (hb : b.length = 16) :
    (aesEncrypt key b).length = 16 := by
  obtain ⟨_, h2⟩ := aesRoundKeys_length h hk
  rw [aesEncrypt]
  cases hr : aesRoundKeys key with
  | nil => exact hb
  | cons k0 r =>
    rw [hr] at h2
    exact aesEncRounds_length r _ (fun k hk' => h2 k (List.mem_cons_of_mem _ hk'))
      (by rw [xorBytes_length, hb, h2 k0 (List.mem_cons_self ..)]; rfl)

/-! ### KW -/

/-- One inner step of KW wrapping (NIST SP 800-38F). -/
def kwForth (key : List Byte) (n : Nat) (s : List Byte × List (List Byte)) (t : Nat) : List Byte × List (List Byte) :=
  let i := (t - 1) % n
  let b := aesEncrypt key (s.1 ++ s.2.getD i [])
  (xorBytes (b.take 8) (beBytes 8 t), s.2.set i (b.drop 8))

/-- The steps of KW wrapping of n blocks of 8 bytes. -/
def kwForths (key : List Byte) (n : Nat) (r : List (List Byte)) : List Byte × List (List Byte) :=
  ((List.range (6 * n)).map (· + 1)).foldl (kwForth key n) (List.replicate 8 0xa6, r)

/-- KW wrap. -/
def kwWrap (key p : List Byte) : List Byte :=
  let s := kwForths key (p.length / 8) (chunks 8 (p.length / 8) p)
  s.1 ++ s.2.flatten

theorem beBytes8_length (t : Nat) : (beBytes 8 t).length = 8 := by rw [beBytes, List.length_reverse]; rfl

/-- A register A of 8 bytes and n registers of 8. -/
abbrev kwOk (n : Nat) (s : List Byte × List (List Byte)) : Prop := s.1.length = 8 ∧ s.2.length = n ∧ ∀ x ∈ s.2, x.length = 8

theorem kwForth_ok {key : List Byte} {nk n : Nat} (h : key.length = 4 * nk) (hk : 0 < nk) (hn : 0 < n)
    {s : List Byte × List (List Byte)} (hs : kwOk n s) (t : Nat) :
    kwOk n (kwForth key n s t) ∧ kwStep key n (kwForth key n s t) t = s := by
  obtain ⟨h1, h2, h3⟩ := hs
  obtain ⟨a, r⟩ := s
  have hi : (t - 1) % n < r.length := by rw [show r.length = n from h2]; exact Nat.mod_lt _ hn
  have hg : (r.getD ((t - 1) % n) []).length = 8 := by
    rw [List.getD_eq_getElem?_getD, List.getElem?_eq_getElem hi]
    exact h3 _ (List.getElem_mem _)
  have hb : (a ++ r.getD ((t - 1) % n) []).length = 16 := by rw [List.length_append, hg, show a.length = 8 from h1]
  have hl := aesEncrypt_length h hk hb
  have hd := aesDecrypt_aesEncrypt h hk hb
  have ht : ((aesEncrypt key (a ++ r.getD ((t - 1) % n) [])).take 8).length = 8 := by rw [List.length_take, hl]; rfl
  refine ⟨⟨?_, ?_, fun x hx => ?_⟩, ?_⟩
  · show (xorBytes _ _).length = 8
    rw [xorBytes_length, ht, beBytes8_length]; rfl
  · show (r.set _ _).length = n
    rw [List.length_set]; exact h2
  · rcases List.mem_or_eq_of_mem_set hx with hx | rfl
    · exact h3 x hx
    · rw [List.length_drop, hl]
  · have hset : ∀ y : List Byte, (r.set ((t - 1) % n) y).getD ((t - 1) % n) [] = y := fun y => by
      rw [List.getD_eq_getElem?_getD, List.getElem?_set_self hi, Option.getD_some]
    have hself : r.set ((t - 1) % n) (r.getD ((t - 1) % n) []) = r := by
      rw [List.getD_eq_getElem?_getD, List.getElem?_eq_getElem hi, Option.getD_some, List.set_getElem_self]
    have h8 : a.length = 8 := h1
    simp only [kwStep, kwForth]
    rw [xorBytes_cancel (Nat.le_of_eq (by rw [ht, beBytes8_length])), hset, List.take_append_drop, hd, List.set_set, ← h8,
      List.take_left, List.drop_left, hself]

theorem kwForths_inv {key : List Byte} {nk n : Nat} (h : key.length = 4 * nk) (hk : 0 < nk) (hn : 0 < n) : ∀ (l : List Nat)
    (s : List Byte × List (List Byte)), kwOk n s →
    kwOk n (l.foldl (kwForth key n) s) ∧ l.reverse.foldl (kwStep key n) (l.foldl (kwForth key n) s) = s := by
  intro l
  induction l with
  | nil => intro s hs; exact ⟨hs, rfl⟩
  | cons t l ih =>
    intro s hs
    obtain ⟨o, e⟩ := kwForth_ok h hk hn hs t
    obtain ⟨o2, e2⟩ := ih _ o
    refine ⟨o2, ?_⟩
    rw [List.foldl_cons, List.reverse_cons, List.foldl_append, e2]
    exact e

theorem chunks_flatten {α : Type} (n : Nat) (hn : 0 < n) : ∀ l : List (List α), (∀ x ∈ l, x.length = n) → chunks n l.length l.flatten = l := by
  intro l
  induction l with
  | nil => intro _; rfl
  | cons x l ih =>
    intro h
    have hx := h x (List.mem_cons_self ..)
    have hne : (x ++ l.flatten).isEmpty = false := by
      cases x with
      | nil => simp only [List.length_nil] at hx; omega
      | cons _ _ => rfl
    rw [List.flatten_cons, List.length_cons, chunks, hne, if_neg Bool.false_ne_true, ← hx, List.take_left, List.drop_left, hx,
      ih fun y hy => h y (List.mem_cons_of_mem _ hy)]

theorem flatten_chunks {α : Type} (n : Nat) : ∀ (k : Nat) (l : List α), l.length = n * k → (chunks n k l).flatten = l := by
  intro k
  induction k with
  | zero => intro l h; exact (List.eq_nil_of_length_eq_zero (by simpa using h)).symm
  | succ k ih =>
    intro l h
    rw [chunks]
    split
    · rename_i he; exact (List.isEmpty_iff.mp he).symm
    · rw [List.flatten_cons, ih _ (by rw [List.length_drop, h, Nat.mul_succ]; omega), List.take_append_drop]

theorem kwWrap_length {key p : List Byte} {nk n : Nat} (h : key.length = 4 * nk) (hk : 0 < nk) (hp : p.length = 8 * n) (hn : 2 ≤ n) :
    (kwWrap key p).length = 8 + 8 * n := by
  have hn8 : p.length / 8 = n := by omega
  obtain ⟨c1, c2⟩ := chunks_length 8 n p hp (by decide)
  obtain ⟨⟨o1, o2, o3⟩, _⟩ := kwForths_inv h hk (show 0 < n by omega) ((List.range (6 * n)).map (· + 1))
    (List.replicate 8 0xa6, chunks 8 n p) ⟨List.length_replicate .., c1, c2⟩
  have hf := flatten_length 8 _ o3
  rw [o2] at hf
  simp only [kwWrap, kwForths, hn8]
  rw [List.length_append, o1, hf]

/-- KW unwraps what it wraps. -/
theorem kwUnwrap_kwWrap {key p : List Byte} {nk n : Nat} (h : key.length = 4 * nk) (hk : 0 < nk) (hp : p.length = 8 * n) (hn : 2 ≤ n) :
    kwUnwrap key (kwWrap key p) = some p := by
  have hn8 : p.length / 8 = n := by omega
  obtain ⟨c1, c2⟩ := chunks_length 8 n p hp (by decide)
  obtain ⟨⟨o1, o2, o3⟩, e⟩ := kwForths_inv h hk (show 0 < n by omega) ((List.range (6 * n)).map (· + 1))
    (List.replicate 8 0xa6, chunks 8 n p) ⟨List.length_replicate .., c1, c2⟩
  have hw := kwWrap_length h hk hp hn
  have hm : (kwWrap key p).length / 8 - 1 = n := by omega
  rw [kwUnwrap]
  simp only [hm]
  rw [if_neg (by omega)]
  simp only [kwWrap, kwForths, hn8]
  rw [← List.map_reverse] at e
  have t1 : ∀ b : List Byte, ((((List.range (6 * n)).map (· + 1)).foldl (kwForth key n) (List.replicate 8 0xa6, chunks 8 n p)).1 ++ b).take 8 =
      (((List.range (6 * n)).map (· + 1)).foldl (kwForth key n) (List.replicate 8 0xa6, chunks 8 n p)).1 := fun b => by
    have := List.take_left (l₁ := (((List.range (6 * n)).map (· + 1)).foldl (kwForth key n) (List.replicate 8 0xa6, chunks 8 n p)).1) (l₂ := b)
    rwa [o1] at this
  have t2 : ∀ b : List Byte, ((((List.range (6 * n)).map (· + 1)).foldl (kwForth key n) (List.replicate 8 0xa6, chunks 8 n p)).1 ++ b).drop 8 =
      b := fun b => by
    have := List.drop_left (l₁ := (((List.range (6 * n)).map (· + 1)).foldl (kwForth key n) (List.replicate 8 0xa6, chunks 8 n p)).1) (l₂ := b)
    rwa [o1] at this
  have t3 := chunks_flatten 8 (by decide) _ o3
  rw [o2] at t3
  rw [t1, t2, t3, e, if_pos rfl, flatten_chunks 8 n p hp]

end Sys2Proof.Machine
end

