-- ==== Sys2Proof/Laws/State.lean ====
section
/-! SUPPORT. The basic updates of the device, one lemma per part: no proof unfolds an update. -/

namespace Sys2Proof.Machine

/-! `Dev.emit` -/
@[simp] theorem Dev.emit_now (d : Dev) (o : Out) : (d.emit o).now = d.now := rfl
@[simp] theorem Dev.emit_boundary (d : Dev) (o : Out) : (d.emit o).boundary = d.boundary := rfl
@[simp] theorem Dev.emit_free (d : Dev) (o : Out) : (d.emit o).free = d.free := rfl
@[simp] theorem Dev.emit_out (d : Dev) (o : Out) : (d.emit o).out = d.out ++ [o] := rfl
@[simp] theorem Dev.emit_ctl (d : Dev) (o : Out) : (d.emit o).ctl = d.ctl := rfl
@[simp] theorem Dev.emit_cfg (d : Dev) (o : Out) : (d.emit o).cfg = d.cfg := rfl
@[simp] theorem Dev.emit_quilt (d : Dev) (o : Out) : (d.emit o).quilt = d.quilt := rfl
@[simp] theorem Dev.emit_power (d : Dev) (o : Out) : (d.emit o).power = d.power := rfl
@[simp] theorem Dev.emit_boot (d : Dev) (o : Out) : (d.emit o).boot = d.boot := rfl
@[simp] theorem Dev.emit_otp (d : Dev) (o : Out) : (d.emit o).otp = d.otp := rfl
@[simp] theorem Dev.emit_mon (d : Dev) (o : Out) : (d.emit o).mon = d.mon := rfl
@[simp] theorem Dev.emit_time (d : Dev) (o : Out) : (d.emit o).time = d.time := rfl
@[simp] theorem Dev.emit_conv (d : Dev) (o : Out) : (d.emit o).conv = d.conv := rfl
@[simp] theorem Dev.emit_line (d : Dev) (o : Out) : (d.emit o).line = d.line := rfl
@[simp] theorem Dev.emit_scs (d : Dev) (o : Out) : (d.emit o).scs = d.scs := rfl
@[simp] theorem Dev.emit_conts (d : Dev) (o : Out) : (d.emit o).conts = d.conts := rfl
@[simp] theorem Dev.emit_ohd (d : Dev) (o : Out) : (d.emit o).ohd = d.ohd := rfl
@[simp] theorem Dev.emit_ref (d : Dev) (o : Out) : (d.emit o).ref = d.ref := rfl
@[simp] theorem Dev.emit_lane (d : Dev) (o : Out) : (d.emit o).lane = d.lane := rfl
@[simp] theorem Dev.emit_pkt (d : Dev) (o : Out) : (d.emit o).pkt = d.pkt := rfl
@[simp] theorem Dev.emit_mem (d : Dev) (o : Out) : (d.emit o).mem = d.mem := rfl
@[simp] theorem Dev.emit_crypt (d : Dev) (o : Out) : (d.emit o).crypt = d.crypt := rfl

/-! `Dev.modSlot` -/
@[simp] theorem Dev.modSlot_now (d : Dev) (n : Nat) (f : Slot → Slot) : (d.modSlot n f).now = d.now := rfl
@[simp] theorem Dev.modSlot_boundary (d : Dev) (n : Nat) (f : Slot → Slot) : (d.modSlot n f).boundary = d.boundary := rfl
@[simp] theorem Dev.modSlot_free (d : Dev) (n : Nat) (f : Slot → Slot) : (d.modSlot n f).free = d.free := rfl
@[simp] theorem Dev.modSlot_out (d : Dev) (n : Nat) (f : Slot → Slot) : (d.modSlot n f).out = d.out := rfl
@[simp] theorem Dev.modSlot_cfg (d : Dev) (n : Nat) (f : Slot → Slot) : (d.modSlot n f).cfg = d.cfg := rfl
@[simp] theorem Dev.modSlot_quilt (d : Dev) (n : Nat) (f : Slot → Slot) : (d.modSlot n f).quilt = d.quilt := rfl
@[simp] theorem Dev.modSlot_power (d : Dev) (n : Nat) (f : Slot → Slot) : (d.modSlot n f).power = d.power := rfl
@[simp] theorem Dev.modSlot_boot (d : Dev) (n : Nat) (f : Slot → Slot) : (d.modSlot n f).boot = d.boot := rfl
@[simp] theorem Dev.modSlot_otp (d : Dev) (n : Nat) (f : Slot → Slot) : (d.modSlot n f).otp = d.otp := rfl
@[simp] theorem Dev.modSlot_mon (d : Dev) (n : Nat) (f : Slot → Slot) : (d.modSlot n f).mon = d.mon := rfl
@[simp] theorem Dev.modSlot_time (d : Dev) (n : Nat) (f : Slot → Slot) : (d.modSlot n f).time = d.time := rfl
@[simp] theorem Dev.modSlot_conv (d : Dev) (n : Nat) (f : Slot → Slot) : (d.modSlot n f).conv = d.conv := rfl
@[simp] theorem Dev.modSlot_line (d : Dev) (n : Nat) (f : Slot → Slot) : (d.modSlot n f).line = d.line := rfl
@[simp] theorem Dev.modSlot_scs (d : Dev) (n : Nat) (f : Slot → Slot) : (d.modSlot n f).scs = d.scs := rfl
@[simp] theorem Dev.modSlot_conts (d : Dev) (n : Nat) (f : Slot → Slot) : (d.modSlot n f).conts = d.conts := rfl
@[simp] theorem Dev.modSlot_ohd (d : Dev) (n : Nat) (f : Slot → Slot) : (d.modSlot n f).ohd = d.ohd := rfl
@[simp] theorem Dev.modSlot_ref (d : Dev) (n : Nat) (f : Slot → Slot) : (d.modSlot n f).ref = d.ref := rfl
@[simp] theorem Dev.modSlot_lane (d : Dev) (n : Nat) (f : Slot → Slot) : (d.modSlot n f).lane = d.lane := rfl
@[simp] theorem Dev.modSlot_pkt (d : Dev) (n : Nat) (f : Slot → Slot) : (d.modSlot n f).pkt = d.pkt := rfl
@[simp] theorem Dev.modSlot_mem (d : Dev) (n : Nat) (f : Slot → Slot) : (d.modSlot n f).mem = d.mem := rfl
@[simp] theorem Dev.modSlot_crypt (d : Dev) (n : Nat) (f : Slot → Slot) : (d.modSlot n f).crypt = d.crypt := rfl

/-! `Dev.modIrq` -/
@[simp] theorem Dev.modIrq_now (d : Dev) (f : IrqSt → IrqSt) : (d.modIrq f).now = d.now := rfl
@[simp] theorem Dev.modIrq_boundary (d : Dev) (f : IrqSt → IrqSt) : (d.modIrq f).boundary = d.boundary := rfl
@[simp] theorem Dev.modIrq_free (d : Dev) (f : IrqSt → IrqSt) : (d.modIrq f).free = d.free := rfl
@[simp] theorem Dev.modIrq_out (d : Dev) (f : IrqSt → IrqSt) : (d.modIrq f).out = d.out := rfl
@[simp] theorem Dev.modIrq_ctl (d : Dev) (f : IrqSt → IrqSt) : (d.modIrq f).ctl = { d.ctl with irq := f d.ctl.irq } := rfl
@[simp] theorem Dev.modIrq_cfg (d : Dev) (f : IrqSt → IrqSt) : (d.modIrq f).cfg = d.cfg := rfl
@[simp] theorem Dev.modIrq_quilt (d : Dev) (f : IrqSt → IrqSt) : (d.modIrq f).quilt = d.quilt := rfl
@[simp] theorem Dev.modIrq_power (d : Dev) (f : IrqSt → IrqSt) : (d.modIrq f).power = d.power := rfl
@[simp] theorem Dev.modIrq_boot (d : Dev) (f : IrqSt → IrqSt) : (d.modIrq f).boot = d.boot := rfl
@[simp] theorem Dev.modIrq_otp (d : Dev) (f : IrqSt → IrqSt) : (d.modIrq f).otp = d.otp := rfl
@[simp] theorem Dev.modIrq_mon (d : Dev) (f : IrqSt → IrqSt) : (d.modIrq f).mon = d.mon := rfl
@[simp] theorem Dev.modIrq_time (d : Dev) (f : IrqSt → IrqSt) : (d.modIrq f).time = d.time := rfl
@[simp] theorem Dev.modIrq_conv (d : Dev) (f : IrqSt → IrqSt) : (d.modIrq f).conv = d.conv := rfl
@[simp] theorem Dev.modIrq_line (d : Dev) (f : IrqSt → IrqSt) : (d.modIrq f).line = d.line := rfl
@[simp] theorem Dev.modIrq_scs (d : Dev) (f : IrqSt → IrqSt) : (d.modIrq f).scs = d.scs := rfl
@[simp] theorem Dev.modIrq_conts (d : Dev) (f : IrqSt → IrqSt) : (d.modIrq f).conts = d.conts := rfl
@[simp] theorem Dev.modIrq_ohd (d : Dev) (f : IrqSt → IrqSt) : (d.modIrq f).ohd = d.ohd := rfl
@[simp] theorem Dev.modIrq_ref (d : Dev) (f : IrqSt → IrqSt) : (d.modIrq f).ref = d.ref := rfl
@[simp] theorem Dev.modIrq_lane (d : Dev) (f : IrqSt → IrqSt) : (d.modIrq f).lane = d.lane := rfl
@[simp] theorem Dev.modIrq_pkt (d : Dev) (f : IrqSt → IrqSt) : (d.modIrq f).pkt = d.pkt := rfl
@[simp] theorem Dev.modIrq_mem (d : Dev) (f : IrqSt → IrqSt) : (d.modIrq f).mem = d.mem := rfl
@[simp] theorem Dev.modIrq_crypt (d : Dev) (f : IrqSt → IrqSt) : (d.modIrq f).crypt = d.crypt := rfl

/-! `Dev.setConf` -/
@[simp] theorem Dev.setConf_now (d : Dev) (f : Fld) (i v : Nat) : (d.setConf f i v).now = d.now := rfl
@[simp] theorem Dev.setConf_boundary (d : Dev) (f : Fld) (i v : Nat) : (d.setConf f i v).boundary = d.boundary := rfl
@[simp] theorem Dev.setConf_free (d : Dev) (f : Fld) (i v : Nat) : (d.setConf f i v).free = d.free := rfl
@[simp] theorem Dev.setConf_out (d : Dev) (f : Fld) (i v : Nat) : (d.setConf f i v).out = d.out := rfl
@[simp] theorem Dev.setConf_ctl (d : Dev) (f : Fld) (i v : Nat) : (d.setConf f i v).ctl = d.ctl := rfl
@[simp] theorem Dev.setConf_quilt (d : Dev) (f : Fld) (i v : Nat) : (d.setConf f i v).quilt = d.quilt := rfl
@[simp] theorem Dev.setConf_power (d : Dev) (f : Fld) (i v : Nat) : (d.setConf f i v).power = d.power := rfl
@[simp] theorem Dev.setConf_boot (d : Dev) (f : Fld) (i v : Nat) : (d.setConf f i v).boot = d.boot := rfl
@[simp] theorem Dev.setConf_otp (d : Dev) (f : Fld) (i v : Nat) : (d.setConf f i v).otp = d.otp := rfl
@[simp] theorem Dev.setConf_mon (d : Dev) (f : Fld) (i v : Nat) : (d.setConf f i v).mon = d.mon := rfl
@[simp] theorem Dev.setConf_time (d : Dev) (f : Fld) (i v : Nat) : (d.setConf f i v).time = d.time := rfl
@[simp] theorem Dev.setConf_conv (d : Dev) (f : Fld) (i v : Nat) : (d.setConf f i v).conv = d.conv := rfl
@[simp] theorem Dev.setConf_line (d : Dev) (f : Fld) (i v : Nat) : (d.setConf f i v).line = d.line := rfl
@[simp] theorem Dev.setConf_scs (d : Dev) (f : Fld) (i v : Nat) : (d.setConf f i v).scs = d.scs := rfl
@[simp] theorem Dev.setConf_conts (d : Dev) (f : Fld) (i v : Nat) : (d.setConf f i v).conts = d.conts := rfl
@[simp] theorem Dev.setConf_ohd (d : Dev) (f : Fld) (i v : Nat) : (d.setConf f i v).ohd = d.ohd := rfl
@[simp] theorem Dev.setConf_ref (d : Dev) (f : Fld) (i v : Nat) : (d.setConf f i v).ref = d.ref := rfl
@[simp] theorem Dev.setConf_lane (d : Dev) (f : Fld) (i v : Nat) : (d.setConf f i v).lane = d.lane := rfl
@[simp] theorem Dev.setConf_pkt (d : Dev) (f : Fld) (i v : Nat) : (d.setConf f i v).pkt = d.pkt := rfl
@[simp] theorem Dev.setConf_mem (d : Dev) (f : Fld) (i v : Nat) : (d.setConf f i v).mem = d.mem := rfl
@[simp] theorem Dev.setConf_crypt (d : Dev) (f : Fld) (i v : Nat) : (d.setConf f i v).crypt = d.crypt := rfl

/-! `Dev.modQuilt` -/
@[simp] theorem Dev.modQuilt_now (d : Dev) (f : QuiltSt → QuiltSt) : (d.modQuilt f).now = d.now := rfl
@[simp] theorem Dev.modQuilt_boundary (d : Dev) (f : QuiltSt → QuiltSt) : (d.modQuilt f).boundary = d.boundary := rfl
@[simp] theorem Dev.modQuilt_free (d : Dev) (f : QuiltSt → QuiltSt) : (d.modQuilt f).free = d.free := rfl
@[simp] theorem Dev.modQuilt_out (d : Dev) (f : QuiltSt → QuiltSt) : (d.modQuilt f).out = d.out := rfl
@[simp] theorem Dev.modQuilt_ctl (d : Dev) (f : QuiltSt → QuiltSt) : (d.modQuilt f).ctl = d.ctl := rfl
@[simp] theorem Dev.modQuilt_cfg (d : Dev) (f : QuiltSt → QuiltSt) : (d.modQuilt f).cfg = d.cfg := rfl
@[simp] theorem Dev.modQuilt_quilt (d : Dev) (f : QuiltSt → QuiltSt) : (d.modQuilt f).quilt = f d.quilt := rfl
@[simp] theorem Dev.modQuilt_power (d : Dev) (f : QuiltSt → QuiltSt) : (d.modQuilt f).power = d.power := rfl
@[simp] theorem Dev.modQuilt_boot (d : Dev) (f : QuiltSt → QuiltSt) : (d.modQuilt f).boot = d.boot := rfl
@[simp] theorem Dev.modQuilt_otp (d : Dev) (f : QuiltSt → QuiltSt) : (d.modQuilt f).otp = d.otp := rfl
@[simp] theorem Dev.modQuilt_mon (d : Dev) (f : QuiltSt → QuiltSt) : (d.modQuilt f).mon = d.mon := rfl
@[simp] theorem Dev.modQuilt_time (d : Dev) (f : QuiltSt → QuiltSt) : (d.modQuilt f).time = d.time := rfl
@[simp] theorem Dev.modQuilt_conv (d : Dev) (f : QuiltSt → QuiltSt) : (d.modQuilt f).conv = d.conv := rfl
@[simp] theorem Dev.modQuilt_line (d : Dev) (f : QuiltSt → QuiltSt) : (d.modQuilt f).line = d.line := rfl
@[simp] theorem Dev.modQuilt_scs (d : Dev) (f : QuiltSt → QuiltSt) : (d.modQuilt f).scs = d.scs := rfl
@[simp] theorem Dev.modQuilt_conts (d : Dev) (f : QuiltSt → QuiltSt) : (d.modQuilt f).conts = d.conts := rfl
@[simp] theorem Dev.modQuilt_ohd (d : Dev) (f : QuiltSt → QuiltSt) : (d.modQuilt f).ohd = d.ohd := rfl
@[simp] theorem Dev.modQuilt_ref (d : Dev) (f : QuiltSt → QuiltSt) : (d.modQuilt f).ref = d.ref := rfl
@[simp] theorem Dev.modQuilt_lane (d : Dev) (f : QuiltSt → QuiltSt) : (d.modQuilt f).lane = d.lane := rfl
@[simp] theorem Dev.modQuilt_pkt (d : Dev) (f : QuiltSt → QuiltSt) : (d.modQuilt f).pkt = d.pkt := rfl
@[simp] theorem Dev.modQuilt_mem (d : Dev) (f : QuiltSt → QuiltSt) : (d.modQuilt f).mem = d.mem := rfl
@[simp] theorem Dev.modQuilt_crypt (d : Dev) (f : QuiltSt → QuiltSt) : (d.modQuilt f).crypt = d.crypt := rfl

/-! `Dev.modLink` -/
@[simp] theorem Dev.modLink_now (d : Dev) (k : Nat) (f : LinkSt → LinkSt) : (d.modLink k f).now = d.now := rfl
@[simp] theorem Dev.modLink_boundary (d : Dev) (k : Nat) (f : LinkSt → LinkSt) : (d.modLink k f).boundary = d.boundary := rfl
@[simp] theorem Dev.modLink_free (d : Dev) (k : Nat) (f : LinkSt → LinkSt) : (d.modLink k f).free = d.free := rfl
@[simp] theorem Dev.modLink_out (d : Dev) (k : Nat) (f : LinkSt → LinkSt) : (d.modLink k f).out = d.out := rfl
@[simp] theorem Dev.modLink_ctl (d : Dev) (k : Nat) (f : LinkSt → LinkSt) : (d.modLink k f).ctl = d.ctl := rfl
@[simp] theorem Dev.modLink_cfg (d : Dev) (k : Nat) (f : LinkSt → LinkSt) : (d.modLink k f).cfg = d.cfg := rfl
@[simp] theorem Dev.modLink_power (d : Dev) (k : Nat) (f : LinkSt → LinkSt) : (d.modLink k f).power = d.power := rfl
@[simp] theorem Dev.modLink_boot (d : Dev) (k : Nat) (f : LinkSt → LinkSt) : (d.modLink k f).boot = d.boot := rfl
@[simp] theorem Dev.modLink_otp (d : Dev) (k : Nat) (f : LinkSt → LinkSt) : (d.modLink k f).otp = d.otp := rfl
@[simp] theorem Dev.modLink_mon (d : Dev) (k : Nat) (f : LinkSt → LinkSt) : (d.modLink k f).mon = d.mon := rfl
@[simp] theorem Dev.modLink_time (d : Dev) (k : Nat) (f : LinkSt → LinkSt) : (d.modLink k f).time = d.time := rfl
@[simp] theorem Dev.modLink_conv (d : Dev) (k : Nat) (f : LinkSt → LinkSt) : (d.modLink k f).conv = d.conv := rfl
@[simp] theorem Dev.modLink_line (d : Dev) (k : Nat) (f : LinkSt → LinkSt) : (d.modLink k f).line = d.line := rfl
@[simp] theorem Dev.modLink_scs (d : Dev) (k : Nat) (f : LinkSt → LinkSt) : (d.modLink k f).scs = d.scs := rfl
@[simp] theorem Dev.modLink_conts (d : Dev) (k : Nat) (f : LinkSt → LinkSt) : (d.modLink k f).conts = d.conts := rfl
@[simp] theorem Dev.modLink_ohd (d : Dev) (k : Nat) (f : LinkSt → LinkSt) : (d.modLink k f).ohd = d.ohd := rfl
@[simp] theorem Dev.modLink_ref (d : Dev) (k : Nat) (f : LinkSt → LinkSt) : (d.modLink k f).ref = d.ref := rfl
@[simp] theorem Dev.modLink_lane (d : Dev) (k : Nat) (f : LinkSt → LinkSt) : (d.modLink k f).lane = d.lane := rfl
@[simp] theorem Dev.modLink_pkt (d : Dev) (k : Nat) (f : LinkSt → LinkSt) : (d.modLink k f).pkt = d.pkt := rfl
@[simp] theorem Dev.modLink_mem (d : Dev) (k : Nat) (f : LinkSt → LinkSt) : (d.modLink k f).mem = d.mem := rfl
@[simp] theorem Dev.modLink_crypt (d : Dev) (k : Nat) (f : LinkSt → LinkSt) : (d.modLink k f).crypt = d.crypt := rfl

/-! `Dev.setUnit` -/
@[simp] theorem Dev.setUnit_now (d : Dev) (u : PowerUnit) (x : UnitSt) : (d.setUnit u x).now = d.now := rfl
@[simp] theorem Dev.setUnit_boundary (d : Dev) (u : PowerUnit) (x : UnitSt) : (d.setUnit u x).boundary = d.boundary := rfl
@[simp] theorem Dev.setUnit_free (d : Dev) (u : PowerUnit) (x : UnitSt) : (d.setUnit u x).free = d.free := rfl
@[simp] theorem Dev.setUnit_out (d : Dev) (u : PowerUnit) (x : UnitSt) : (d.setUnit u x).out = d.out := rfl
@[simp] theorem Dev.setUnit_ctl (d : Dev) (u : PowerUnit) (x : UnitSt) : (d.setUnit u x).ctl = d.ctl := rfl
@[simp] theorem Dev.setUnit_cfg (d : Dev) (u : PowerUnit) (x : UnitSt) : (d.setUnit u x).cfg = d.cfg := rfl
@[simp] theorem Dev.setUnit_quilt (d : Dev) (u : PowerUnit) (x : UnitSt) : (d.setUnit u x).quilt = d.quilt := rfl
@[simp] theorem Dev.setUnit_boot (d : Dev) (u : PowerUnit) (x : UnitSt) : (d.setUnit u x).boot = d.boot := rfl
@[simp] theorem Dev.setUnit_otp (d : Dev) (u : PowerUnit) (x : UnitSt) : (d.setUnit u x).otp = d.otp := rfl
@[simp] theorem Dev.setUnit_mon (d : Dev) (u : PowerUnit) (x : UnitSt) : (d.setUnit u x).mon = d.mon := rfl
@[simp] theorem Dev.setUnit_time (d : Dev) (u : PowerUnit) (x : UnitSt) : (d.setUnit u x).time = d.time := rfl
@[simp] theorem Dev.setUnit_conv (d : Dev) (u : PowerUnit) (x : UnitSt) : (d.setUnit u x).conv = d.conv := rfl
@[simp] theorem Dev.setUnit_line (d : Dev) (u : PowerUnit) (x : UnitSt) : (d.setUnit u x).line = d.line := rfl
@[simp] theorem Dev.setUnit_scs (d : Dev) (u : PowerUnit) (x : UnitSt) : (d.setUnit u x).scs = d.scs := rfl
@[simp] theorem Dev.setUnit_conts (d : Dev) (u : PowerUnit) (x : UnitSt) : (d.setUnit u x).conts = d.conts := rfl
@[simp] theorem Dev.setUnit_ohd (d : Dev) (u : PowerUnit) (x : UnitSt) : (d.setUnit u x).ohd = d.ohd := rfl
@[simp] theorem Dev.setUnit_ref (d : Dev) (u : PowerUnit) (x : UnitSt) : (d.setUnit u x).ref = d.ref := rfl
@[simp] theorem Dev.setUnit_lane (d : Dev) (u : PowerUnit) (x : UnitSt) : (d.setUnit u x).lane = d.lane := rfl
@[simp] theorem Dev.setUnit_pkt (d : Dev) (u : PowerUnit) (x : UnitSt) : (d.setUnit u x).pkt = d.pkt := rfl
@[simp] theorem Dev.setUnit_mem (d : Dev) (u : PowerUnit) (x : UnitSt) : (d.setUnit u x).mem = d.mem := rfl
@[simp] theorem Dev.setUnit_crypt (d : Dev) (u : PowerUnit) (x : UnitSt) : (d.setUnit u x).crypt = d.crypt := rfl

/-! `Dev.modPower` -/
@[simp] theorem Dev.modPower_now (d : Dev) (f : PowerSt → PowerSt) : (d.modPower f).now = d.now := rfl
@[simp] theorem Dev.modPower_boundary (d : Dev) (f : PowerSt → PowerSt) : (d.modPower f).boundary = d.boundary := rfl
@[simp] theorem Dev.modPower_free (d : Dev) (f : PowerSt → PowerSt) : (d.modPower f).free = d.free := rfl
@[simp] theorem Dev.modPower_out (d : Dev) (f : PowerSt → PowerSt) : (d.modPower f).out = d.out := rfl
@[simp] theorem Dev.modPower_ctl (d : Dev) (f : PowerSt → PowerSt) : (d.modPower f).ctl = d.ctl := rfl
@[simp] theorem Dev.modPower_cfg (d : Dev) (f : PowerSt → PowerSt) : (d.modPower f).cfg = d.cfg := rfl
@[simp] theorem Dev.modPower_quilt (d : Dev) (f : PowerSt → PowerSt) : (d.modPower f).quilt = d.quilt := rfl
@[simp] theorem Dev.modPower_power (d : Dev) (f : PowerSt → PowerSt) : (d.modPower f).power = f d.power := rfl
@[simp] theorem Dev.modPower_boot (d : Dev) (f : PowerSt → PowerSt) : (d.modPower f).boot = d.boot := rfl
@[simp] theorem Dev.modPower_otp (d : Dev) (f : PowerSt → PowerSt) : (d.modPower f).otp = d.otp := rfl
@[simp] theorem Dev.modPower_mon (d : Dev) (f : PowerSt → PowerSt) : (d.modPower f).mon = d.mon := rfl
@[simp] theorem Dev.modPower_time (d : Dev) (f : PowerSt → PowerSt) : (d.modPower f).time = d.time := rfl
@[simp] theorem Dev.modPower_conv (d : Dev) (f : PowerSt → PowerSt) : (d.modPower f).conv = d.conv := rfl
@[simp] theorem Dev.modPower_line (d : Dev) (f : PowerSt → PowerSt) : (d.modPower f).line = d.line := rfl
@[simp] theorem Dev.modPower_scs (d : Dev) (f : PowerSt → PowerSt) : (d.modPower f).scs = d.scs := rfl
@[simp] theorem Dev.modPower_conts (d : Dev) (f : PowerSt → PowerSt) : (d.modPower f).conts = d.conts := rfl
@[simp] theorem Dev.modPower_ohd (d : Dev) (f : PowerSt → PowerSt) : (d.modPower f).ohd = d.ohd := rfl
@[simp] theorem Dev.modPower_ref (d : Dev) (f : PowerSt → PowerSt) : (d.modPower f).ref = d.ref := rfl
@[simp] theorem Dev.modPower_lane (d : Dev) (f : PowerSt → PowerSt) : (d.modPower f).lane = d.lane := rfl
@[simp] theorem Dev.modPower_pkt (d : Dev) (f : PowerSt → PowerSt) : (d.modPower f).pkt = d.pkt := rfl
@[simp] theorem Dev.modPower_mem (d : Dev) (f : PowerSt → PowerSt) : (d.modPower f).mem = d.mem := rfl
@[simp] theorem Dev.modPower_crypt (d : Dev) (f : PowerSt → PowerSt) : (d.modPower f).crypt = d.crypt := rfl

/-! `Dev.modBoot` -/
@[simp] theorem Dev.modBoot_now (d : Dev) (f : BootSt → BootSt) : (d.modBoot f).now = d.now := rfl
@[simp] theorem Dev.modBoot_boundary (d : Dev) (f : BootSt → BootSt) : (d.modBoot f).boundary = d.boundary := rfl
@[simp] theorem Dev.modBoot_free (d : Dev) (f : BootSt → BootSt) : (d.modBoot f).free = d.free := rfl
@[simp] theorem Dev.modBoot_out (d : Dev) (f : BootSt → BootSt) : (d.modBoot f).out = d.out := rfl
@[simp] theorem Dev.modBoot_ctl (d : Dev) (f : BootSt → BootSt) : (d.modBoot f).ctl = d.ctl := rfl
@[simp] theorem Dev.modBoot_cfg (d : Dev) (f : BootSt → BootSt) : (d.modBoot f).cfg = d.cfg := rfl
@[simp] theorem Dev.modBoot_quilt (d : Dev) (f : BootSt → BootSt) : (d.modBoot f).quilt = d.quilt := rfl
@[simp] theorem Dev.modBoot_power (d : Dev) (f : BootSt → BootSt) : (d.modBoot f).power = d.power := rfl
@[simp] theorem Dev.modBoot_boot (d : Dev) (f : BootSt → BootSt) : (d.modBoot f).boot = f d.boot := rfl
@[simp] theorem Dev.modBoot_otp (d : Dev) (f : BootSt → BootSt) : (d.modBoot f).otp = d.otp := rfl
@[simp] theorem Dev.modBoot_mon (d : Dev) (f : BootSt → BootSt) : (d.modBoot f).mon = d.mon := rfl
@[simp] theorem Dev.modBoot_time (d : Dev) (f : BootSt → BootSt) : (d.modBoot f).time = d.time := rfl
@[simp] theorem Dev.modBoot_conv (d : Dev) (f : BootSt → BootSt) : (d.modBoot f).conv = d.conv := rfl
@[simp] theorem Dev.modBoot_line (d : Dev) (f : BootSt → BootSt) : (d.modBoot f).line = d.line := rfl
@[simp] theorem Dev.modBoot_scs (d : Dev) (f : BootSt → BootSt) : (d.modBoot f).scs = d.scs := rfl
@[simp] theorem Dev.modBoot_conts (d : Dev) (f : BootSt → BootSt) : (d.modBoot f).conts = d.conts := rfl
@[simp] theorem Dev.modBoot_ohd (d : Dev) (f : BootSt → BootSt) : (d.modBoot f).ohd = d.ohd := rfl
@[simp] theorem Dev.modBoot_ref (d : Dev) (f : BootSt → BootSt) : (d.modBoot f).ref = d.ref := rfl
@[simp] theorem Dev.modBoot_lane (d : Dev) (f : BootSt → BootSt) : (d.modBoot f).lane = d.lane := rfl
@[simp] theorem Dev.modBoot_pkt (d : Dev) (f : BootSt → BootSt) : (d.modBoot f).pkt = d.pkt := rfl
@[simp] theorem Dev.modBoot_mem (d : Dev) (f : BootSt → BootSt) : (d.modBoot f).mem = d.mem := rfl
@[simp] theorem Dev.modBoot_crypt (d : Dev) (f : BootSt → BootSt) : (d.modBoot f).crypt = d.crypt := rfl

/-! `Dev.modOtp` -/
@[simp] theorem Dev.modOtp_now (d : Dev) (f : OtpSt → OtpSt) : (d.modOtp f).now = d.now := rfl
@[simp] theorem Dev.modOtp_boundary (d : Dev) (f : OtpSt → OtpSt) : (d.modOtp f).boundary = d.boundary := rfl
@[simp] theorem Dev.modOtp_free (d : Dev) (f : OtpSt → OtpSt) : (d.modOtp f).free = d.free := rfl
@[simp] theorem Dev.modOtp_out (d : Dev) (f : OtpSt → OtpSt) : (d.modOtp f).out = d.out := rfl
@[simp] theorem Dev.modOtp_ctl (d : Dev) (f : OtpSt → OtpSt) : (d.modOtp f).ctl = d.ctl := rfl
@[simp] theorem Dev.modOtp_cfg (d : Dev) (f : OtpSt → OtpSt) : (d.modOtp f).cfg = d.cfg := rfl
@[simp] theorem Dev.modOtp_quilt (d : Dev) (f : OtpSt → OtpSt) : (d.modOtp f).quilt = d.quilt := rfl
@[simp] theorem Dev.modOtp_power (d : Dev) (f : OtpSt → OtpSt) : (d.modOtp f).power = d.power := rfl
@[simp] theorem Dev.modOtp_boot (d : Dev) (f : OtpSt → OtpSt) : (d.modOtp f).boot = d.boot := rfl
@[simp] theorem Dev.modOtp_otp (d : Dev) (f : OtpSt → OtpSt) : (d.modOtp f).otp = f d.otp := rfl
@[simp] theorem Dev.modOtp_mon (d : Dev) (f : OtpSt → OtpSt) : (d.modOtp f).mon = d.mon := rfl
@[simp] theorem Dev.modOtp_time (d : Dev) (f : OtpSt → OtpSt) : (d.modOtp f).time = d.time := rfl
@[simp] theorem Dev.modOtp_conv (d : Dev) (f : OtpSt → OtpSt) : (d.modOtp f).conv = d.conv := rfl
@[simp] theorem Dev.modOtp_line (d : Dev) (f : OtpSt → OtpSt) : (d.modOtp f).line = d.line := rfl
@[simp] theorem Dev.modOtp_scs (d : Dev) (f : OtpSt → OtpSt) : (d.modOtp f).scs = d.scs := rfl
@[simp] theorem Dev.modOtp_conts (d : Dev) (f : OtpSt → OtpSt) : (d.modOtp f).conts = d.conts := rfl
@[simp] theorem Dev.modOtp_ohd (d : Dev) (f : OtpSt → OtpSt) : (d.modOtp f).ohd = d.ohd := rfl
@[simp] theorem Dev.modOtp_ref (d : Dev) (f : OtpSt → OtpSt) : (d.modOtp f).ref = d.ref := rfl
@[simp] theorem Dev.modOtp_lane (d : Dev) (f : OtpSt → OtpSt) : (d.modOtp f).lane = d.lane := rfl
@[simp] theorem Dev.modOtp_pkt (d : Dev) (f : OtpSt → OtpSt) : (d.modOtp f).pkt = d.pkt := rfl
@[simp] theorem Dev.modOtp_mem (d : Dev) (f : OtpSt → OtpSt) : (d.modOtp f).mem = d.mem := rfl
@[simp] theorem Dev.modOtp_crypt (d : Dev) (f : OtpSt → OtpSt) : (d.modOtp f).crypt = d.crypt := rfl

/-! `Dev.modMon` -/
@[simp] theorem Dev.modMon_now (d : Dev) (f : MonSt → MonSt) : (d.modMon f).now = d.now := rfl
@[simp] theorem Dev.modMon_boundary (d : Dev) (f : MonSt → MonSt) : (d.modMon f).boundary = d.boundary := rfl
@[simp] theorem Dev.modMon_free (d : Dev) (f : MonSt → MonSt) : (d.modMon f).free = d.free := rfl
@[simp] theorem Dev.modMon_out (d : Dev) (f : MonSt → MonSt) : (d.modMon f).out = d.out := rfl
@[simp] theorem Dev.modMon_ctl (d : Dev) (f : MonSt → MonSt) : (d.modMon f).ctl = d.ctl := rfl
@[simp] theorem Dev.modMon_cfg (d : Dev) (f : MonSt → MonSt) : (d.modMon f).cfg = d.cfg := rfl
@[simp] theorem Dev.modMon_quilt (d : Dev) (f : MonSt → MonSt) : (d.modMon f).quilt = d.quilt := rfl
@[simp] theorem Dev.modMon_power (d : Dev) (f : MonSt → MonSt) : (d.modMon f).power = d.power := rfl
@[simp] theorem Dev.modMon_boot (d : Dev) (f : MonSt → MonSt) : (d.modMon f).boot = d.boot := rfl
@[simp] theorem Dev.modMon_otp (d : Dev) (f : MonSt → MonSt) : (d.modMon f).otp = d.otp := rfl
@[simp] theorem Dev.modMon_mon (d : Dev) (f : MonSt → MonSt) : (d.modMon f).mon = f d.mon := rfl
@[simp] theorem Dev.modMon_time (d : Dev) (f : MonSt → MonSt) : (d.modMon f).time = d.time := rfl
@[simp] theorem Dev.modMon_conv (d : Dev) (f : MonSt → MonSt) : (d.modMon f).conv = d.conv := rfl
@[simp] theorem Dev.modMon_line (d : Dev) (f : MonSt → MonSt) : (d.modMon f).line = d.line := rfl
@[simp] theorem Dev.modMon_scs (d : Dev) (f : MonSt → MonSt) : (d.modMon f).scs = d.scs := rfl
@[simp] theorem Dev.modMon_conts (d : Dev) (f : MonSt → MonSt) : (d.modMon f).conts = d.conts := rfl
@[simp] theorem Dev.modMon_ohd (d : Dev) (f : MonSt → MonSt) : (d.modMon f).ohd = d.ohd := rfl
@[simp] theorem Dev.modMon_ref (d : Dev) (f : MonSt → MonSt) : (d.modMon f).ref = d.ref := rfl
@[simp] theorem Dev.modMon_lane (d : Dev) (f : MonSt → MonSt) : (d.modMon f).lane = d.lane := rfl
@[simp] theorem Dev.modMon_pkt (d : Dev) (f : MonSt → MonSt) : (d.modMon f).pkt = d.pkt := rfl
@[simp] theorem Dev.modMon_mem (d : Dev) (f : MonSt → MonSt) : (d.modMon f).mem = d.mem := rfl
@[simp] theorem Dev.modMon_crypt (d : Dev) (f : MonSt → MonSt) : (d.modMon f).crypt = d.crypt := rfl

/-! `Dev.modTime` -/
@[simp] theorem Dev.modTime_now (d : Dev) (f : TimeSt → TimeSt) : (d.modTime f).now = d.now := rfl
@[simp] theorem Dev.modTime_boundary (d : Dev) (f : TimeSt → TimeSt) : (d.modTime f).boundary = d.boundary := rfl
@[simp] theorem Dev.modTime_free (d : Dev) (f : TimeSt → TimeSt) : (d.modTime f).free = d.free := rfl
@[simp] theorem Dev.modTime_out (d : Dev) (f : TimeSt → TimeSt) : (d.modTime f).out = d.out := rfl
@[simp] theorem Dev.modTime_ctl (d : Dev) (f : TimeSt → TimeSt) : (d.modTime f).ctl = d.ctl := rfl
@[simp] theorem Dev.modTime_cfg (d : Dev) (f : TimeSt → TimeSt) : (d.modTime f).cfg = d.cfg := rfl
@[simp] theorem Dev.modTime_quilt (d : Dev) (f : TimeSt → TimeSt) : (d.modTime f).quilt = d.quilt := rfl
@[simp] theorem Dev.modTime_power (d : Dev) (f : TimeSt → TimeSt) : (d.modTime f).power = d.power := rfl
@[simp] theorem Dev.modTime_boot (d : Dev) (f : TimeSt → TimeSt) : (d.modTime f).boot = d.boot := rfl
@[simp] theorem Dev.modTime_otp (d : Dev) (f : TimeSt → TimeSt) : (d.modTime f).otp = d.otp := rfl
@[simp] theorem Dev.modTime_mon (d : Dev) (f : TimeSt → TimeSt) : (d.modTime f).mon = d.mon := rfl
@[simp] theorem Dev.modTime_time (d : Dev) (f : TimeSt → TimeSt) : (d.modTime f).time = f d.time := rfl
@[simp] theorem Dev.modTime_conv (d : Dev) (f : TimeSt → TimeSt) : (d.modTime f).conv = d.conv := rfl
@[simp] theorem Dev.modTime_line (d : Dev) (f : TimeSt → TimeSt) : (d.modTime f).line = d.line := rfl
@[simp] theorem Dev.modTime_scs (d : Dev) (f : TimeSt → TimeSt) : (d.modTime f).scs = d.scs := rfl
@[simp] theorem Dev.modTime_conts (d : Dev) (f : TimeSt → TimeSt) : (d.modTime f).conts = d.conts := rfl
@[simp] theorem Dev.modTime_ohd (d : Dev) (f : TimeSt → TimeSt) : (d.modTime f).ohd = d.ohd := rfl
@[simp] theorem Dev.modTime_ref (d : Dev) (f : TimeSt → TimeSt) : (d.modTime f).ref = d.ref := rfl
@[simp] theorem Dev.modTime_lane (d : Dev) (f : TimeSt → TimeSt) : (d.modTime f).lane = d.lane := rfl
@[simp] theorem Dev.modTime_pkt (d : Dev) (f : TimeSt → TimeSt) : (d.modTime f).pkt = d.pkt := rfl
@[simp] theorem Dev.modTime_mem (d : Dev) (f : TimeSt → TimeSt) : (d.modTime f).mem = d.mem := rfl
@[simp] theorem Dev.modTime_crypt (d : Dev) (f : TimeSt → TimeSt) : (d.modTime f).crypt = d.crypt := rfl

/-! `Dev.modConv` -/
@[simp] theorem Dev.modConv_now (d : Dev) (f : ConvSt → ConvSt) : (d.modConv f).now = d.now := rfl
@[simp] theorem Dev.modConv_boundary (d : Dev) (f : ConvSt → ConvSt) : (d.modConv f).boundary = d.boundary := rfl
@[simp] theorem Dev.modConv_free (d : Dev) (f : ConvSt → ConvSt) : (d.modConv f).free = d.free := rfl
@[simp] theorem Dev.modConv_out (d : Dev) (f : ConvSt → ConvSt) : (d.modConv f).out = d.out := rfl
@[simp] theorem Dev.modConv_ctl (d : Dev) (f : ConvSt → ConvSt) : (d.modConv f).ctl = d.ctl := rfl
@[simp] theorem Dev.modConv_cfg (d : Dev) (f : ConvSt → ConvSt) : (d.modConv f).cfg = d.cfg := rfl
@[simp] theorem Dev.modConv_quilt (d : Dev) (f : ConvSt → ConvSt) : (d.modConv f).quilt = d.quilt := rfl
@[simp] theorem Dev.modConv_power (d : Dev) (f : ConvSt → ConvSt) : (d.modConv f).power = d.power := rfl
@[simp] theorem Dev.modConv_boot (d : Dev) (f : ConvSt → ConvSt) : (d.modConv f).boot = d.boot := rfl
@[simp] theorem Dev.modConv_otp (d : Dev) (f : ConvSt → ConvSt) : (d.modConv f).otp = d.otp := rfl
@[simp] theorem Dev.modConv_mon (d : Dev) (f : ConvSt → ConvSt) : (d.modConv f).mon = d.mon := rfl
@[simp] theorem Dev.modConv_time (d : Dev) (f : ConvSt → ConvSt) : (d.modConv f).time = d.time := rfl
@[simp] theorem Dev.modConv_conv (d : Dev) (f : ConvSt → ConvSt) : (d.modConv f).conv = f d.conv := rfl
@[simp] theorem Dev.modConv_line (d : Dev) (f : ConvSt → ConvSt) : (d.modConv f).line = d.line := rfl
@[simp] theorem Dev.modConv_scs (d : Dev) (f : ConvSt → ConvSt) : (d.modConv f).scs = d.scs := rfl
@[simp] theorem Dev.modConv_conts (d : Dev) (f : ConvSt → ConvSt) : (d.modConv f).conts = d.conts := rfl
@[simp] theorem Dev.modConv_ohd (d : Dev) (f : ConvSt → ConvSt) : (d.modConv f).ohd = d.ohd := rfl
@[simp] theorem Dev.modConv_ref (d : Dev) (f : ConvSt → ConvSt) : (d.modConv f).ref = d.ref := rfl
@[simp] theorem Dev.modConv_lane (d : Dev) (f : ConvSt → ConvSt) : (d.modConv f).lane = d.lane := rfl
@[simp] theorem Dev.modConv_pkt (d : Dev) (f : ConvSt → ConvSt) : (d.modConv f).pkt = d.pkt := rfl
@[simp] theorem Dev.modConv_mem (d : Dev) (f : ConvSt → ConvSt) : (d.modConv f).mem = d.mem := rfl
@[simp] theorem Dev.modConv_crypt (d : Dev) (f : ConvSt → ConvSt) : (d.modConv f).crypt = d.crypt := rfl

/-! `Dev.modLine` -/
@[simp] theorem Dev.modLine_now (d : Dev) (f : LineSt → LineSt) : (d.modLine f).now = d.now := rfl
@[simp] theorem Dev.modLine_boundary (d : Dev) (f : LineSt → LineSt) : (d.modLine f).boundary = d.boundary := rfl
@[simp] theorem Dev.modLine_free (d : Dev) (f : LineSt → LineSt) : (d.modLine f).free = d.free := rfl
@[simp] theorem Dev.modLine_out (d : Dev) (f : LineSt → LineSt) : (d.modLine f).out = d.out := rfl
@[simp] theorem Dev.modLine_ctl (d : Dev) (f : LineSt → LineSt) : (d.modLine f).ctl = d.ctl := rfl
@[simp] theorem Dev.modLine_cfg (d : Dev) (f : LineSt → LineSt) : (d.modLine f).cfg = d.cfg := rfl
@[simp] theorem Dev.modLine_quilt (d : Dev) (f : LineSt → LineSt) : (d.modLine f).quilt = d.quilt := rfl
@[simp] theorem Dev.modLine_power (d : Dev) (f : LineSt → LineSt) : (d.modLine f).power = d.power := rfl
@[simp] theorem Dev.modLine_boot (d : Dev) (f : LineSt → LineSt) : (d.modLine f).boot = d.boot := rfl
@[simp] theorem Dev.modLine_otp (d : Dev) (f : LineSt → LineSt) : (d.modLine f).otp = d.otp := rfl
@[simp] theorem Dev.modLine_mon (d : Dev) (f : LineSt → LineSt) : (d.modLine f).mon = d.mon := rfl
@[simp] theorem Dev.modLine_time (d : Dev) (f : LineSt → LineSt) : (d.modLine f).time = d.time := rfl
@[simp] theorem Dev.modLine_conv (d : Dev) (f : LineSt → LineSt) : (d.modLine f).conv = d.conv := rfl
@[simp] theorem Dev.modLine_line (d : Dev) (f : LineSt → LineSt) : (d.modLine f).line = f d.line := rfl
@[simp] theorem Dev.modLine_scs (d : Dev) (f : LineSt → LineSt) : (d.modLine f).scs = d.scs := rfl
@[simp] theorem Dev.modLine_conts (d : Dev) (f : LineSt → LineSt) : (d.modLine f).conts = d.conts := rfl
@[simp] theorem Dev.modLine_ohd (d : Dev) (f : LineSt → LineSt) : (d.modLine f).ohd = d.ohd := rfl
@[simp] theorem Dev.modLine_ref (d : Dev) (f : LineSt → LineSt) : (d.modLine f).ref = d.ref := rfl
@[simp] theorem Dev.modLine_lane (d : Dev) (f : LineSt → LineSt) : (d.modLine f).lane = d.lane := rfl
@[simp] theorem Dev.modLine_pkt (d : Dev) (f : LineSt → LineSt) : (d.modLine f).pkt = d.pkt := rfl
@[simp] theorem Dev.modLine_mem (d : Dev) (f : LineSt → LineSt) : (d.modLine f).mem = d.mem := rfl
@[simp] theorem Dev.modLine_crypt (d : Dev) (f : LineSt → LineSt) : (d.modLine f).crypt = d.crypt := rfl

/-! `Dev.modSc` -/
@[simp] theorem Dev.modSc_now (d : Dev) (n : Nat) (f : ScSt → ScSt) : (d.modSc n f).now = d.now := rfl
@[simp] theorem Dev.modSc_boundary (d : Dev) (n : Nat) (f : ScSt → ScSt) : (d.modSc n f).boundary = d.boundary := rfl
@[simp] theorem Dev.modSc_free (d : Dev) (n : Nat) (f : ScSt → ScSt) : (d.modSc n f).free = d.free := rfl
@[simp] theorem Dev.modSc_out (d : Dev) (n : Nat) (f : ScSt → ScSt) : (d.modSc n f).out = d.out := rfl
@[simp] theorem Dev.modSc_ctl (d : Dev) (n : Nat) (f : ScSt → ScSt) : (d.modSc n f).ctl = d.ctl := rfl
@[simp] theorem Dev.modSc_cfg (d : Dev) (n : Nat) (f : ScSt → ScSt) : (d.modSc n f).cfg = d.cfg := rfl
@[simp] theorem Dev.modSc_quilt (d : Dev) (n : Nat) (f : ScSt → ScSt) : (d.modSc n f).quilt = d.quilt := rfl
@[simp] theorem Dev.modSc_power (d : Dev) (n : Nat) (f : ScSt → ScSt) : (d.modSc n f).power = d.power := rfl
@[simp] theorem Dev.modSc_boot (d : Dev) (n : Nat) (f : ScSt → ScSt) : (d.modSc n f).boot = d.boot := rfl
@[simp] theorem Dev.modSc_otp (d : Dev) (n : Nat) (f : ScSt → ScSt) : (d.modSc n f).otp = d.otp := rfl
@[simp] theorem Dev.modSc_mon (d : Dev) (n : Nat) (f : ScSt → ScSt) : (d.modSc n f).mon = d.mon := rfl
@[simp] theorem Dev.modSc_time (d : Dev) (n : Nat) (f : ScSt → ScSt) : (d.modSc n f).time = d.time := rfl
@[simp] theorem Dev.modSc_conv (d : Dev) (n : Nat) (f : ScSt → ScSt) : (d.modSc n f).conv = d.conv := rfl
@[simp] theorem Dev.modSc_line (d : Dev) (n : Nat) (f : ScSt → ScSt) : (d.modSc n f).line = d.line := rfl
@[simp] theorem Dev.modSc_scs (d : Dev) (n : Nat) (f : ScSt → ScSt) : (d.modSc n f).scs = d.scs.modify (fun _ => {}) n f := rfl
@[simp] theorem Dev.modSc_conts (d : Dev) (n : Nat) (f : ScSt → ScSt) : (d.modSc n f).conts = d.conts := rfl
@[simp] theorem Dev.modSc_ohd (d : Dev) (n : Nat) (f : ScSt → ScSt) : (d.modSc n f).ohd = d.ohd := rfl
@[simp] theorem Dev.modSc_ref (d : Dev) (n : Nat) (f : ScSt → ScSt) : (d.modSc n f).ref = d.ref := rfl
@[simp] theorem Dev.modSc_lane (d : Dev) (n : Nat) (f : ScSt → ScSt) : (d.modSc n f).lane = d.lane := rfl
@[simp] theorem Dev.modSc_pkt (d : Dev) (n : Nat) (f : ScSt → ScSt) : (d.modSc n f).pkt = d.pkt := rfl
@[simp] theorem Dev.modSc_mem (d : Dev) (n : Nat) (f : ScSt → ScSt) : (d.modSc n f).mem = d.mem := rfl
@[simp] theorem Dev.modSc_crypt (d : Dev) (n : Nat) (f : ScSt → ScSt) : (d.modSc n f).crypt = d.crypt := rfl

/-! `Dev.modCont` -/
@[simp] theorem Dev.modCont_now (d : Dev) (n : Nat) (rx : Bool) (f : ContSt → ContSt) : (d.modCont n rx f).now = d.now := rfl
@[simp] theorem Dev.modCont_boundary (d : Dev) (n : Nat) (rx : Bool) (f : ContSt → ContSt) : (d.modCont n rx f).boundary = d.boundary := rfl
@[simp] theorem Dev.modCont_free (d : Dev) (n : Nat) (rx : Bool) (f : ContSt → ContSt) : (d.modCont n rx f).free = d.free := rfl
@[simp] theorem Dev.modCont_out (d : Dev) (n : Nat) (rx : Bool) (f : ContSt → ContSt) : (d.modCont n rx f).out = d.out := rfl
@[simp] theorem Dev.modCont_ctl (d : Dev) (n : Nat) (rx : Bool) (f : ContSt → ContSt) : (d.modCont n rx f).ctl = d.ctl := rfl
@[simp] theorem Dev.modCont_cfg (d : Dev) (n : Nat) (rx : Bool) (f : ContSt → ContSt) : (d.modCont n rx f).cfg = d.cfg := rfl
@[simp] theorem Dev.modCont_quilt (d : Dev) (n : Nat) (rx : Bool) (f : ContSt → ContSt) : (d.modCont n rx f).quilt = d.quilt := rfl
@[simp] theorem Dev.modCont_power (d : Dev) (n : Nat) (rx : Bool) (f : ContSt → ContSt) : (d.modCont n rx f).power = d.power := rfl
@[simp] theorem Dev.modCont_boot (d : Dev) (n : Nat) (rx : Bool) (f : ContSt → ContSt) : (d.modCont n rx f).boot = d.boot := rfl
@[simp] theorem Dev.modCont_otp (d : Dev) (n : Nat) (rx : Bool) (f : ContSt → ContSt) : (d.modCont n rx f).otp = d.otp := rfl
@[simp] theorem Dev.modCont_mon (d : Dev) (n : Nat) (rx : Bool) (f : ContSt → ContSt) : (d.modCont n rx f).mon = d.mon := rfl
@[simp] theorem Dev.modCont_time (d : Dev) (n : Nat) (rx : Bool) (f : ContSt → ContSt) : (d.modCont n rx f).time = d.time := rfl
@[simp] theorem Dev.modCont_conv (d : Dev) (n : Nat) (rx : Bool) (f : ContSt → ContSt) : (d.modCont n rx f).conv = d.conv := rfl
@[simp] theorem Dev.modCont_line (d : Dev) (n : Nat) (rx : Bool) (f : ContSt → ContSt) : (d.modCont n rx f).line = d.line := rfl
@[simp] theorem Dev.modCont_scs (d : Dev) (n : Nat) (rx : Bool) (f : ContSt → ContSt) : (d.modCont n rx f).scs = d.scs := rfl
@[simp] theorem Dev.modCont_conts (d : Dev) (n : Nat) (rx : Bool) (f : ContSt → ContSt) : (d.modCont n rx f).conts = d.conts.modify (fun _ => {}) (2 * n + b2n rx) f := rfl
@[simp] theorem Dev.modCont_ohd (d : Dev) (n : Nat) (rx : Bool) (f : ContSt → ContSt) : (d.modCont n rx f).ohd = d.ohd := rfl
@[simp] theorem Dev.modCont_ref (d : Dev) (n : Nat) (rx : Bool) (f : ContSt → ContSt) : (d.modCont n rx f).ref = d.ref := rfl
@[simp] theorem Dev.modCont_lane (d : Dev) (n : Nat) (rx : Bool) (f : ContSt → ContSt) : (d.modCont n rx f).lane = d.lane := rfl
@[simp] theorem Dev.modCont_pkt (d : Dev) (n : Nat) (rx : Bool) (f : ContSt → ContSt) : (d.modCont n rx f).pkt = d.pkt := rfl
@[simp] theorem Dev.modCont_mem (d : Dev) (n : Nat) (rx : Bool) (f : ContSt → ContSt) : (d.modCont n rx f).mem = d.mem := rfl
@[simp] theorem Dev.modCont_crypt (d : Dev) (n : Nat) (rx : Bool) (f : ContSt → ContSt) : (d.modCont n rx f).crypt = d.crypt := rfl

/-! `Dev.modOver` -/
@[simp] theorem Dev.modOver_now (d : Dev) (f : OverSt → OverSt) : (d.modOver f).now = d.now := rfl
@[simp] theorem Dev.modOver_boundary (d : Dev) (f : OverSt → OverSt) : (d.modOver f).boundary = d.boundary := rfl
@[simp] theorem Dev.modOver_free (d : Dev) (f : OverSt → OverSt) : (d.modOver f).free = d.free := rfl
@[simp] theorem Dev.modOver_out (d : Dev) (f : OverSt → OverSt) : (d.modOver f).out = d.out := rfl
@[simp] theorem Dev.modOver_ctl (d : Dev) (f : OverSt → OverSt) : (d.modOver f).ctl = d.ctl := rfl
@[simp] theorem Dev.modOver_cfg (d : Dev) (f : OverSt → OverSt) : (d.modOver f).cfg = d.cfg := rfl
@[simp] theorem Dev.modOver_quilt (d : Dev) (f : OverSt → OverSt) : (d.modOver f).quilt = d.quilt := rfl
@[simp] theorem Dev.modOver_power (d : Dev) (f : OverSt → OverSt) : (d.modOver f).power = d.power := rfl
@[simp] theorem Dev.modOver_boot (d : Dev) (f : OverSt → OverSt) : (d.modOver f).boot = d.boot := rfl
@[simp] theorem Dev.modOver_otp (d : Dev) (f : OverSt → OverSt) : (d.modOver f).otp = d.otp := rfl
@[simp] theorem Dev.modOver_mon (d : Dev) (f : OverSt → OverSt) : (d.modOver f).mon = d.mon := rfl
@[simp] theorem Dev.modOver_time (d : Dev) (f : OverSt → OverSt) : (d.modOver f).time = d.time := rfl
@[simp] theorem Dev.modOver_conv (d : Dev) (f : OverSt → OverSt) : (d.modOver f).conv = d.conv := rfl
@[simp] theorem Dev.modOver_line (d : Dev) (f : OverSt → OverSt) : (d.modOver f).line = d.line := rfl
@[simp] theorem Dev.modOver_scs (d : Dev) (f : OverSt → OverSt) : (d.modOver f).scs = d.scs := rfl
@[simp] theorem Dev.modOver_conts (d : Dev) (f : OverSt → OverSt) : (d.modOver f).conts = d.conts := rfl
@[simp] theorem Dev.modOver_ohd (d : Dev) (f : OverSt → OverSt) : (d.modOver f).ohd = f d.ohd := rfl
@[simp] theorem Dev.modOver_ref (d : Dev) (f : OverSt → OverSt) : (d.modOver f).ref = d.ref := rfl
@[simp] theorem Dev.modOver_lane (d : Dev) (f : OverSt → OverSt) : (d.modOver f).lane = d.lane := rfl
@[simp] theorem Dev.modOver_pkt (d : Dev) (f : OverSt → OverSt) : (d.modOver f).pkt = d.pkt := rfl
@[simp] theorem Dev.modOver_mem (d : Dev) (f : OverSt → OverSt) : (d.modOver f).mem = d.mem := rfl
@[simp] theorem Dev.modOver_crypt (d : Dev) (f : OverSt → OverSt) : (d.modOver f).crypt = d.crypt := rfl

/-! `Dev.modRef` -/
@[simp] theorem Dev.modRef_now (d : Dev) (f : RefSt → RefSt) : (d.modRef f).now = d.now := rfl
@[simp] theorem Dev.modRef_boundary (d : Dev) (f : RefSt → RefSt) : (d.modRef f).boundary = d.boundary := rfl
@[simp] theorem Dev.modRef_free (d : Dev) (f : RefSt → RefSt) : (d.modRef f).free = d.free := rfl
@[simp] theorem Dev.modRef_out (d : Dev) (f : RefSt → RefSt) : (d.modRef f).out = d.out := rfl
@[simp] theorem Dev.modRef_ctl (d : Dev) (f : RefSt → RefSt) : (d.modRef f).ctl = d.ctl := rfl
@[simp] theorem Dev.modRef_cfg (d : Dev) (f : RefSt → RefSt) : (d.modRef f).cfg = d.cfg := rfl
@[simp] theorem Dev.modRef_quilt (d : Dev) (f : RefSt → RefSt) : (d.modRef f).quilt = d.quilt := rfl
@[simp] theorem Dev.modRef_power (d : Dev) (f : RefSt → RefSt) : (d.modRef f).power = d.power := rfl
@[simp] theorem Dev.modRef_boot (d : Dev) (f : RefSt → RefSt) : (d.modRef f).boot = d.boot := rfl
@[simp] theorem Dev.modRef_otp (d : Dev) (f : RefSt → RefSt) : (d.modRef f).otp = d.otp := rfl
@[simp] theorem Dev.modRef_mon (d : Dev) (f : RefSt → RefSt) : (d.modRef f).mon = d.mon := rfl
@[simp] theorem Dev.modRef_time (d : Dev) (f : RefSt → RefSt) : (d.modRef f).time = d.time := rfl
@[simp] theorem Dev.modRef_conv (d : Dev) (f : RefSt → RefSt) : (d.modRef f).conv = d.conv := rfl
@[simp] theorem Dev.modRef_line (d : Dev) (f : RefSt → RefSt) : (d.modRef f).line = d.line := rfl
@[simp] theorem Dev.modRef_scs (d : Dev) (f : RefSt → RefSt) : (d.modRef f).scs = d.scs := rfl
@[simp] theorem Dev.modRef_conts (d : Dev) (f : RefSt → RefSt) : (d.modRef f).conts = d.conts := rfl
@[simp] theorem Dev.modRef_ohd (d : Dev) (f : RefSt → RefSt) : (d.modRef f).ohd = d.ohd := rfl
@[simp] theorem Dev.modRef_ref (d : Dev) (f : RefSt → RefSt) : (d.modRef f).ref = f d.ref := rfl
@[simp] theorem Dev.modRef_lane (d : Dev) (f : RefSt → RefSt) : (d.modRef f).lane = d.lane := rfl
@[simp] theorem Dev.modRef_pkt (d : Dev) (f : RefSt → RefSt) : (d.modRef f).pkt = d.pkt := rfl
@[simp] theorem Dev.modRef_mem (d : Dev) (f : RefSt → RefSt) : (d.modRef f).mem = d.mem := rfl
@[simp] theorem Dev.modRef_crypt (d : Dev) (f : RefSt → RefSt) : (d.modRef f).crypt = d.crypt := rfl

/-! `Dev.modLanes` -/
@[simp] theorem Dev.modLanes_now (d : Dev) (f : LaneAll → LaneAll) : (d.modLanes f).now = d.now := rfl
@[simp] theorem Dev.modLanes_boundary (d : Dev) (f : LaneAll → LaneAll) : (d.modLanes f).boundary = d.boundary := rfl
@[simp] theorem Dev.modLanes_free (d : Dev) (f : LaneAll → LaneAll) : (d.modLanes f).free = d.free := rfl
@[simp] theorem Dev.modLanes_out (d : Dev) (f : LaneAll → LaneAll) : (d.modLanes f).out = d.out := rfl
@[simp] theorem Dev.modLanes_ctl (d : Dev) (f : LaneAll → LaneAll) : (d.modLanes f).ctl = d.ctl := rfl
@[simp] theorem Dev.modLanes_cfg (d : Dev) (f : LaneAll → LaneAll) : (d.modLanes f).cfg = d.cfg := rfl
@[simp] theorem Dev.modLanes_quilt (d : Dev) (f : LaneAll → LaneAll) : (d.modLanes f).quilt = d.quilt := rfl
@[simp] theorem Dev.modLanes_power (d : Dev) (f : LaneAll → LaneAll) : (d.modLanes f).power = d.power := rfl
@[simp] theorem Dev.modLanes_boot (d : Dev) (f : LaneAll → LaneAll) : (d.modLanes f).boot = d.boot := rfl
@[simp] theorem Dev.modLanes_otp (d : Dev) (f : LaneAll → LaneAll) : (d.modLanes f).otp = d.otp := rfl
@[simp] theorem Dev.modLanes_mon (d : Dev) (f : LaneAll → LaneAll) : (d.modLanes f).mon = d.mon := rfl
@[simp] theorem Dev.modLanes_time (d : Dev) (f : LaneAll → LaneAll) : (d.modLanes f).time = d.time := rfl
@[simp] theorem Dev.modLanes_conv (d : Dev) (f : LaneAll → LaneAll) : (d.modLanes f).conv = d.conv := rfl
@[simp] theorem Dev.modLanes_line (d : Dev) (f : LaneAll → LaneAll) : (d.modLanes f).line = d.line := rfl
@[simp] theorem Dev.modLanes_scs (d : Dev) (f : LaneAll → LaneAll) : (d.modLanes f).scs = d.scs := rfl
@[simp] theorem Dev.modLanes_conts (d : Dev) (f : LaneAll → LaneAll) : (d.modLanes f).conts = d.conts := rfl
@[simp] theorem Dev.modLanes_ohd (d : Dev) (f : LaneAll → LaneAll) : (d.modLanes f).ohd = d.ohd := rfl
@[simp] theorem Dev.modLanes_ref (d : Dev) (f : LaneAll → LaneAll) : (d.modLanes f).ref = d.ref := rfl
@[simp] theorem Dev.modLanes_lane (d : Dev) (f : LaneAll → LaneAll) : (d.modLanes f).lane = f d.lane := rfl
@[simp] theorem Dev.modLanes_pkt (d : Dev) (f : LaneAll → LaneAll) : (d.modLanes f).pkt = d.pkt := rfl
@[simp] theorem Dev.modLanes_mem (d : Dev) (f : LaneAll → LaneAll) : (d.modLanes f).mem = d.mem := rfl
@[simp] theorem Dev.modLanes_crypt (d : Dev) (f : LaneAll → LaneAll) : (d.modLanes f).crypt = d.crypt := rfl

/-! `Dev.modPkt` -/
@[simp] theorem Dev.modPkt_now (d : Dev) (f : PktSt → PktSt) : (d.modPkt f).now = d.now := rfl
@[simp] theorem Dev.modPkt_boundary (d : Dev) (f : PktSt → PktSt) : (d.modPkt f).boundary = d.boundary := rfl
@[simp] theorem Dev.modPkt_free (d : Dev) (f : PktSt → PktSt) : (d.modPkt f).free = d.free := rfl
@[simp] theorem Dev.modPkt_out (d : Dev) (f : PktSt → PktSt) : (d.modPkt f).out = d.out := rfl
@[simp] theorem Dev.modPkt_ctl (d : Dev) (f : PktSt → PktSt) : (d.modPkt f).ctl = d.ctl := rfl
@[simp] theorem Dev.modPkt_cfg (d : Dev) (f : PktSt → PktSt) : (d.modPkt f).cfg = d.cfg := rfl
@[simp] theorem Dev.modPkt_quilt (d : Dev) (f : PktSt → PktSt) : (d.modPkt f).quilt = d.quilt := rfl
@[simp] theorem Dev.modPkt_power (d : Dev) (f : PktSt → PktSt) : (d.modPkt f).power = d.power := rfl
@[simp] theorem Dev.modPkt_boot (d : Dev) (f : PktSt → PktSt) : (d.modPkt f).boot = d.boot := rfl
@[simp] theorem Dev.modPkt_otp (d : Dev) (f : PktSt → PktSt) : (d.modPkt f).otp = d.otp := rfl
@[simp] theorem Dev.modPkt_mon (d : Dev) (f : PktSt → PktSt) : (d.modPkt f).mon = d.mon := rfl
@[simp] theorem Dev.modPkt_time (d : Dev) (f : PktSt → PktSt) : (d.modPkt f).time = d.time := rfl
@[simp] theorem Dev.modPkt_conv (d : Dev) (f : PktSt → PktSt) : (d.modPkt f).conv = d.conv := rfl
@[simp] theorem Dev.modPkt_line (d : Dev) (f : PktSt → PktSt) : (d.modPkt f).line = d.line := rfl
@[simp] theorem Dev.modPkt_scs (d : Dev) (f : PktSt → PktSt) : (d.modPkt f).scs = d.scs := rfl
@[simp] theorem Dev.modPkt_conts (d : Dev) (f : PktSt → PktSt) : (d.modPkt f).conts = d.conts := rfl
@[simp] theorem Dev.modPkt_ohd (d : Dev) (f : PktSt → PktSt) : (d.modPkt f).ohd = d.ohd := rfl
@[simp] theorem Dev.modPkt_ref (d : Dev) (f : PktSt → PktSt) : (d.modPkt f).ref = d.ref := rfl
@[simp] theorem Dev.modPkt_lane (d : Dev) (f : PktSt → PktSt) : (d.modPkt f).lane = d.lane := rfl
@[simp] theorem Dev.modPkt_pkt (d : Dev) (f : PktSt → PktSt) : (d.modPkt f).pkt = f d.pkt := rfl
@[simp] theorem Dev.modPkt_mem (d : Dev) (f : PktSt → PktSt) : (d.modPkt f).mem = d.mem := rfl
@[simp] theorem Dev.modPkt_crypt (d : Dev) (f : PktSt → PktSt) : (d.modPkt f).crypt = d.crypt := rfl

/-! `Dev.modMem` -/
@[simp] theorem Dev.modMem_now (d : Dev) (f : MemAll → MemAll) : (d.modMem f).now = d.now := rfl
@[simp] theorem Dev.modMem_boundary (d : Dev) (f : MemAll → MemAll) : (d.modMem f).boundary = d.boundary := rfl
@[simp] theorem Dev.modMem_free (d : Dev) (f : MemAll → MemAll) : (d.modMem f).free = d.free := rfl
@[simp] theorem Dev.modMem_out (d : Dev) (f : MemAll → MemAll) : (d.modMem f).out = d.out := rfl
@[simp] theorem Dev.modMem_ctl (d : Dev) (f : MemAll → MemAll) : (d.modMem f).ctl = d.ctl := rfl
@[simp] theorem Dev.modMem_cfg (d : Dev) (f : MemAll → MemAll) : (d.modMem f).cfg = d.cfg := rfl
@[simp] theorem Dev.modMem_quilt (d : Dev) (f : MemAll → MemAll) : (d.modMem f).quilt = d.quilt := rfl
@[simp] theorem Dev.modMem_power (d : Dev) (f : MemAll → MemAll) : (d.modMem f).power = d.power := rfl
@[simp] theorem Dev.modMem_boot (d : Dev) (f : MemAll → MemAll) : (d.modMem f).boot = d.boot := rfl
@[simp] theorem Dev.modMem_otp (d : Dev) (f : MemAll → MemAll) : (d.modMem f).otp = d.otp := rfl
@[simp] theorem Dev.modMem_mon (d : Dev) (f : MemAll → MemAll) : (d.modMem f).mon = d.mon := rfl
@[simp] theorem Dev.modMem_time (d : Dev) (f : MemAll → MemAll) : (d.modMem f).time = d.time := rfl
@[simp] theorem Dev.modMem_conv (d : Dev) (f : MemAll → MemAll) : (d.modMem f).conv = d.conv := rfl
@[simp] theorem Dev.modMem_line (d : Dev) (f : MemAll → MemAll) : (d.modMem f).line = d.line := rfl
@[simp] theorem Dev.modMem_scs (d : Dev) (f : MemAll → MemAll) : (d.modMem f).scs = d.scs := rfl
@[simp] theorem Dev.modMem_conts (d : Dev) (f : MemAll → MemAll) : (d.modMem f).conts = d.conts := rfl
@[simp] theorem Dev.modMem_ohd (d : Dev) (f : MemAll → MemAll) : (d.modMem f).ohd = d.ohd := rfl
@[simp] theorem Dev.modMem_ref (d : Dev) (f : MemAll → MemAll) : (d.modMem f).ref = d.ref := rfl
@[simp] theorem Dev.modMem_lane (d : Dev) (f : MemAll → MemAll) : (d.modMem f).lane = d.lane := rfl
@[simp] theorem Dev.modMem_pkt (d : Dev) (f : MemAll → MemAll) : (d.modMem f).pkt = d.pkt := rfl
@[simp] theorem Dev.modMem_mem (d : Dev) (f : MemAll → MemAll) : (d.modMem f).mem = f d.mem := rfl
@[simp] theorem Dev.modMem_crypt (d : Dev) (f : MemAll → MemAll) : (d.modMem f).crypt = d.crypt := rfl

/-! `Dev.modCrypt` -/
@[simp] theorem Dev.modCrypt_now (d : Dev) (f : CryptAll → CryptAll) : (d.modCrypt f).now = d.now := rfl
@[simp] theorem Dev.modCrypt_boundary (d : Dev) (f : CryptAll → CryptAll) : (d.modCrypt f).boundary = d.boundary := rfl
@[simp] theorem Dev.modCrypt_free (d : Dev) (f : CryptAll → CryptAll) : (d.modCrypt f).free = d.free := rfl
@[simp] theorem Dev.modCrypt_out (d : Dev) (f : CryptAll → CryptAll) : (d.modCrypt f).out = d.out := rfl
@[simp] theorem Dev.modCrypt_ctl (d : Dev) (f : CryptAll → CryptAll) : (d.modCrypt f).ctl = d.ctl := rfl
@[simp] theorem Dev.modCrypt_cfg (d : Dev) (f : CryptAll → CryptAll) : (d.modCrypt f).cfg = d.cfg := rfl
@[simp] theorem Dev.modCrypt_quilt (d : Dev) (f : CryptAll → CryptAll) : (d.modCrypt f).quilt = d.quilt := rfl
@[simp] theorem Dev.modCrypt_power (d : Dev) (f : CryptAll → CryptAll) : (d.modCrypt f).power = d.power := rfl
@[simp] theorem Dev.modCrypt_boot (d : Dev) (f : CryptAll → CryptAll) : (d.modCrypt f).boot = d.boot := rfl
@[simp] theorem Dev.modCrypt_otp (d : Dev) (f : CryptAll → CryptAll) : (d.modCrypt f).otp = d.otp := rfl
@[simp] theorem Dev.modCrypt_mon (d : Dev) (f : CryptAll → CryptAll) : (d.modCrypt f).mon = d.mon := rfl
@[simp] theorem Dev.modCrypt_time (d : Dev) (f : CryptAll → CryptAll) : (d.modCrypt f).time = d.time := rfl
@[simp] theorem Dev.modCrypt_conv (d : Dev) (f : CryptAll → CryptAll) : (d.modCrypt f).conv = d.conv := rfl
@[simp] theorem Dev.modCrypt_line (d : Dev) (f : CryptAll → CryptAll) : (d.modCrypt f).line = d.line := rfl
@[simp] theorem Dev.modCrypt_scs (d : Dev) (f : CryptAll → CryptAll) : (d.modCrypt f).scs = d.scs := rfl
@[simp] theorem Dev.modCrypt_conts (d : Dev) (f : CryptAll → CryptAll) : (d.modCrypt f).conts = d.conts := rfl
@[simp] theorem Dev.modCrypt_ohd (d : Dev) (f : CryptAll → CryptAll) : (d.modCrypt f).ohd = d.ohd := rfl
@[simp] theorem Dev.modCrypt_ref (d : Dev) (f : CryptAll → CryptAll) : (d.modCrypt f).ref = d.ref := rfl
@[simp] theorem Dev.modCrypt_lane (d : Dev) (f : CryptAll → CryptAll) : (d.modCrypt f).lane = d.lane := rfl
@[simp] theorem Dev.modCrypt_pkt (d : Dev) (f : CryptAll → CryptAll) : (d.modCrypt f).pkt = d.pkt := rfl
@[simp] theorem Dev.modCrypt_mem (d : Dev) (f : CryptAll → CryptAll) : (d.modCrypt f).mem = d.mem := rfl
@[simp] theorem Dev.modCrypt_crypt (d : Dev) (f : CryptAll → CryptAll) : (d.modCrypt f).crypt = f d.crypt := rfl

/-! `Dev.modCommit` -/
@[simp] theorem Dev.modCommit_now (d : Dev) (id : Nat) (f : PCommit → PCommit) : (d.modCommit id f).now = d.now := rfl
@[simp] theorem Dev.modCommit_boundary (d : Dev) (id : Nat) (f : PCommit → PCommit) : (d.modCommit id f).boundary = d.boundary := rfl
@[simp] theorem Dev.modCommit_free (d : Dev) (id : Nat) (f : PCommit → PCommit) : (d.modCommit id f).free = d.free := rfl
@[simp] theorem Dev.modCommit_out (d : Dev) (id : Nat) (f : PCommit → PCommit) : (d.modCommit id f).out = d.out := rfl
@[simp] theorem Dev.modCommit_ctl (d : Dev) (id : Nat) (f : PCommit → PCommit) : (d.modCommit id f).ctl = d.ctl := rfl
@[simp] theorem Dev.modCommit_quilt (d : Dev) (id : Nat) (f : PCommit → PCommit) : (d.modCommit id f).quilt = d.quilt := rfl
@[simp] theorem Dev.modCommit_power (d : Dev) (id : Nat) (f : PCommit → PCommit) : (d.modCommit id f).power = d.power := rfl
@[simp] theorem Dev.modCommit_boot (d : Dev) (id : Nat) (f : PCommit → PCommit) : (d.modCommit id f).boot = d.boot := rfl
@[simp] theorem Dev.modCommit_otp (d : Dev) (id : Nat) (f : PCommit → PCommit) : (d.modCommit id f).otp = d.otp := rfl
@[simp] theorem Dev.modCommit_mon (d : Dev) (id : Nat) (f : PCommit → PCommit) : (d.modCommit id f).mon = d.mon := rfl
@[simp] theorem Dev.modCommit_time (d : Dev) (id : Nat) (f : PCommit → PCommit) : (d.modCommit id f).time = d.time := rfl
@[simp] theorem Dev.modCommit_conv (d : Dev) (id : Nat) (f : PCommit → PCommit) : (d.modCommit id f).conv = d.conv := rfl
@[simp] theorem Dev.modCommit_line (d : Dev) (id : Nat) (f : PCommit → PCommit) : (d.modCommit id f).line = d.line := rfl
@[simp] theorem Dev.modCommit_scs (d : Dev) (id : Nat) (f : PCommit → PCommit) : (d.modCommit id f).scs = d.scs := rfl
@[simp] theorem Dev.modCommit_conts (d : Dev) (id : Nat) (f : PCommit → PCommit) : (d.modCommit id f).conts = d.conts := rfl
@[simp] theorem Dev.modCommit_ohd (d : Dev) (id : Nat) (f : PCommit → PCommit) : (d.modCommit id f).ohd = d.ohd := rfl
@[simp] theorem Dev.modCommit_ref (d : Dev) (id : Nat) (f : PCommit → PCommit) : (d.modCommit id f).ref = d.ref := rfl
@[simp] theorem Dev.modCommit_lane (d : Dev) (id : Nat) (f : PCommit → PCommit) : (d.modCommit id f).lane = d.lane := rfl
@[simp] theorem Dev.modCommit_pkt (d : Dev) (id : Nat) (f : PCommit → PCommit) : (d.modCommit id f).pkt = d.pkt := rfl
@[simp] theorem Dev.modCommit_mem (d : Dev) (id : Nat) (f : PCommit → PCommit) : (d.modCommit id f).mem = d.mem := rfl
@[simp] theorem Dev.modCommit_crypt (d : Dev) (id : Nat) (f : PCommit → PCommit) : (d.modCommit id f).crypt = d.crypt := rfl

end Sys2Proof.Machine
end

