-- ==== Sys2Proof/Laws/Run.lean ====
section
/-! SUPPORT. The frame of every command: interrupts and the attention output after it, and what `State.run` answers. -/

namespace Sys2Proof.Machine

/-! ### Small reads -/

@[simp] theorem Dev.slot_modIrq (d : Dev) (f : IrqSt → IrqSt) (n : Nat) : (d.modIrq f).slot n = d.slot n := rfl
@[simp] theorem Dev.slot_emit (d : Dev) (o : Out) (n : Nat) : (d.emit o).slot n = d.slot n := rfl
@[simp] theorem Dev.modIrq_evt (d : Dev) (f : IrqSt → IrqSt) : (d.modIrq f).ctl.evt = d.ctl.evt := rfl

/-! ### What `Dev.refresh` leaves alone: all but the interrupt flags -/

/-- Two devices agree but for the interrupt flags and what was sent. -/
structure Dev.IrqOnly (a b : Dev) : Prop where
  rest : ∃ q o, b = { a with ctl := { a.ctl with irq := q }, out := o }

theorem Dev.IrqOnly.refl (a : Dev) : a.IrqOnly a := ⟨⟨a.ctl.irq, a.out, rfl⟩⟩

theorem Dev.IrqOnly.trans {a b c : Dev} (h : a.IrqOnly b) (k : b.IrqOnly c) : a.IrqOnly c := by
  obtain ⟨q, o, rfl⟩ := h.rest
  obtain ⟨q', o', rfl⟩ := k.rest
  exact ⟨⟨q', o', rfl⟩⟩

theorem Dev.irqOnly_modIrq (d : Dev) (f : IrqSt → IrqSt) : d.IrqOnly (d.modIrq f) := ⟨⟨f d.ctl.irq, d.out, rfl⟩⟩

theorem Dev.irqOnly_emit (d : Dev) (o : Out) : d.IrqOnly (d.emit o) := ⟨⟨d.ctl.irq, d.out ++ [o], rfl⟩⟩

theorem Dev.irqOnly_sendMsix (d : Dev) (v : Nat) : d.IrqOnly (d.sendMsix v) := by
  unfold Dev.sendMsix
  exact (d.irqOnly_emit _).trans (Dev.irqOnly_modIrq _ _)

theorem Dev.irqOnly_irqVector (d : Dev) (v : Nat) : d.IrqOnly (d.irqVector v) := by
  unfold Dev.irqVector
  dsimp only
  split
  · split
    · exact (d.irqOnly_modIrq _).trans (Dev.irqOnly_modIrq _ _)
    · exact (d.irqOnly_modIrq _).trans (Dev.irqOnly_sendMsix _ _)
  · split
    · exact d.irqOnly_sendMsix _
    · exact .refl d

theorem Dev.irqOnly_foldl (l : List Nat) (d : Dev) : d.IrqOnly (l.foldl Dev.irqVector d) := by
  induction l generalizing d with
  | nil => exact .refl d
  | cons v l ih => exact (d.irqOnly_irqVector v).trans (ih _)

theorem Dev.irqOnly_driveAttention (d : Dev) : d.IrqOnly d.driveAttention := by
  unfold Dev.driveAttention
  dsimp only
  split
  · exact .refl d
  · split
    · exact (d.irqOnly_modIrq _).trans (Dev.irqOnly_emit _ _)
    · exact d.irqOnly_modIrq _

/-- After a command only the interrupt flags and what is sent differ (R42, R43). -/
theorem Dev.irqOnly_refresh (d : Dev) : d.IrqOnly d.refresh :=
  (d.irqOnly_foldl _).trans (Dev.irqOnly_driveAttention _)

@[simp] theorem Dev.refresh_now (d : Dev) : d.refresh.now = d.now := by obtain ⟨q, o, h⟩ := d.irqOnly_refresh.rest; rw [h]
@[simp] theorem Dev.refresh_boundary (d : Dev) : d.refresh.boundary = d.boundary := by obtain ⟨q, o, h⟩ := d.irqOnly_refresh.rest; rw [h]
@[simp] theorem Dev.refresh_free (d : Dev) : d.refresh.free = d.free := by obtain ⟨q, o, h⟩ := d.irqOnly_refresh.rest; rw [h]
@[simp] theorem Dev.refresh_cfg (d : Dev) : d.refresh.cfg = d.cfg := by obtain ⟨q, o, h⟩ := d.irqOnly_refresh.rest; rw [h]
@[simp] theorem Dev.refresh_quilt (d : Dev) : d.refresh.quilt = d.quilt := by obtain ⟨q, o, h⟩ := d.irqOnly_refresh.rest; rw [h]
@[simp] theorem Dev.refresh_power (d : Dev) : d.refresh.power = d.power := by obtain ⟨q, o, h⟩ := d.irqOnly_refresh.rest; rw [h]
@[simp] theorem Dev.refresh_boot (d : Dev) : d.refresh.boot = d.boot := by obtain ⟨q, o, h⟩ := d.irqOnly_refresh.rest; rw [h]
@[simp] theorem Dev.refresh_otp (d : Dev) : d.refresh.otp = d.otp := by obtain ⟨q, o, h⟩ := d.irqOnly_refresh.rest; rw [h]
@[simp] theorem Dev.refresh_mon (d : Dev) : d.refresh.mon = d.mon := by obtain ⟨q, o, h⟩ := d.irqOnly_refresh.rest; rw [h]
@[simp] theorem Dev.refresh_time (d : Dev) : d.refresh.time = d.time := by obtain ⟨q, o, h⟩ := d.irqOnly_refresh.rest; rw [h]
@[simp] theorem Dev.refresh_conv (d : Dev) : d.refresh.conv = d.conv := by obtain ⟨q, o, h⟩ := d.irqOnly_refresh.rest; rw [h]
@[simp] theorem Dev.refresh_line (d : Dev) : d.refresh.line = d.line := by obtain ⟨q, o, h⟩ := d.irqOnly_refresh.rest; rw [h]
@[simp] theorem Dev.refresh_scs (d : Dev) : d.refresh.scs = d.scs := by obtain ⟨q, o, h⟩ := d.irqOnly_refresh.rest; rw [h]
@[simp] theorem Dev.refresh_conts (d : Dev) : d.refresh.conts = d.conts := by obtain ⟨q, o, h⟩ := d.irqOnly_refresh.rest; rw [h]
@[simp] theorem Dev.refresh_ohd (d : Dev) : d.refresh.ohd = d.ohd := by obtain ⟨q, o, h⟩ := d.irqOnly_refresh.rest; rw [h]
@[simp] theorem Dev.refresh_ref (d : Dev) : d.refresh.ref = d.ref := by obtain ⟨q, o, h⟩ := d.irqOnly_refresh.rest; rw [h]
@[simp] theorem Dev.refresh_lane (d : Dev) : d.refresh.lane = d.lane := by obtain ⟨q, o, h⟩ := d.irqOnly_refresh.rest; rw [h]
@[simp] theorem Dev.refresh_pkt (d : Dev) : d.refresh.pkt = d.pkt := by obtain ⟨q, o, h⟩ := d.irqOnly_refresh.rest; rw [h]
@[simp] theorem Dev.refresh_mem (d : Dev) : d.refresh.mem = d.mem := by obtain ⟨q, o, h⟩ := d.irqOnly_refresh.rest; rw [h]
@[simp] theorem Dev.refresh_crypt (d : Dev) : d.refresh.crypt = d.crypt := by obtain ⟨q, o, h⟩ := d.irqOnly_refresh.rest; rw [h]
@[simp] theorem Dev.refresh_slots (d : Dev) : d.refresh.ctl.slots = d.ctl.slots := by obtain ⟨q, o, h⟩ := d.irqOnly_refresh.rest; rw [h]
@[simp] theorem Dev.refresh_evt (d : Dev) : d.refresh.ctl.evt = d.ctl.evt := by obtain ⟨q, o, h⟩ := d.irqOnly_refresh.rest; rw [h]
@[simp] theorem Dev.refresh_stamp (d : Dev) : d.refresh.ctl.stamp = d.ctl.stamp := by obtain ⟨q, o, h⟩ := d.irqOnly_refresh.rest; rw [h]
@[simp] theorem Dev.refresh_lastServed (d : Dev) : d.refresh.ctl.lastServed = d.ctl.lastServed := by obtain ⟨q, o, h⟩ := d.irqOnly_refresh.rest; rw [h]
@[simp] theorem Dev.refresh_authFails (d : Dev) : d.refresh.ctl.authFails = d.ctl.authFails := by obtain ⟨q, o, h⟩ := d.irqOnly_refresh.rest; rw [h]
@[simp] theorem Dev.refresh_lastFail (d : Dev) : d.refresh.ctl.lastFail = d.ctl.lastFail := by obtain ⟨q, o, h⟩ := d.irqOnly_refresh.rest; rw [h]
@[simp] theorem Dev.refresh_serial (d : Dev) : d.refresh.ctl.serial = d.ctl.serial := by obtain ⟨q, o, h⟩ := d.irqOnly_refresh.rest; rw [h]
@[simp] theorem Dev.refresh_pcie (d : Dev) : d.refresh.ctl.pcie = d.ctl.pcie := by obtain ⟨q, o, h⟩ := d.irqOnly_refresh.rest; rw [h]
@[simp] theorem Dev.refresh_slot (d : Dev) (n : Nat) : d.refresh.slot n = d.slot n := by simp [Dev.slot]

/-! ### What a command in its frame answers -/

theorem State.run_next {s : State} (f : Dev → Dev) (h : s.dev.halted = false) :
    s.run f = .next { s with dev := (f s.quiet).refresh } := by
  have h' : Dev.halted { s.dev with out := [] } = false := h
  simp [State.run, h']

theorem State.run_halted {s : State} (f : Dev → Dev) (h : s.dev.halted = true) :
    s.run f = .next { s with dev := s.quiet } := by
  have h' : Dev.halted { s.dev with out := [] } = true := h
  simp [State.run, h']

theorem State.runAccess_next {s : State} (a : Access) (f : Dev → Dev) (h : s.dev.halted = false) :
    s.runAccess a f = .next { s with dev := (f s.quiet).refresh } := by
  have h' : Dev.halted { s.dev with out := [] } = false := h
  have hb : s.dev.boot.held = false := by
    cases hb : s.dev.boot.held
    · rfl
    · simp [Dev.halted, hb] at h
  cases a <;> simp [State.runAccess, h', hb]

theorem State.runAll_next {s : State} (f : State → State) (h : s.dev.halted = false) :
    s.runAll f = .next { f { s with dev := s.quiet } with dev := (f { s with dev := s.quiet }).dev.refresh } := by
  have h' : Dev.halted { s.dev with out := [] } = false := h
  simp [State.runAll, h']

theorem State.runAll_halted {s : State} (f : State → State) (h : s.dev.halted = true) :
    s.runAll f = .next { s with dev := s.quiet } := by
  have h' : Dev.halted { s.dev with out := [] } = true := h
  simp [State.runAll, h']

end Sys2Proof.Machine
end

