-- ==== Sys2Proof/Laws/Tab.lean ====
section
/-! SUPPORT. Sparse tables: a read after a write, and the canonical form, which every operation keeps. -/

namespace Sys2Proof.Machine

variable {α : Type}

/-! ### Reads after writes -/

theorem Tab.get_erase_ne (d : Nat → α) (t : Tab α) {k j : Nat} (h : j ≠ k) : (Tab.erase t k).get d j = t.get d j := by
  induction t with
  | nil => rfl
  | cons e t ih =>
    obtain ⟨i, v⟩ := e
    by_cases hk : i = k
    · subst hk; simp [Tab.erase, Tab.get, Ne.symm h, ih]
    · by_cases hj : i = j
      · subst hj; simp [Tab.erase, Tab.get, hk]
      · simp [Tab.erase, Tab.get, hk, hj, ih]

@[simp] theorem Tab.get_insert_self (d : Nat → α) (t : Tab α) (k : Nat) (v : α) : (Tab.insert t k v).get d k = v := by
  induction t with
  | nil => simp [Tab.insert, Tab.get]
  | cons e t ih =>
    obtain ⟨i, w⟩ := e
    by_cases h1 : k < i
    · simp [Tab.insert, Tab.get, h1]
    · by_cases h2 : i = k
      · simp [Tab.insert, Tab.get, h2]
      · simp [Tab.insert, Tab.get, h1, h2, ih]

theorem Tab.get_insert_ne (d : Nat → α) (t : Tab α) {k j : Nat} (v : α) (h : j ≠ k) : (Tab.insert t k v).get d j = t.get d j := by
  induction t with
  | nil => simp [Tab.insert, Tab.get, Ne.symm h]
  | cons e t ih =>
    obtain ⟨i, w⟩ := e
    by_cases h1 : k < i
    · simp [Tab.insert, Tab.get, h1, Ne.symm h]
    · by_cases h2 : i = k
      · subst h2; simp [Tab.insert, Tab.get, Ne.symm h]
      · by_cases h3 : i = j
        · subst h3; simp [Tab.insert, Tab.get, h1, h2]
        · simp [Tab.insert, Tab.get, h1, h2, h3, ih]

@[simp] theorem Tab.get_erase_self (d : Nat → α) (t : Tab α) (k : Nat) : (Tab.erase t k).get d k = d k := by
  induction t with
  | nil => rfl
  | cons e t ih =>
    by_cases hk : e.1 = k
    · simp only [Tab.erase, hk, if_true]; exact ih
    · simp only [Tab.erase, Tab.get, hk, if_false]; exact ih

/-! ### The canonical form -/

theorem Tab.rising_mono {t : Tab α} {a b : Nat} (h : Tab.rising b t = true) (hab : a ≤ b) : Tab.rising a t = true := by
  cases t with
  | nil => rfl
  | cons e t =>
    simp only [Tab.rising, Bool.and_eq_true, decide_eq_true_eq] at h ⊢
    exact ⟨by omega, h.2⟩

theorem Tab.rising_erase {t : Tab α} {b : Nat} (h : Tab.rising b t = true) (k : Nat) : Tab.rising b (Tab.erase t k) = true := by
  induction t generalizing b with
  | nil => rfl
  | cons e t ih =>
    obtain ⟨i, v⟩ := e
    simp only [Tab.rising, Bool.and_eq_true, decide_eq_true_eq] at h
    by_cases hk : i = k
    · simp only [Tab.erase, hk, if_true]; exact ih (Tab.rising_mono h.2 (by omega))
    · simp only [Tab.erase, hk, if_false, Tab.rising, Bool.and_eq_true, decide_eq_true_eq]; exact ⟨h.1, ih h.2⟩

theorem Tab.rising_insert {t : Tab α} {b k : Nat} (h : Tab.rising b t = true) (hk : b ≤ k) (v : α) :
    Tab.rising b (Tab.insert t k v) = true := by
  induction t generalizing b with
  | nil => simp [Tab.insert, Tab.rising, hk]
  | cons e t ih =>
    obtain ⟨i, w⟩ := e
    simp only [Tab.rising, Bool.and_eq_true, decide_eq_true_eq] at h
    by_cases h1 : k < i
    · simp only [Tab.insert, h1, if_true, Tab.rising, Bool.and_eq_true, decide_eq_true_eq]
      exact ⟨hk, by omega, h.2⟩
    · by_cases h2 : i = k
      · subst h2; simp only [Tab.insert, h1, if_false, if_true, Tab.rising, Bool.and_eq_true, decide_eq_true_eq]; exact ⟨hk, h.2⟩
      · simp only [Tab.insert, h1, h2, if_false, Tab.rising, Bool.and_eq_true, decide_eq_true_eq]
        exact ⟨h.1, ih h.2 (by omega)⟩

theorem Tab.all_erase {p : Nat × α → Bool} {t : Tab α} (h : t.all p = true) (k : Nat) : (Tab.erase t k).all p = true := by
  induction t with
  | nil => rfl
  | cons e t ih =>
    simp only [List.all_cons, Bool.and_eq_true] at h
    by_cases hk : e.1 = k
    · simp only [Tab.erase, hk, if_true]; exact ih h.2
    · simp only [Tab.erase, hk, if_false, List.all_cons, Bool.and_eq_true]; exact ⟨h.1, ih h.2⟩

theorem Tab.all_insert {p : Nat × α → Bool} {t : Tab α} (h : t.all p = true) {k : Nat} {v : α} (hv : p (k, v) = true) :
    (Tab.insert t k v).all p = true := by
  induction t with
  | nil => simp [Tab.insert, hv]
  | cons e t ih =>
    simp only [List.all_cons, Bool.and_eq_true] at h
    by_cases h1 : k < e.1
    · simp only [Tab.insert, h1, if_true, List.all_cons, Bool.and_eq_true]; exact ⟨hv, h.1, h.2⟩
    · by_cases h2 : e.1 = k
      · simp only [Tab.insert, h2, Nat.lt_irrefl, if_false, if_true, List.all_cons, Bool.and_eq_true]; exact ⟨hv, h.2⟩
      · simp only [Tab.insert, h1, h2, if_false, List.all_cons, Bool.and_eq_true]; exact ⟨h.1, ih h.2⟩

variable [DecidableEq α]

/-- The empty table is canonical. -/
@[simp] theorem Tab.wf_nil (d : Nat → α) : Tab.wf d [] = true := rfl

/-- Writing keeps the canonical form: writing what an unlisted key reads as removes the entry. -/
theorem Tab.wf_set {d : Nat → α} {t : Tab α} (h : t.wf d = true) (k : Nat) (v : α) : (t.set d k v).wf d = true := by
  simp only [Tab.wf, Bool.and_eq_true] at h ⊢
  by_cases hv : v = d k
  · simp only [Tab.set, hv, if_true]; exact ⟨Tab.rising_erase h.1 k, Tab.all_erase h.2 k⟩
  · simp only [Tab.set, hv, if_false]; exact ⟨Tab.rising_insert h.1 (Nat.zero_le k) v, Tab.all_insert h.2 (by simpa using hv)⟩

/-- So does a change in place. -/
theorem Tab.wf_modify {d : Nat → α} {t : Tab α} (h : t.wf d = true) (k : Nat) (f : α → α) : (t.modify d k f).wf d = true := Tab.wf_set h k _

/-- A read after a write to the same key. -/
@[simp] theorem Tab.get_set_self (d : Nat → α) (t : Tab α) (k : Nat) (v : α) : (t.set d k v).get d k = v := by
  by_cases hv : v = d k
  · simp [Tab.set, hv]
  · simp [Tab.set, hv]

/-- A write leaves every other key alone. -/
theorem Tab.get_set_ne (d : Nat → α) (t : Tab α) {k j : Nat} (v : α) (h : j ≠ k) : (t.set d k v).get d j = t.get d j := by
  by_cases hv : v = d k
  · simp [Tab.set, hv, Tab.get_erase_ne d t h]
  · simp [Tab.set, hv, Tab.get_insert_ne d t v h]

theorem Tab.get_modify_ne (d : Nat → α) (t : Tab α) {k j : Nat} (f : α → α) (h : j ≠ k) : (t.modify d k f).get d j = t.get d j :=
  Tab.get_set_ne d t _ h

/-- A read after a change in place. -/
@[simp] theorem Tab.get_modify_self (d : Nat → α) (t : Tab α) (k : Nat) (f : α → α) :
    (t.modify d k f).get d k = f (t.get d k) := Tab.get_set_self d t k _

end Sys2Proof.Machine
end

