-- ==== Sys2Proof/Laws/Serve.lean ====
section
/-! SUPPORT. Shared operations of the mailbox: what raising, counting, responding, settling and serving can change. -/

namespace Sys2Proof.Machine

/-! ### `changesOnly` -/

theorem Dev.changesOnly_refl (l : List Part) (d : Dev) : d.changesOnly l d := by simp [Dev.changesOnly]

theorem Dev.changesOnly_trans {l : List Part} {a b c : Dev} (h : a.changesOnly l b) (k : b.changesOnly l c) : a.changesOnly l c := by
  obtain ⟨h1, h2, h3, h4, h5, h6, h7, h8, h9, h10, h11, h12, h13, h14, h15, h16, h17, h18, h19, h20, h21⟩ := h
  obtain ⟨k1, k2, k3, k4, k5, k6, k7, k8, k9, k10, k11, k12, k13, k14, k15, k16, k17, k18, k19, k20, k21⟩ := k
  have step : ∀ {α : Type} {p : Part} {x y z : α}, (p ∈ l ∨ y = x) → (p ∈ l ∨ z = y) → (p ∈ l ∨ z = x) := by
    intro α p x y z h k
    rcases h with h | rfl
    · exact .inl h
    · exact k
  exact ⟨step h1 k1, step h2 k2, step h3 k3, step h4 k4, step h5 k5, step h6 k6, step h7 k7, step h8 k8, step h9 k9, step h10 k10,
    step h11 k11, step h12 k12, step h13 k13, step h14 k14, step h15 k15, step h16 k16, step h17 k17, step h18 k18, step h19 k19,
    step h20 k20, step h21 k21⟩

theorem Dev.changesOnly_mono {l m : List Part} {a b : Dev} (h : a.changesOnly l b) (hm : ∀ p ∈ l, p ∈ m) : a.changesOnly m b := by
  obtain ⟨h1, h2, h3, h4, h5, h6, h7, h8, h9, h10, h11, h12, h13, h14, h15, h16, h17, h18, h19, h20, h21⟩ := h
  exact ⟨h1.imp_left (hm _), h2.imp_left (hm _), h3.imp_left (hm _), h4.imp_left (hm _), h5.imp_left (hm _), h6.imp_left (hm _),
    h7.imp_left (hm _), h8.imp_left (hm _), h9.imp_left (hm _), h10.imp_left (hm _), h11.imp_left (hm _), h12.imp_left (hm _),
    h13.imp_left (hm _), h14.imp_left (hm _), h15.imp_left (hm _), h16.imp_left (hm _), h17.imp_left (hm _), h18.imp_left (hm _),
    h19.imp_left (hm _), h20.imp_left (hm _), h21.imp_left (hm _)⟩

theorem Dev.changesOnly_refresh (d : Dev) : d.changesOnly [.ctl] d.refresh := by simp [Dev.changesOnly]

/-! ### Counting and raising (R58, R62, R492) -/

/-- Counting changes the counters alone. -/
theorem Dev.count_eq (d : Dev) (u : MonUnit) (code n : Nat) : ∃ m, d.count u code n = { d with mon := m } := by
  unfold Dev.count
  split
  · exact ⟨d.mon, rfl⟩
  · exact ⟨_, rfl⟩

/-- The device with another event state. -/
abbrev Dev.withEvt (d : Dev) (e : EvtSt) : Dev := { d with ctl := { d.ctl with evt := e } }

/-- Raising an event changes the event bobbin and the counters alone. -/
theorem Dev.raise_eq (d : Dev) (ev : Ev) (p i : Nat) (x : Option Nat) :
    ∃ e m, d.raise ev p i x = { d with ctl := { d.ctl with evt := e }, mon := m } := by
  unfold Dev.raise
  dsimp only
  by_cases h1 : d.conf .evtEnable ev.code = 0
  · rw [if_pos h1]; exact ⟨d.ctl.evt, d.mon, rfl⟩
  rw [if_neg h1]
  by_cases h2 : d.ctl.evt.bob.used - (if d.ctl.evt.overflow.isSome then 1 else 0) < 255
  · rw [if_pos h2]
    obtain ⟨m, h⟩ := Dev.count_eq (d.withEvt (d.ctl.evt.place ev.code (d.conf .evtPriority ev.code) (i % 2 ^ 16) p (compact d.time16)
      d.time.established x)) .dev 1 1
    exact ⟨_, m, h⟩
  · rw [if_neg h2]
    obtain ⟨m, h⟩ := Dev.count_eq (d.withEvt (d.ctl.evt.drop d.self (compact d.time16) d.time.established)) .dev 1 1
    obtain ⟨m', h'⟩ := Dev.count_eq ({ (d.withEvt (d.ctl.evt.drop d.self (compact d.time16) d.time.established)) with mon := m }) .dev 2 1
    exact ⟨_, m', (congrArg (fun d => Dev.count d .dev 2 1) h).trans h'⟩

@[simp] theorem Dev.count_now (d : Dev) (u : MonUnit) (c n : Nat) : (d.count u c n).now = d.now := by
  obtain ⟨m, h⟩ := d.count_eq u c n; rw [h]
@[simp] theorem Dev.count_boundary (d : Dev) (u : MonUnit) (c n : Nat) : (d.count u c n).boundary = d.boundary := by
  obtain ⟨m, h⟩ := d.count_eq u c n; rw [h]
@[simp] theorem Dev.count_free (d : Dev) (u : MonUnit) (c n : Nat) : (d.count u c n).free = d.free := by
  obtain ⟨m, h⟩ := d.count_eq u c n; rw [h]
@[simp] theorem Dev.count_out (d : Dev) (u : MonUnit) (c n : Nat) : (d.count u c n).out = d.out := by
  obtain ⟨m, h⟩ := d.count_eq u c n; rw [h]
@[simp] theorem Dev.count_cfg (d : Dev) (u : MonUnit) (c n : Nat) : (d.count u c n).cfg = d.cfg := by
  obtain ⟨m, h⟩ := d.count_eq u c n; rw [h]
@[simp] theorem Dev.count_quilt (d : Dev) (u : MonUnit) (c n : Nat) : (d.count u c n).quilt = d.quilt := by
  obtain ⟨m, h⟩ := d.count_eq u c n; rw [h]
@[simp] theorem Dev.count_power (d : Dev) (u : MonUnit) (c n : Nat) : (d.count u c n).power = d.power := by
  obtain ⟨m, h⟩ := d.count_eq u c n; rw [h]
@[simp] theorem Dev.count_boot (d : Dev) (u : MonUnit) (c n : Nat) : (d.count u c n).boot = d.boot := by
  obtain ⟨m, h⟩ := d.count_eq u c n; rw [h]
@[simp] theorem Dev.count_otp (d : Dev) (u : MonUnit) (c n : Nat) : (d.count u c n).otp = d.otp := by
  obtain ⟨m, h⟩ := d.count_eq u c n; rw [h]
@[simp] theorem Dev.count_time (d : Dev) (u : MonUnit) (c n : Nat) : (d.count u c n).time = d.time := by
  obtain ⟨m, h⟩ := d.count_eq u c n; rw [h]
@[simp] theorem Dev.count_conv (d : Dev) (u : MonUnit) (c n : Nat) : (d.count u c n).conv = d.conv := by
  obtain ⟨m, h⟩ := d.count_eq u c n; rw [h]
@[simp] theorem Dev.count_line (d : Dev) (u : MonUnit) (c n : Nat) : (d.count u c n).line = d.line := by
  obtain ⟨m, h⟩ := d.count_eq u c n; rw [h]
@[simp] theorem Dev.count_scs (d : Dev) (u : MonUnit) (c n : Nat) : (d.count u c n).scs = d.scs := by
  obtain ⟨m, h⟩ := d.count_eq u c n; rw [h]
@[simp] theorem Dev.count_conts (d : Dev) (u : MonUnit) (c n : Nat) : (d.count u c n).conts = d.conts := by
  obtain ⟨m, h⟩ := d.count_eq u c n; rw [h]
@[simp] theorem Dev.count_ohd (d : Dev) (u : MonUnit) (c n : Nat) : (d.count u c n).ohd = d.ohd := by
  obtain ⟨m, h⟩ := d.count_eq u c n; rw [h]
@[simp] theorem Dev.count_ref (d : Dev) (u : MonUnit) (c n : Nat) : (d.count u c n).ref = d.ref := by
  obtain ⟨m, h⟩ := d.count_eq u c n; rw [h]
@[simp] theorem Dev.count_lane (d : Dev) (u : MonUnit) (c n : Nat) : (d.count u c n).lane = d.lane := by
  obtain ⟨m, h⟩ := d.count_eq u c n; rw [h]
@[simp] theorem Dev.count_pkt (d : Dev) (u : MonUnit) (c n : Nat) : (d.count u c n).pkt = d.pkt := by
  obtain ⟨m, h⟩ := d.count_eq u c n; rw [h]
@[simp] theorem Dev.count_mem (d : Dev) (u : MonUnit) (c n : Nat) : (d.count u c n).mem = d.mem := by
  obtain ⟨m, h⟩ := d.count_eq u c n; rw [h]
@[simp] theorem Dev.count_crypt (d : Dev) (u : MonUnit) (c n : Nat) : (d.count u c n).crypt = d.crypt := by
  obtain ⟨m, h⟩ := d.count_eq u c n; rw [h]
@[simp] theorem Dev.count_ctl (d : Dev) (u : MonUnit) (c n : Nat) : (d.count u c n).ctl = d.ctl := by
  obtain ⟨m, h⟩ := d.count_eq u c n; rw [h]
@[simp] theorem Dev.count_slot (d : Dev) (u : MonUnit) (c n k : Nat) : (d.count u c n).slot k = d.slot k := by simp [Dev.slot]
@[simp] theorem Dev.raise_now (d : Dev) (e : Ev) (p i : Nat) (x : Option Nat) : (d.raise e p i x).now = d.now := by
  obtain ⟨_, _, h⟩ := d.raise_eq e p i x; rw [h]
@[simp] theorem Dev.raise_boundary (d : Dev) (e : Ev) (p i : Nat) (x : Option Nat) : (d.raise e p i x).boundary = d.boundary := by
  obtain ⟨_, _, h⟩ := d.raise_eq e p i x; rw [h]
@[simp] theorem Dev.raise_free (d : Dev) (e : Ev) (p i : Nat) (x : Option Nat) : (d.raise e p i x).free = d.free := by
  obtain ⟨_, _, h⟩ := d.raise_eq e p i x; rw [h]
@[simp] theorem Dev.raise_out (d : Dev) (e : Ev) (p i : Nat) (x : Option Nat) : (d.raise e p i x).out = d.out := by
  obtain ⟨_, _, h⟩ := d.raise_eq e p i x; rw [h]
@[simp] theorem Dev.raise_cfg (d : Dev) (e : Ev) (p i : Nat) (x : Option Nat) : (d.raise e p i x).cfg = d.cfg := by
  obtain ⟨_, _, h⟩ := d.raise_eq e p i x; rw [h]
@[simp] theorem Dev.raise_quilt (d : Dev) (e : Ev) (p i : Nat) (x : Option Nat) : (d.raise e p i x).quilt = d.quilt := by
  obtain ⟨_, _, h⟩ := d.raise_eq e p i x; rw [h]
@[simp] theorem Dev.raise_power (d : Dev) (e : Ev) (p i : Nat) (x : Option Nat) : (d.raise e p i x).power = d.power := by
  obtain ⟨_, _, h⟩ := d.raise_eq e p i x; rw [h]
@[simp] theorem Dev.raise_boot (d : Dev) (e : Ev) (p i : Nat) (x : Option Nat) : (d.raise e p i x).boot = d.boot := by
  obtain ⟨_, _, h⟩ := d.raise_eq e p i x; rw [h]
@[simp] theorem Dev.raise_otp (d : Dev) (e : Ev) (p i : Nat) (x : Option Nat) : (d.raise e p i x).otp = d.otp := by
  obtain ⟨_, _, h⟩ := d.raise_eq e p i x; rw [h]
@[simp] theorem Dev.raise_time (d : Dev) (e : Ev) (p i : Nat) (x : Option Nat) : (d.raise e p i x).time = d.time := by
  obtain ⟨_, _, h⟩ := d.raise_eq e p i x; rw [h]
@[simp] theorem Dev.raise_conv (d : Dev) (e : Ev) (p i : Nat) (x : Option Nat) : (d.raise e p i x).conv = d.conv := by
  obtain ⟨_, _, h⟩ := d.raise_eq e p i x; rw [h]
@[simp] theorem Dev.raise_line (d : Dev) (e : Ev) (p i : Nat) (x : Option Nat) : (d.raise e p i x).line = d.line := by
  obtain ⟨_, _, h⟩ := d.raise_eq e p i x; rw [h]
@[simp] theorem Dev.raise_scs (d : Dev) (e : Ev) (p i : Nat) (x : Option Nat) : (d.raise e p i x).scs = d.scs := by
  obtain ⟨_, _, h⟩ := d.raise_eq e p i x; rw [h]
@[simp] theorem Dev.raise_conts (d : Dev) (e : Ev) (p i : Nat) (x : Option Nat) : (d.raise e p i x).conts = d.conts := by
  obtain ⟨_, _, h⟩ := d.raise_eq e p i x; rw [h]
@[simp] theorem Dev.raise_ohd (d : Dev) (e : Ev) (p i : Nat) (x : Option Nat) : (d.raise e p i x).ohd = d.ohd := by
  obtain ⟨_, _, h⟩ := d.raise_eq e p i x; rw [h]
@[simp] theorem Dev.raise_ref (d : Dev) (e : Ev) (p i : Nat) (x : Option Nat) : (d.raise e p i x).ref = d.ref := by
  obtain ⟨_, _, h⟩ := d.raise_eq e p i x; rw [h]
@[simp] theorem Dev.raise_lane (d : Dev) (e : Ev) (p i : Nat) (x : Option Nat) : (d.raise e p i x).lane = d.lane := by
  obtain ⟨_, _, h⟩ := d.raise_eq e p i x; rw [h]
@[simp] theorem Dev.raise_pkt (d : Dev) (e : Ev) (p i : Nat) (x : Option Nat) : (d.raise e p i x).pkt = d.pkt := by
  obtain ⟨_, _, h⟩ := d.raise_eq e p i x; rw [h]
@[simp] theorem Dev.raise_mem (d : Dev) (e : Ev) (p i : Nat) (x : Option Nat) : (d.raise e p i x).mem = d.mem := by
  obtain ⟨_, _, h⟩ := d.raise_eq e p i x; rw [h]
@[simp] theorem Dev.raise_crypt (d : Dev) (e : Ev) (p i : Nat) (x : Option Nat) : (d.raise e p i x).crypt = d.crypt := by
  obtain ⟨_, _, h⟩ := d.raise_eq e p i x; rw [h]
@[simp] theorem Dev.raise_ctl_slots (d : Dev) (e : Ev) (p i : Nat) (x : Option Nat) : (d.raise e p i x).ctl.slots = d.ctl.slots := by
  obtain ⟨_, _, h⟩ := d.raise_eq e p i x; rw [h]
@[simp] theorem Dev.raise_ctl_stamp (d : Dev) (e : Ev) (p i : Nat) (x : Option Nat) : (d.raise e p i x).ctl.stamp = d.ctl.stamp := by
  obtain ⟨_, _, h⟩ := d.raise_eq e p i x; rw [h]
@[simp] theorem Dev.raise_ctl_irq (d : Dev) (e : Ev) (p i : Nat) (x : Option Nat) : (d.raise e p i x).ctl.irq = d.ctl.irq := by
  obtain ⟨_, _, h⟩ := d.raise_eq e p i x; rw [h]
@[simp] theorem Dev.raise_ctl_lastServed (d : Dev) (e : Ev) (p i : Nat) (x : Option Nat) : (d.raise e p i x).ctl.lastServed = d.ctl.lastServed := by
  obtain ⟨_, _, h⟩ := d.raise_eq e p i x; rw [h]
@[simp] theorem Dev.raise_ctl_authFails (d : Dev) (e : Ev) (p i : Nat) (x : Option Nat) : (d.raise e p i x).ctl.authFails = d.ctl.authFails := by
  obtain ⟨_, _, h⟩ := d.raise_eq e p i x; rw [h]
@[simp] theorem Dev.raise_ctl_lastFail (d : Dev) (e : Ev) (p i : Nat) (x : Option Nat) : (d.raise e p i x).ctl.lastFail = d.ctl.lastFail := by
  obtain ⟨_, _, h⟩ := d.raise_eq e p i x; rw [h]
@[simp] theorem Dev.raise_ctl_serial (d : Dev) (e : Ev) (p i : Nat) (x : Option Nat) : (d.raise e p i x).ctl.serial = d.ctl.serial := by
  obtain ⟨_, _, h⟩ := d.raise_eq e p i x; rw [h]
@[simp] theorem Dev.raise_ctl_pcie (d : Dev) (e : Ev) (p i : Nat) (x : Option Nat) : (d.raise e p i x).ctl.pcie = d.ctl.pcie := by
  obtain ⟨_, _, h⟩ := d.raise_eq e p i x; rw [h]
@[simp] theorem Dev.raise_slot (d : Dev) (e : Ev) (p i k : Nat) (x : Option Nat) : (d.raise e p i x).slot k = d.slot k := by
  simp [Dev.slot]

theorem Dev.changesOnly_count (d : Dev) (u : MonUnit) (c n : Nat) : d.changesOnly [.mon] (d.count u c n) := by simp [Dev.changesOnly]

theorem Dev.changesOnly_raise (d : Dev) (e : Ev) (p i : Nat) (x : Option Nat) : d.changesOnly [.ctl, .mon] (d.raise e p i x) := by
  simp [Dev.changesOnly]

/-! ### Slots -/

@[simp] theorem Dev.slot_modSlot_self (d : Dev) (n : Nat) (f : Slot → Slot) : (d.modSlot n f).slot n = f (d.slot n) := by
  simp [Dev.slot, Dev.modSlot]

theorem Dev.slot_modSlot_ne (d : Dev) {n m : Nat} (f : Slot → Slot) (h : m ≠ n) : (d.modSlot n f).slot m = d.slot m := by
  simp [Dev.slot, Dev.modSlot, Tab.get_modify_ne _ _ _ h]

/-- Any slot after a change of one: changed if it is that one. -/
theorem Dev.slot_modSlot (d : Dev) (n m : Nat) (f : Slot → Slot) :
    (d.modSlot n f).slot m = if m = n then f (d.slot m) else d.slot m := by
  by_cases h : m = n
  · subst h; simp
  · simp [h, Dev.slot_modSlot_ne]

@[simp] theorem Dev.slot_withServed (d : Dev) (k n : Nat) : Dev.slot { d with ctl := { d.ctl with lastServed := k } } n = d.slot n := rfl

/-! ### Responding (R40, R53) -/

/-- The stage that a response to a command takes. -/
abbrev Dev.rspItem (d : Dev) (slot : Nat) (cmd : Item) (st : Status) (r : Res) : BItem :=
  ⟨responseItem slot cmd st r, Item.seq cmd, Item.prio cmd, d.time.established⟩

theorem Dev.respond_lt (d : Dev) {slot : Nat} (h : slot < 8) (cmd : Item) (st : Status) (r : Res) :
    d.respond slot cmd st r =
      (d.modSlot slot fun s => { s with rsp := s.rsp.push (d.rspItem slot cmd st r) }).count .dev 3 := by
  simp [Dev.respond, h]

theorem Dev.changesOnly_respond (d : Dev) {slot : Nat} (h : slot < 8) (cmd : Item) (st : Status) (r : Res) :
    d.changesOnly [.ctl, .mon] (d.respond slot cmd st r) := by
  simp [Dev.respond_lt d h, Dev.changesOnly]

/-- What serving commands does to a slot: commands leave, responses come to the tail. -/
structure Slot.Grows (a b : Slot) : Prop where
  same : ∃ cmds more, b = { a with cmds := cmds, rsp := { a.rsp with unread := a.rsp.unread ++ more } }

theorem Slot.Grows.refl (a : Slot) : a.Grows a := ⟨⟨a.cmds, [], by simp⟩⟩

theorem Slot.Grows.trans {a b c : Slot} (h : a.Grows b) (k : b.Grows c) : a.Grows c := by
  obtain ⟨q, m, rfl⟩ := h.same
  obtain ⟨q', m', rfl⟩ := k.same
  exact ⟨⟨q', m ++ m', by simp⟩⟩

/-- What answering commands that no row serves does to the device: its slots grow, the round robin moves, counters count. -/
structure Dev.Settles (a b : Dev) : Prop where
  parts : a.changesOnly [.ctl, .mon] b
  ctl : b.ctl.evt = a.ctl.evt ∧ b.ctl.stamp = a.ctl.stamp ∧ b.ctl.irq = a.ctl.irq ∧ b.ctl.authFails = a.ctl.authFails ∧
    b.ctl.lastFail = a.ctl.lastFail ∧ b.ctl.serial = a.ctl.serial ∧ b.ctl.pcie = a.ctl.pcie
  slots : ∀ n, (a.slot n).Grows (b.slot n)

theorem Dev.Settles.refl (d : Dev) : d.Settles d := ⟨d.changesOnly_refl _, by simp, fun n => .refl _⟩

theorem Dev.Settles.trans {a b c : Dev} (h : a.Settles b) (k : b.Settles c) : a.Settles c :=
  ⟨Dev.changesOnly_trans h.parts k.parts, by simp [k.ctl, h.ctl], fun n => (h.slots n).trans (k.slots n)⟩

theorem Dev.slot_takeCmd_self (d : Dev) (n i : Nat) :
    (d.takeCmd n i).slot n = { d.slot n with cmds := (d.slot n).cmds.eraseIdx i } := by
  rw [Dev.takeCmd, Dev.slot_withServed, Dev.slot_modSlot_self]

theorem Dev.slot_takeCmd_ne (d : Dev) {n m : Nat} (i : Nat) (h : m ≠ n) : (d.takeCmd n i).slot m = d.slot m := by
  rw [Dev.takeCmd, Dev.slot_withServed, Dev.slot_modSlot_ne d _ h]

theorem Dev.settles_takeCmd (d : Dev) (slot i : Nat) : d.Settles (d.takeCmd slot i) := by
  refine ⟨by simp [Dev.takeCmd, Dev.changesOnly], by simp [Dev.takeCmd, Dev.modSlot], fun n => ?_⟩
  by_cases h : n = slot
  · subst h; rw [Dev.slot_takeCmd_self]; exact ⟨⟨(d.slot n).cmds.eraseIdx i, [], by simp⟩⟩
  · rw [Dev.slot_takeCmd_ne d i h]; exact .refl _

theorem Dev.settles_respond (d : Dev) {slot : Nat} (h : slot < 8) (cmd : Item) (st : Status) (r : Res) :
    d.Settles (d.respond slot cmd st r) := by
  refine ⟨d.changesOnly_respond h cmd st r, by simp [Dev.respond_lt d h, Dev.modSlot], fun n => ?_⟩
  by_cases hn : n = slot
  · subst hn; exact ⟨⟨(d.slot n).cmds, [d.rspItem n cmd st r], by simp [Dev.respond_lt d h, Bobbin.push]⟩⟩
  · simp only [Dev.respond_lt d h, Dev.count_slot, Dev.slot_modSlot_ne d _ hn]; exact .refl _

/-- The controller serves slots 0 to 7. -/
theorem Dev.nextCmd_lt {d : Dev} {n i : Nat} {e : CmdEntry} (h : d.nextCmd = some (n, i, e)) : n < 8 := by
  unfold Dev.nextCmd at h
  split at h
  · cases h
  · have hm := List.mem_of_find?_eq_some h
    simp only [List.mem_filterMap, List.mem_map, List.mem_range, Option.map_eq_some_iff] at hm
    obtain ⟨m, ⟨j, _, rfl⟩, x, _, hx⟩ := hm
    simp only [Prod.mk.injEq] at hx
    omega

theorem Dev.settles_settle (k : Nat) (d : Dev) : d.Settles (d.settle k) := by
  induction k generalizing d with
  | zero => exact .refl d
  | succ k ih =>
    unfold Dev.settle
    split
    · exact .refl d
    · rename_i slot i e h
      split
      · exact .refl d
      · have hs := Dev.nextCmd_lt h
        exact ((d.settles_takeCmd slot i).trans (Dev.settles_respond _ hs _ _ _)).trans (ih _)

/-! ### What settling and responding leave alone -/

/-- A part that is not listed is unchanged. -/
theorem part_same {α : Type} {p : Part} {l : List Part} {x y : α} (h : p ∈ l ∨ y = x) (hp : p ∉ l) : y = x := h.resolve_left hp

@[simp] theorem Dev.settle_now (k : Nat) (d : Dev) : (d.settle k).now = d.now :=
  part_same (Dev.settles_settle k d).parts.1 (by decide)
@[simp] theorem Dev.settle_boundary (k : Nat) (d : Dev) : (d.settle k).boundary = d.boundary :=
  part_same (Dev.settles_settle k d).parts.2.1 (by decide)
@[simp] theorem Dev.settle_free (k : Nat) (d : Dev) : (d.settle k).free = d.free :=
  part_same (Dev.settles_settle k d).parts.2.2.1 (by decide)
@[simp] theorem Dev.settle_cfg (k : Nat) (d : Dev) : (d.settle k).cfg = d.cfg :=
  part_same (Dev.settles_settle k d).parts.2.2.2.2.1 (by decide)
@[simp] theorem Dev.settle_quilt (k : Nat) (d : Dev) : (d.settle k).quilt = d.quilt :=
  part_same (Dev.settles_settle k d).parts.2.2.2.2.2.1 (by decide)
@[simp] theorem Dev.settle_power (k : Nat) (d : Dev) : (d.settle k).power = d.power :=
  part_same (Dev.settles_settle k d).parts.2.2.2.2.2.2.1 (by decide)
@[simp] theorem Dev.settle_boot (k : Nat) (d : Dev) : (d.settle k).boot = d.boot :=
  part_same (Dev.settles_settle k d).parts.2.2.2.2.2.2.2.1 (by decide)
@[simp] theorem Dev.settle_otp (k : Nat) (d : Dev) : (d.settle k).otp = d.otp :=
  part_same (Dev.settles_settle k d).parts.2.2.2.2.2.2.2.2.1 (by decide)
@[simp] theorem Dev.settle_time (k : Nat) (d : Dev) : (d.settle k).time = d.time :=
  part_same (Dev.settles_settle k d).parts.2.2.2.2.2.2.2.2.2.2.1 (by decide)
@[simp] theorem Dev.settle_conv (k : Nat) (d : Dev) : (d.settle k).conv = d.conv :=
  part_same (Dev.settles_settle k d).parts.2.2.2.2.2.2.2.2.2.2.2.1 (by decide)
@[simp] theorem Dev.settle_line (k : Nat) (d : Dev) : (d.settle k).line = d.line :=
  part_same (Dev.settles_settle k d).parts.2.2.2.2.2.2.2.2.2.2.2.2.1 (by decide)
@[simp] theorem Dev.settle_scs (k : Nat) (d : Dev) : (d.settle k).scs = d.scs :=
  part_same (Dev.settles_settle k d).parts.2.2.2.2.2.2.2.2.2.2.2.2.2.1 (by decide)
@[simp] theorem Dev.settle_conts (k : Nat) (d : Dev) : (d.settle k).conts = d.conts :=
  part_same (Dev.settles_settle k d).parts.2.2.2.2.2.2.2.2.2.2.2.2.2.2.1 (by decide)
@[simp] theorem Dev.settle_ohd (k : Nat) (d : Dev) : (d.settle k).ohd = d.ohd :=
  part_same (Dev.settles_settle k d).parts.2.2.2.2.2.2.2.2.2.2.2.2.2.2.2.1 (by decide)
@[simp] theorem Dev.settle_ref (k : Nat) (d : Dev) : (d.settle k).ref = d.ref :=
  part_same (Dev.settles_settle k d).parts.2.2.2.2.2.2.2.2.2.2.2.2.2.2.2.2.1 (by decide)
@[simp] theorem Dev.settle_lane (k : Nat) (d : Dev) : (d.settle k).lane = d.lane :=
  part_same (Dev.settles_settle k d).parts.2.2.2.2.2.2.2.2.2.2.2.2.2.2.2.2.2.1 (by decide)
@[simp] theorem Dev.settle_pkt (k : Nat) (d : Dev) : (d.settle k).pkt = d.pkt :=
  part_same (Dev.settles_settle k d).parts.2.2.2.2.2.2.2.2.2.2.2.2.2.2.2.2.2.2.1 (by decide)
@[simp] theorem Dev.settle_mem (k : Nat) (d : Dev) : (d.settle k).mem = d.mem :=
  part_same (Dev.settles_settle k d).parts.2.2.2.2.2.2.2.2.2.2.2.2.2.2.2.2.2.2.2.1 (by decide)
@[simp] theorem Dev.settle_crypt (k : Nat) (d : Dev) : (d.settle k).crypt = d.crypt :=
  part_same (Dev.settles_settle k d).parts.2.2.2.2.2.2.2.2.2.2.2.2.2.2.2.2.2.2.2.2 (by decide)
theorem Dev.respond_now (d : Dev) {n : Nat} (h : n < 8) (c : Item) (st : Status) (r : Res) : (d.respond n c st r).now = d.now := by
  simp [Dev.respond_lt d h]
theorem Dev.respond_boundary (d : Dev) {n : Nat} (h : n < 8) (c : Item) (st : Status) (r : Res) : (d.respond n c st r).boundary = d.boundary := by
  simp [Dev.respond_lt d h]
theorem Dev.respond_free (d : Dev) {n : Nat} (h : n < 8) (c : Item) (st : Status) (r : Res) : (d.respond n c st r).free = d.free := by
  simp [Dev.respond_lt d h]
theorem Dev.respond_cfg (d : Dev) {n : Nat} (h : n < 8) (c : Item) (st : Status) (r : Res) : (d.respond n c st r).cfg = d.cfg := by
  simp [Dev.respond_lt d h]
theorem Dev.respond_quilt (d : Dev) {n : Nat} (h : n < 8) (c : Item) (st : Status) (r : Res) : (d.respond n c st r).quilt = d.quilt := by
  simp [Dev.respond_lt d h]
theorem Dev.respond_power (d : Dev) {n : Nat} (h : n < 8) (c : Item) (st : Status) (r : Res) : (d.respond n c st r).power = d.power := by
  simp [Dev.respond_lt d h]
theorem Dev.respond_boot (d : Dev) {n : Nat} (h : n < 8) (c : Item) (st : Status) (r : Res) : (d.respond n c st r).boot = d.boot := by
  simp [Dev.respond_lt d h]
theorem Dev.respond_otp (d : Dev) {n : Nat} (h : n < 8) (c : Item) (st : Status) (r : Res) : (d.respond n c st r).otp = d.otp := by
  simp [Dev.respond_lt d h]
theorem Dev.respond_time (d : Dev) {n : Nat} (h : n < 8) (c : Item) (st : Status) (r : Res) : (d.respond n c st r).time = d.time := by
  simp [Dev.respond_lt d h]
theorem Dev.respond_conv (d : Dev) {n : Nat} (h : n < 8) (c : Item) (st : Status) (r : Res) : (d.respond n c st r).conv = d.conv := by
  simp [Dev.respond_lt d h]
theorem Dev.respond_line (d : Dev) {n : Nat} (h : n < 8) (c : Item) (st : Status) (r : Res) : (d.respond n c st r).line = d.line := by
  simp [Dev.respond_lt d h]
theorem Dev.respond_scs (d : Dev) {n : Nat} (h : n < 8) (c : Item) (st : Status) (r : Res) : (d.respond n c st r).scs = d.scs := by
  simp [Dev.respond_lt d h]
theorem Dev.respond_conts (d : Dev) {n : Nat} (h : n < 8) (c : Item) (st : Status) (r : Res) : (d.respond n c st r).conts = d.conts := by
  simp [Dev.respond_lt d h]
theorem Dev.respond_ohd (d : Dev) {n : Nat} (h : n < 8) (c : Item) (st : Status) (r : Res) : (d.respond n c st r).ohd = d.ohd := by
  simp [Dev.respond_lt d h]
theorem Dev.respond_ref (d : Dev) {n : Nat} (h : n < 8) (c : Item) (st : Status) (r : Res) : (d.respond n c st r).ref = d.ref := by
  simp [Dev.respond_lt d h]
theorem Dev.respond_lane (d : Dev) {n : Nat} (h : n < 8) (c : Item) (st : Status) (r : Res) : (d.respond n c st r).lane = d.lane := by
  simp [Dev.respond_lt d h]
theorem Dev.respond_pkt (d : Dev) {n : Nat} (h : n < 8) (c : Item) (st : Status) (r : Res) : (d.respond n c st r).pkt = d.pkt := by
  simp [Dev.respond_lt d h]
theorem Dev.respond_mem (d : Dev) {n : Nat} (h : n < 8) (c : Item) (st : Status) (r : Res) : (d.respond n c st r).mem = d.mem := by
  simp [Dev.respond_lt d h]
theorem Dev.respond_crypt (d : Dev) {n : Nat} (h : n < 8) (c : Item) (st : Status) (r : Res) : (d.respond n c st r).crypt = d.crypt := by
  simp [Dev.respond_lt d h]

end Sys2Proof.Machine
end

