-- ==== Sys2Proof/Laws/Mem.lean ====
section
/-! SUPPORT. The memories: a read after a write, what a fill or a sleep leaves, and that every operation keeps the canonical form. -/

namespace Sys2Proof.Machine

/-! ### Tables, filtered -/

theorem Tab.rising_filter {t : Tab α} {b : Nat} (h : Tab.rising b t = true) (p : Nat × α → Bool) : Tab.rising b (t.filter p) = true := by
  induction t generalizing b with
  | nil => rfl
  | cons e t ih =>
    obtain ⟨i, v⟩ := e
    simp only [Tab.rising, Bool.and_eq_true, decide_eq_true_eq] at h
    by_cases hp : p (i, v) = true
    · simp only [List.filter_cons_of_pos hp, Tab.rising, Bool.and_eq_true, decide_eq_true_eq]; exact ⟨h.1, ih h.2⟩
    · rw [List.filter_cons_of_neg hp]; exact ih (Tab.rising_mono h.2 (by omega))

/-- A table stays canonical under a new default that agrees with the old one at every key kept. -/
theorem Tab.wf_filter [DecidableEq α] {d e : Nat → α} {t : Tab α} (h : t.wf d = true) {p : Nat × α → Bool}
    (he : ∀ x, p x = true → e x.1 = d x.1) : Tab.wf e (t.filter p) = true := by
  simp only [Tab.wf, Bool.and_eq_true, List.all_eq_true, decide_eq_true_eq, List.mem_filter] at h ⊢
  exact ⟨Tab.rising_filter h.1 p, fun x hx => by rw [he x hx.2]; exact h.2 x hx.1⟩

/-- A key that a filter on keys drops reads as the default. -/
theorem Tab.get_filter_out (d : Nat → α) (t : Tab α) (p : Nat → Bool) {k : Nat} (h : p k = false) :
    Tab.get d (t.filter fun e => p e.1) k = d k := by
  induction t with
  | nil => rfl
  | cons e t ih =>
    obtain ⟨i, v⟩ := e
    by_cases hp : p i = true
    · have hk : i ≠ k := by rintro rfl; simp [h] at hp
      simpa [List.filter_cons, hp, Tab.get, hk] using ih
    · simpa [List.filter_cons, hp] using ih

/-- A key that a filter on keys keeps reads as before, where the defaults agree. -/
theorem Tab.get_filter_in {d e : Nat → α} (t : Tab α) (p : Nat → Bool) {k : Nat} (h : p k = true) (he : e k = d k) :
    Tab.get e (t.filter fun x => p x.1) k = t.get d k := by
  induction t with
  | nil => exact he
  | cons x t ih =>
    obtain ⟨i, v⟩ := x
    by_cases hk : i = k
    · subst hk; simp [h, Tab.get]
    · by_cases hp : p i = true
      · simpa [List.filter_cons, hp, Tab.get, hk] using ih
      · simpa [List.filter_cons, hp, Tab.get, hk] using ih

/-! ### Lines (R434, R437) -/

@[simp] theorem Dev.hbmLine_setLine_self (d : Dev) (n : Nat) (l : MemLine) : (d.setLine n l).hbmLine n = some l :=
  Tab.get_set_self d.mem.plain d.mem.lines n (some l)

theorem Dev.hbmLine_setLine_ne (d : Dev) {n k : Nat} (l : MemLine) (h : k ≠ n) : (d.setLine n l).hbmLine k = d.hbmLine k :=
  Tab.get_set_ne d.mem.plain d.mem.lines _ h

@[simp] theorem Dev.hbmLine_count (d : Dev) (u : MonUnit) (c k n : Nat) : (d.count u c k).hbmLine n = d.hbmLine n := by
  simp [Dev.hbmLine]

@[simp] theorem Dev.hbmLine_writeLine_self (d : Dev) (n x : Nat) : (d.writeLine n x).hbmLine n = some ⟨x, .own⟩ := by simp [Dev.writeLine]

theorem Dev.hbmLine_writeLine_ne (d : Dev) {n k : Nat} (x : Nat) (h : k ≠ n) : (d.writeLine n x).hbmLine k = d.hbmLine k := by
  simp [Dev.writeLine, Dev.hbmLine_setLine_ne d _ h]

/-- A fill's line depends on its pattern alone. -/
theorem FillSpan.line_congr {f g : FillSpan} (h : f.pattern = g.pattern) (k : Nat) : f.line k = g.line k := by
  unfold FillSpan.line; rw [h]

/-- A fill, as what it leaves. -/
theorem MemAll.plain_fillLines (a : MemAll) (n count pattern k : Nat) :
    (a.fillLines n count pattern).plain k =
      if n ≤ k ∧ k < n + count then some (FillSpan.line ⟨n, count, pattern⟩ k) else a.plain k := by
  unfold MemAll.plain MemAll.fillLines
  dsimp only
  cases a.fills with
  | nil => rfl
  | cons f r =>
    dsimp only
    split
    · rename_i hm
      have g1 := FillSpan.line_congr (f := { f with count := f.count + count }) (g := ⟨n, count, pattern⟩) hm.1 k
      have g2 := FillSpan.line_congr (f := f) (g := ⟨n, count, pattern⟩) hm.1 k
      simp only [plainOf, g1, g2]
      split <;> split <;> try split
      all_goals first | rfl | omega
    · rfl

/-- Outside the lines of a fill everything reads as before. -/
theorem MemAll.plain_fillLines_out (a : MemAll) {n count k : Nat} (pattern : Nat) (h : k < n ∨ n + count ≤ k) :
    (a.fillLines n count pattern).plain k = a.plain k := by
  rw [MemAll.plain_fillLines, if_neg (by omega)]

/-- What a sleeping stack's fills leave elsewhere. -/
theorem MemAll.plain_loseStack_out (a : MemAll) {m k : Nat} (h : k / 2 ^ 28 ≠ m) : (a.loseStack m).plain k = a.plain k := by
  have hk : k < m * 2 ^ 28 ∨ (m + 1) * 2 ^ 28 ≤ k := by omega
  unfold MemAll.plain MemAll.loseStack
  dsimp only
  induction a.fills with
  | nil => rfl
  | cons f r ih =>
    have g : ∀ x y : Nat, FillSpan.line ⟨x, y, f.pattern⟩ k = f.line k := fun x y => FillSpan.line_congr rfl k
    simp only [List.flatMap_cons, FillSpan.without, List.cons_append, List.nil_append, plainOf, g]
    simp only [FillSpan.without] at ih
    rw [ih]
    split <;> split <;> try split
    all_goals first | rfl | omega

/-! ### The canonical form -/

/-- Memory is canonical at reset. -/
theorem MemAll.wf_reset : State.reset.dev.mem.wf = true := rfl

/-- Storing a line keeps the canonical form. -/
theorem MemAll.wf_set {a : MemAll} (h : a.wf = true) (n : Nat) (l : MemLine) :
    MemAll.wf { a with lines := a.lines.set a.plain n (some l) } = true := Tab.wf_set h n _

/-- So does a fill. -/
theorem MemAll.wf_fillLines {a : MemAll} (h : a.wf = true) (n count pattern : Nat) : (a.fillLines n count pattern).wf = true :=
  Tab.wf_filter (d := a.plain) h fun x hx => a.plain_fillLines_out pattern (by simpa using hx)

/-- So does the sleep of a stack. -/
theorem MemAll.wf_loseStack {a : MemAll} (h : a.wf = true) (m : Nat) : (a.loseStack m).wf = true :=
  Tab.wf_filter (d := a.plain) h fun x hx => a.plain_loseStack_out (by simpa using hx)

theorem Dev.wf_setLine {d : Dev} (h : d.mem.wf = true) (n : Nat) (l : MemLine) : (d.setLine n l).mem.wf = true := MemAll.wf_set h n l

theorem Dev.wf_writeLine {d : Dev} (h : d.mem.wf = true) (n x : Nat) : (d.writeLine n x).mem.wf = true := by
  simpa [Dev.writeLine] using Dev.wf_setLine h n _

end Sys2Proof.Machine
end

