-- ==== Sys2Proof/WellFormed.lean ====
section
/-! DEFINITION. The commands whose operands name something that exists and lie in the widths the spec gives them. A meaning is total; an
ill-formed command is one that no outside can send. -/

namespace Sys2Proof

open Machine

namespace WellFormed

/-- A session slot (R31). -/
def slotOk (n : Nat) : Bool := decide (n < 8)

/-- A bobbin of an existing slot (R31, R32). -/
def bobOk : Bob → Bool
  | .slot n => slotOk n
  | .event | .stamp => true

/-- An access within BAR0, of at most 8 bytes, or any SPI transfer (R29, R34). -/
def accessOk : Access → Bool
  | .pcie a n v => decide (1 ≤ n ∧ n ≤ 8 ∧ a + n ≤ 65536 ∧ v < 2 ^ (8 * n))
  | .spi _ => true

/-- A subcarrier (R64). -/
def scOk (n : Nat) : Bool := decide (n < 32)

/-- A slot, at most 4,096 descriptors and 64 MiB of data (R51). -/
def callOk (c : HostCall) : Bool := slotOk c.slot && decide (c.descs.length ≤ 4096 ∧ c.bytes.length ≤ 67108864)

/-- The point at which a patch of a commit applies (R73). -/
def applyOk : ApplyPoint → Bool
  | .device => true
  | .receive sc => scOk sc

/-- A quilt link (R83). -/
def linkOk : QLink → Bool
  | .line sc => scOk sc
  | .burst n => decide (n < 4095)
  | .stitch => true

/-- A message header (R85). -/
def headOk (h : QHead) : Bool :=
  linkOk h.link && decide (h.hopsLeft ≤ 64 ∧ h.dst < 4096 ∧ h.src < 4096 ∧ h.opId < 65536)

/-- A quilt time (R320). -/
def qtimeOk (t : QTime) : Bool := decide (t.sec < 2 ^ 48 ∧ t.ns < 1000000000)

/-- The body of `HELLO` (R86). -/
def helloOk (b : HelloBody) : Bool :=
  decide (b.coord < 4096 ∧ b.distance < 256 ∧ b.quiltGen < 2 ^ 32 ∧ b.subtree < 65536 ∧ b.maxDepth < 256)

/-- A part of a stream: at most 44 bytes (R85, R86). -/
def partOk (b : PartBody) : Bool := slotOk b.slot && decide (b.part < 65536 ∧ b.bytes.length ≤ 44)

/-- The body of `PREPARE` (R86). -/
def prepareOk (b : PrepareBody) : Bool :=
  decide (b.target < 4096 ∧ b.newGen < 2 ^ 32 ∧ b.policy < 4) && qtimeOk b.ackDeadline && qtimeOk b.tMax

/-- The body of `ACK` (R86). -/
def ackOk (b : AckBody) : Bool :=
  decide (b.newGen < 2 ^ 32 ∧ b.count < 65536 ∧ b.missCount < 65536) && b.missing.all fun n => decide (n < 4096)

/-- A laser bus transaction reads at most 64 bytes (R117). -/
def lasOk : LasEnd → Bool
  | .done l => decide (l.length ≤ 64)
  | .nack | .heldLow => true

/-- A pass of a calibration run measures 8 converters, each of 130 slices, and 1,024 table entries (R98, R118). -/
def calPassOk (l : List CalConv) : Bool :=
  decide (l.length ≤ 8) && l.all fun x => decide (x.slices.length ≤ 130 ∧ x.lin.length ≤ 1024)

/-- A calibration run measures the 8 converters in two passes (R119). -/
def calOk (m : CalMeas) : Bool := calPassOk m.passA && calPassOk m.passB && decide (m.quality.length ≤ 8)

/-- The samples of a converter are 10-bit codes (R99). -/
def levelOk (m : LevelMeas) : Bool := m.codes.all fun c => decide (-512 ≤ c.1 ∧ c.1 ≤ 511)

/-- A word or line in error (R437): HBM stacks 0 and 1, on-die stores 2 to 17. -/
def hitOk (h : MemHit) : Bool := decide (h.mem < 18)

/-- What a packet meets (R327, R440). -/
def envOk (e : PktEnv) : Bool := decide (e.outCfr < 65536) && (e.hit.map hitOk).getD true

/-- The sample codes of the four ADCs, 10 bits each, as many of one as of another (R99). -/
def codesOk (l : List (List Int)) : Bool :=
  decide (l.length = 4) && l.all fun c => decide (c.length = (l.headD []).length) && c.all fun v => decide (-512 ≤ v ∧ v ≤ 511)

/-- A received line frame (R173, R219). -/
def rxFrameOk (f : RxFrame) : Bool := scOk f.sc && codesOk f.codes && decide (f.grid.getD 0 < 64 ∧ f.cfr < 65536)

/-- The symbols of a frame that the aligner checks (R236, R237). -/
def frameSymsOk (m : FrameSyms) : Bool := decide (m.word.length = 64 ∧ m.pilots.length = 1366)

/-- A granted data burst (R288, R300). -/
def dataBurstOk (b : DataBurst) : Bool :=
  decide (b.leaf < 4095 ∧ b.slot < 8 ∧ b.fine.natAbs ≤ 4) && codesOk b.codes && b.envs.all envOk

/-- A burst of the open search (R288). -/
def openBurstOk (b : OpenBurst) : Bool := scOk b.sc && codesOk b.codes

/-- A tree message record (R295). -/
def treeOk (h : TreeHead) : Bool := decide (h.mseq < 256 ∧ h.leaf < 4096)

/-- The body of `REPORT` (R295). -/
def reportOk (b : ReportBody) : Bool := decide (b.freq < 65536 ∧ b.snr < 65536 ∧ b.bei < 16 ∧ b.rtd < 2 ^ 32)

/-- The body of `MOVE` (R295). -/
def moveOk (b : MoveBody) : Bool :=
  scOk b.rxFirst && scOk b.txFirst && scOk b.home && decide (b.rxCount < 8 ∧ b.txCount < 8)

/-- A stitch frame: 4,600 overhead bytes, and the payload area of 320 positions (R385, R386). -/
def stitchOk (f : StitchFrame) : Bool := decide (f.soh.length = 4600 ∧ f.payload.length = 2000000 ∧ f.frac < 65536 ∧ f.symbols.length ≤ 8 ∧ f.slips.length ≤ 8)

/-- A frame from a host port (R377, R378). -/
def hostFrameOk (f : HostFrame) : Bool := decide (f.port < 16 ∧ f.cfr < 65536 ∧ f.symbols.length ≤ 8 ∧ f.slips.length ≤ 8)

/-- A scheduling opportunity (R424). -/
def serviceOk (q : ServiceSlot) : Bool := decide (q.cfr < 65536) && (q.hit.map hitOk).getD true

/-- A lane marker (R384). -/
def markerOk (m : Marker) : Bool := decide (m.bytes.length ≤ 41 ∧ m.word < 6250)

/-- A power unit that exists (R478). -/
def unitOk : PowerUnit → Bool
  | .pll | .core | .lem | .capt => true
  | .wb n => decide (n < 4)
  | .sc n => decide (n < 32)
  | .hbm n => decide (n < 2)
  | .pipe n => decide (n < 8)
  | .cipher n => decide (n < 5)
  | .hostIn n | .hostOut n => decide (n < 16)
  | .stIn n | .stOut n => decide (n < 8)

end WellFormed

open WellFormed in
/-- The operands of a command name things that exist and lie in their widths. -/
def Instr.wf : Instr → Bool
  | .sessionOpen c | .sessionProve c | .sessionClose c | .sessionEvict c | .sessionClaim c | .sessionCredSet c
  | .sessionOpResult c | .sysRole c | .sysRoleRead c | .sysEventSet c | .sysReset c | .sysBootRead c | .cfgCommit c
  | .cfgDiscard c | .cfgCancel c | .cfgGenRead c | .cfgSnapPin c | .cfgGroupSet c | .cfgGroupRead c | .quiltSet c
  | .quiltView c | .quiltRejoin c | .convGain c | .convSwing c | .convLevelRead c | .convMonSet c | .convFeSet c
  | .convFeWrite c | .convFeRead c | .convLasSet c | .convLasWrite c | .convLasRead c | .calRun c | .calPolicy c
  | .calQuality c | .calSets c | .calExport c | .calImport c | .calDrop c | .loadPlan c | .loadSnrRead c
  | .loadPolicy c | .loadNarrow c | .loadPropose c | .loadStatus c | .loadShapeRead c | .eqCdSet c | .eqCdScan c
  | .eqFrontEnd c | .eqPolSet c | .eqLineSet c | .eqTxResponse c | .eqReacquire c | .eqLineStatus c | .eqStatus c
  | .eqScanRead c | .fecMode c | .fecInject c | .fecStatus c | .frameSlotMap c | .frameContainer c | .frameAlignSet c
  | .frameLoopback c | .frameStatus c | .frameContainerStatus c | .ohSectionSet c | .ohTtiSet c | .ohPathSet c
  | .ohPmRead c | .ohDefectRead c | .protGroup c | .protRequest c | .protStatus c | .protReskew c | .burstTree c
  | .burstShare c | .burstGrants c | .burstAdmit c | .burstInvite c | .burstRange c | .burstLeafStatus c
  | .burstDiscRead c | .burstMove c | .burstLeafCfg c | .burstLeafRead c | .timeStep c | .timeSlew c | .timeRead c
  | .timeLost c | .timeLinkSet c | .timePortSet c | .timeTtStatus c | .timePortStatus c | .refInputSet c
  | .refSelectSet c | .refOutputSet c | .refHoldoverSet c | .refStatus c | .refInputStatus c | .refPtpSet c
  | .refModelExport c | .refModelImport c | .refWtrClear c | .lanePortSet c | .laneEqSet c | .laneLoopback c
  | .laneStitchSet c | .laneStatus c | .lanePortStatus c | .laneStitchStatus c | .parseProfile c | .parseSelect c
  | .parseGlobal c | .classEntryAdd c | .classEntryDel c | .classActionSet c | .classBulk c | .classExpressSet c
  | .classException c | .classGenClear c | .classStatus c | .classFlowRead c | .classPipeStatus c | .queueSet c
  | .queueStatus c | .memRegion c | .memBudget c | .memFill c | .memScrubSet c | .memTestWrite c | .memRemap c
  | .memErrRead c | .memStatus c | .cryptContextSet c | .cryptKeyLoad c | .cryptKeyErase c | .cryptUnquarantine c
  | .cryptAlarmSet c | .cryptAlarmClear c | .cryptZeroise c | .cryptStatus c | .cryptContextRead c | .powerSet c
  | .powerBudget c | .powerStatus c | .monSelect c | .monDumpSet c | .monRead c | .monStatus c | .hkSeqSet c
  | .hkRead c | .captCoef c | .captStart c | .captStop c | .captStatus c | .otpProgram c | .otpStatus c | .otpRead c
  | .fwLoad c | .fwInfo c => callOk c
  | .proveWaitEnd | .deviceFrameBoundary | .queuedQuiltCommitStart | .helloTimer | .ackSendDeadline
  | .ackDeadlineExpiry | .preparedSilenceTimeout | .parentHelloLoss | .detachedRecheck | .feWritesDone
  | .lasbusStretchTimeout | .calTrigger | .lineTrackLoss | .performanceSecond | .pmIntervalEnd | .discResponseTimeout
  | .silentTimeout | .stepAtCount | .stepPulseTimeout | .slewHoldEnd | .acquireLocked | .modelLearnUpdate
  | .generationRetired | .fillBurstEnd | .keyLoadBulkEnd | .leaveGrant | .rampStart | .thermalShutdown
  | .captureRunStart _ | .captureEnd | .porAssert | .imageCheckEnd | .deviceResetStart | .watchdogReset
  | .controllerMemoryFault | .patchResetApply | .lastGaspEnd | .pfailRecover => true
  | .tagWrite slot _ => slotOk slot
  | .ring slot | .claimTimeout slot | .closedSlotTimeout slot | .idleTimeout slot | .snapPinExpiry slot
  | .forwardTimeout slot => slotOk slot
  | .next b | .mark b | .rewind b => bobOk b
  | .release b _ => bobOk b
  | .irqArmWrite _ | .cdScanEnd _ | .coarseEstimateFormed _ | .leafBurstSend _ | .ttOffsetInvalid _
  | .selectionEvaluation _ | .referenceTimeStep _ | .dumpBoundary _ | .otpProgramEnd _
  | .porRelease _ | .pfailAssert _ | .pcieLinkChange _ => true
  | .presentationRead a | .registerWrite a => accessOk a
  | .commitApply p => applyOk p
  | .hello h b => headOk h && helloOk b
  | .detach h dev gen reason => headOk h && decide (dev < 4096 ∧ gen < 2 ^ 32 ∧ reason < 256)
  | .cmd h b | .rsp h b => headOk h && partOk b
  | .prepare h b => headOk h && prepareOk b
  | .ack h b => headOk h && ackOk b
  | .veto h gen dev status => headOk h && decide (gen < 2 ^ 32 ∧ dev < 4096 ∧ status < 65536)
  | .commitAt h gen t => headOk h && decide (gen < 2 ^ 32) && qtimeOk t
  | .abort h gen status => headOk h && decide (gen < 2 ^ 32 ∧ status < 65536)
  | .levelInterval ms | .signalLost ms => decide (ms.length = 4) && ms.all levelOk
  | .lasbusTransactionEnd r => lasOk r
  | .calRunEnd m => calOk m
  | .txMultiframeBoundary sc | .gridTimeout sc | .sopAlarmClearTimeout sc | .berWindowEnd sc | .dlgClearTimeout sc => scOk sc
  | .rxMultiframeBoundary sc _ | .sopWindow sc | .preconvAttemptEnd sc | .openSearchContext sc _ => scOk sc
  | .frameLoss sc m => scOk sc && frameSymsOk m
  | .lineFrameReceived f => rxFrameOk f
  | .convergenceLost sc _ _ | .discoveryOccasion sc _ _ => scOk sc
  | .laserCorrectionDue _ | .switchComplete _ _ => true
  | .candidateTest sc pos m => scOk sc && frameSymsOk m && decide (pos < 87500)
  | .phaseLost sc _ mfi => scOk sc && decide (mfi.getD 0 < 256)
  | .chunkReceived envs => envs.all envOk
  | .anchorTimeout g | .holdOffExpiry g | .protWtrExpiry g => decide (g < 80)
  | .burstReceived b => dataBurstOk b
  | .leafAlignmentLost leaf | .rangingTimeout leaf => decide (leaf < 4095)
  | .discoveryBurstReceived b | .echoBurstReceived b => openBurstOk b
  | .seen h ident => treeOk h && decide (ident < 2 ^ 64)
  | .assign h ident v _ rtd => treeOk h && decide (ident < 2 ^ 64 ∧ v < 2 ^ 24 ∧ rtd < 2 ^ 32)
  | .eqd h v applyMfi rtd => treeOk h && decide (v < 2 ^ 24 ∧ applyMfi < 256 ∧ rtd < 2 ^ 32)
  | .range h mfi => treeOk h && decide (mfi < 256)
  | .report h b => treeOk h && reportOk b
  | .invite h ident sc => treeOk h && decide (ident < 2 ^ 64) && scOk sc
  | .move h b => treeOk h && moveOk b
  | .deregister h => treeOk h
  | .ppsEdge _ frac => decide (frac < 65536)
  | .refFailure ref cause => decide (ref < 7 ∧ cause < 8)
  | .refFailureClears ref | .refQualified ref | .refWtrExpiry ref => decide (ref < 7)
  | .todMessage _ bytes => decide (bytes.length ≤ 256)
  | .laneLock lane _ => decide (lane < 24)
  | .laneUnlock lane => decide (lane < 24)
  | .portUp port => decide (port < 16)
  | .portDown port why => decide (port < 16 ∧ why < 4)
  | .stitchFrameReceived f | .stitchAlignTimeout f | .stitchSohLoss f => stitchOk f
  | .hostFrameReceived f e => hostFrameOk f && envOk e
  | .verifiedRelease e => envOk e
  | .queueService q => serviceOk q
  | .memRead c hits | .memWrite c hits => callOk c && hits.all hitOk
  | .scrubBurstStart mem => decide (mem < 18)
  | .scrubBurstEnd mem hits => decide (mem < 18) && hits.all hitOk
  | .remapCopyDone mem entry => decide (mem < 18 ∧ entry < 16)
  | .oldHoldExpiry ctx => decide (ctx < 65536)
  | .thimbleAlarm source _ _ => decide (source < 8)
  | .wakeEnd u _ => unitOk u
  | .thermalReading ts => decide (ts.length = 8)
  | .vtileSetpointChange mv => decide (mv < 65536)
  | .oscTempReading codes => decide (codes.length = 16) && codes.all fun x => decide (x < 4096)
  | .hkResult codes => decide (codes.length ≤ 3000000) && codes.all fun x => decide (x < 4096)
  | .alignmentCandidateFound sc pos r => scOk sc && decide (pos < 87500 ∧ r.length = 64)
  | .stitchLaneMarker lane m => decide (lane < 8) && markerOk m
  | .ptpMessageInterval slave => decide (slave.getD 0 < 16)

end Sys2Proof
end

