-- ==== Sys2Proof/Laws/PerInstr.lean ====
section
/-! SUPPORT. Laws of every command as syntax: a well-formed command that a session slot sends, or that concerns one, names a slot that
exists (R31). -/

namespace Sys2Proof

open Machine

/-- The session slot that a command comes from or concerns. -/
def Instr.slot? : Instr → Option Nat
  | .sessionOpen c | .sessionProve c | .sessionClose c | .sessionEvict c | .sessionClaim c | .sessionCredSet c
  | .sessionOpResult c | .sysRole c | .sysRoleRead c | .sysEventSet c | .sysReset c | .sysBootRead c | .cfgCommit c
  | .cfgDiscard c | .cfgCancel c | .cfgGenRead c | .cfgSnapPin c | .cfgGroupSet c | .cfgGroupRead c | .quiltSet c | .quiltView c
  | .quiltRejoin c | .convGain c | .convSwing c | .convLevelRead c | .convMonSet c | .convFeSet c | .convFeWrite c | .convFeRead c
  | .convLasSet c | .convLasWrite c | .convLasRead c | .calRun c | .calPolicy c | .calQuality c | .calSets c | .calExport c
  | .calImport c | .calDrop c | .loadPlan c | .loadSnrRead c | .loadPolicy c | .loadNarrow c | .loadPropose c | .loadStatus c
  | .loadShapeRead c | .eqCdSet c | .eqCdScan c | .eqFrontEnd c | .eqPolSet c | .eqLineSet c | .eqTxResponse c | .eqReacquire c
  | .eqLineStatus c | .eqStatus c | .eqScanRead c | .fecMode c | .fecInject c | .fecStatus c | .frameSlotMap c | .frameContainer c
  | .frameAlignSet c | .frameLoopback c | .frameStatus c | .frameContainerStatus c | .ohSectionSet c | .ohTtiSet c | .ohPathSet c
  | .ohPmRead c | .ohDefectRead c | .protGroup c | .protRequest c | .protStatus c | .protReskew c | .burstTree c | .burstShare c
  | .burstGrants c | .burstAdmit c | .burstInvite c | .burstRange c | .burstLeafStatus c | .burstDiscRead c | .burstMove c
  | .burstLeafCfg c | .burstLeafRead c | .timeStep c | .timeSlew c | .timeRead c | .timeLost c | .timeLinkSet c | .timePortSet c
  | .timeTtStatus c | .timePortStatus c | .refInputSet c | .refSelectSet c | .refOutputSet c | .refHoldoverSet c | .refStatus c
  | .refInputStatus c | .refPtpSet c | .refModelExport c | .refModelImport c | .refWtrClear c | .lanePortSet c | .laneEqSet c
  | .laneLoopback c | .laneStitchSet c | .laneStatus c | .lanePortStatus c | .laneStitchStatus c | .parseProfile c
  | .parseSelect c | .parseGlobal c | .classEntryAdd c | .classEntryDel c | .classActionSet c | .classBulk c | .classExpressSet c
  | .classException c | .classGenClear c | .classStatus c | .classFlowRead c | .classPipeStatus c | .queueSet c | .queueStatus c
  | .memRegion c | .memBudget c | .memFill c | .memRead c _ | .memWrite c _ | .memScrubSet c | .memTestWrite c | .memRemap c
  | .memErrRead c | .memStatus c | .cryptContextSet c | .cryptKeyLoad c | .cryptKeyErase c | .cryptUnquarantine c
  | .cryptAlarmSet c | .cryptAlarmClear c | .cryptZeroise c | .cryptStatus c | .cryptContextRead c | .powerSet c | .powerBudget c
  | .powerStatus c | .monSelect c | .monDumpSet c | .monRead c | .monStatus c | .hkSeqSet c | .hkRead c | .captCoef c
  | .captStart c | .captStop c | .captStatus c | .otpProgram c | .otpStatus c | .otpRead c | .fwLoad c | .fwInfo c => some c.slot
  | .tagWrite n _ | .ring n | .claimTimeout n | .closedSlotTimeout n | .idleTimeout n | .snapPinExpiry n | .forwardTimeout n => some n
  | .next _ | .mark _ | .rewind _ | .release _ _ | .presentationRead _ | .irqArmWrite _ | .registerWrite _ | .commitApply _
  | .hello _ _ | .detach _ _ _ _ | .cmd _ _ | .rsp _ _ | .prepare _ _ | .ack _ _ | .veto _ _ _ _ | .commitAt _ _ _ | .abort _ _ _
  | .levelInterval _ | .lasbusTransactionEnd _ | .calRunEnd _ | .txMultiframeBoundary _ | .rxMultiframeBoundary _ _
  | .lineFrameReceived _ | .cdScanEnd _ | .signalLost _ | .coarseEstimateFormed _ | .sopWindow _ | .laserCorrectionDue _
  | .berWindowEnd _ | .candidateTest _ _ _ | .chunkReceived _ | .burstReceived _ | .discoveryBurstReceived _
  | .echoBurstReceived _ | .rangingTimeout _ | .leafBurstSend _ | .seen _ _ | .assign _ _ _ _ _ | .eqd _ _ _ _ | .range _ _
  | .report _ _ | .invite _ _ _ | .move _ _ | .deregister _ | .discoveryOccasion _ _ _ | .ppsEdge _ _ | .refFailure _ _
  | .refFailureClears _ | .refQualified _ | .refWtrExpiry _ | .selectionEvaluation _ | .switchComplete _ _ | .oscTempReading _
  | .laneLock _ _ | .laneUnlock _ | .portUp _ | .portDown _ _ | .stitchFrameReceived _ | .hostFrameReceived _ _
  | .verifiedRelease _ | .queueService _ | .scrubBurstStart _ | .scrubBurstEnd _ _ | .thimbleAlarm _ _ _ | .wakeEnd _ _
  | .thermalReading _ | .dumpBoundary _ | .hkResult _ | .otpProgramEnd _ | .porRelease _ | .pfailAssert _
  | .alignmentCandidateFound _ _ _ | .openSearchContext _ _ | .stitchLaneMarker _ _ | .pcieLinkChange _
  | .preconvAttemptEnd _ | .gridTimeout _ | .convergenceLost _ _ _ | .sopAlarmClearTimeout _ | .frameLoss _ _ | .phaseLost _ _ _
  | .dlgClearTimeout _ | .anchorTimeout _ | .holdOffExpiry _ | .protWtrExpiry _ | .leafAlignmentLost _ | .ttOffsetInvalid _
  | .todMessage _ _ | .referenceTimeStep _ | .stitchAlignTimeout _ | .stitchSohLoss _ | .remapCopyDone _ _ | .oldHoldExpiry _
  | .vtileSetpointChange _ | .ptpMessageInterval _ | .proveWaitEnd | .deviceFrameBoundary | .queuedQuiltCommitStart | .helloTimer
  | .ackSendDeadline | .ackDeadlineExpiry | .preparedSilenceTimeout | .parentHelloLoss | .detachedRecheck | .feWritesDone
  | .lasbusStretchTimeout | .calTrigger | .lineTrackLoss | .performanceSecond | .pmIntervalEnd | .discResponseTimeout
  | .silentTimeout | .stepAtCount | .stepPulseTimeout | .slewHoldEnd | .acquireLocked | .modelLearnUpdate | .generationRetired
  | .fillBurstEnd | .keyLoadBulkEnd | .leaveGrant | .rampStart | .thermalShutdown | .captureRunStart _ | .captureEnd | .porAssert
  | .imageCheckEnd | .deviceResetStart | .watchdogReset | .controllerMemoryFault | .patchResetApply | .lastGaspEnd | .pfailRecover => none

namespace Laws.SlotExists

/-- A well-formed command's slot is one of the eight. -/
def Statement (i : Instr) : Prop := i.wf = true → ∀ n, i.slot? = some n → n < 8

theorem of_none {i : Instr} (h : i.slot? = none) : Statement i := fun _ n e => by rw [h] at e; cases e

theorem of_call (c : HostCall) (h : WellFormed.callOk c = true) (n : Nat) (e : some c.slot = some n) : n < 8 := by
  cases e
  exact of_decide_eq_true (Bool.and_eq_true_iff.mp h).1

theorem of_slot (k : Nat) (h : WellFormed.slotOk k = true) (n : Nat) (e : some k = some n) : n < 8 := by
  cases e
  exact of_decide_eq_true h

theorem tagWrite (slot : Nat) (tag : BitVec 16) : Statement (.tagWrite slot tag) := of_slot slot
theorem ring (slot : Nat) : Statement (.ring slot) := of_slot slot
theorem next (b : Bob) : Statement (.next b) := of_none rfl
theorem mark (b : Bob) : Statement (.mark b) := of_none rfl
theorem rewind (b : Bob) : Statement (.rewind b) := of_none rfl
theorem release (b : Bob) (seq : BitVec 16) : Statement (.release b seq) := of_none rfl
theorem presentationRead (r : Access) : Statement (.presentationRead r) := of_none rfl
theorem irqArmWrite (v : BitVec 16) : Statement (.irqArmWrite v) := of_none rfl
theorem registerWrite (w : Access) : Statement (.registerWrite w) := of_none rfl
theorem claimTimeout (slot : Nat) : Statement (.claimTimeout slot) := of_slot slot
theorem closedSlotTimeout (slot : Nat) : Statement (.closedSlotTimeout slot) := of_slot slot
theorem idleTimeout (slot : Nat) : Statement (.idleTimeout slot) := of_slot slot
theorem sessionOpen (c : HostCall) : Statement (.sessionOpen c) := of_call c
theorem sessionProve (c : HostCall) : Statement (.sessionProve c) := of_call c
theorem sessionClose (c : HostCall) : Statement (.sessionClose c) := of_call c
theorem sessionEvict (c : HostCall) : Statement (.sessionEvict c) := of_call c
theorem sessionClaim (c : HostCall) : Statement (.sessionClaim c) := of_call c
theorem sessionCredSet (c : HostCall) : Statement (.sessionCredSet c) := of_call c
theorem sessionOpResult (c : HostCall) : Statement (.sessionOpResult c) := of_call c
theorem sysRole (c : HostCall) : Statement (.sysRole c) := of_call c
theorem sysRoleRead (c : HostCall) : Statement (.sysRoleRead c) := of_call c
theorem sysEventSet (c : HostCall) : Statement (.sysEventSet c) := of_call c
theorem sysReset (c : HostCall) : Statement (.sysReset c) := of_call c
theorem sysBootRead (c : HostCall) : Statement (.sysBootRead c) := of_call c
theorem cfgCommit (c : HostCall) : Statement (.cfgCommit c) := of_call c
theorem cfgDiscard (c : HostCall) : Statement (.cfgDiscard c) := of_call c
theorem cfgCancel (c : HostCall) : Statement (.cfgCancel c) := of_call c
theorem cfgGenRead (c : HostCall) : Statement (.cfgGenRead c) := of_call c
theorem cfgSnapPin (c : HostCall) : Statement (.cfgSnapPin c) := of_call c
theorem snapPinExpiry (slot : Nat) : Statement (.snapPinExpiry slot) := of_slot slot
theorem cfgGroupSet (c : HostCall) : Statement (.cfgGroupSet c) := of_call c
theorem cfgGroupRead (c : HostCall) : Statement (.cfgGroupRead c) := of_call c
theorem commitApply (point : ApplyPoint) : Statement (.commitApply point) := of_none rfl
theorem quiltSet (c : HostCall) : Statement (.quiltSet c) := of_call c
theorem quiltView (c : HostCall) : Statement (.quiltView c) := of_call c
theorem quiltRejoin (c : HostCall) : Statement (.quiltRejoin c) := of_call c
theorem hello (h : QHead) (b : HelloBody) : Statement (.hello h b) := of_none rfl
theorem detach (h : QHead) (dev gen reason : Nat) : Statement (.detach h dev gen reason) := of_none rfl
theorem cmd (h : QHead) (b : PartBody) : Statement (.cmd h b) := of_none rfl
theorem rsp (h : QHead) (b : PartBody) : Statement (.rsp h b) := of_none rfl
theorem forwardTimeout (slot : Nat) : Statement (.forwardTimeout slot) := of_slot slot
theorem prepare (h : QHead) (b : PrepareBody) : Statement (.prepare h b) := of_none rfl
theorem ack (h : QHead) (b : AckBody) : Statement (.ack h b) := of_none rfl
theorem veto (h : QHead) (gen dev status : Nat) : Statement (.veto h gen dev status) := of_none rfl
theorem commitAt (h : QHead) (gen : Nat) (t : QTime) : Statement (.commitAt h gen t) := of_none rfl
theorem abort (h : QHead) (gen status : Nat) : Statement (.abort h gen status) := of_none rfl
theorem convGain (c : HostCall) : Statement (.convGain c) := of_call c
theorem convSwing (c : HostCall) : Statement (.convSwing c) := of_call c
theorem convLevelRead (c : HostCall) : Statement (.convLevelRead c) := of_call c
theorem convMonSet (c : HostCall) : Statement (.convMonSet c) := of_call c
theorem levelInterval (ms : List LevelMeas) : Statement (.levelInterval ms) := of_none rfl
theorem convFeSet (c : HostCall) : Statement (.convFeSet c) := of_call c
theorem convFeWrite (c : HostCall) : Statement (.convFeWrite c) := of_call c
theorem convFeRead (c : HostCall) : Statement (.convFeRead c) := of_call c
theorem convLasSet (c : HostCall) : Statement (.convLasSet c) := of_call c
theorem convLasWrite (c : HostCall) : Statement (.convLasWrite c) := of_call c
theorem convLasRead (c : HostCall) : Statement (.convLasRead c) := of_call c
theorem lasbusTransactionEnd (r : LasEnd) : Statement (.lasbusTransactionEnd r) := of_none rfl
theorem calRun (c : HostCall) : Statement (.calRun c) := of_call c
theorem calPolicy (c : HostCall) : Statement (.calPolicy c) := of_call c
theorem calQuality (c : HostCall) : Statement (.calQuality c) := of_call c
theorem calSets (c : HostCall) : Statement (.calSets c) := of_call c
theorem calExport (c : HostCall) : Statement (.calExport c) := of_call c
theorem calImport (c : HostCall) : Statement (.calImport c) := of_call c
theorem calDrop (c : HostCall) : Statement (.calDrop c) := of_call c
theorem calRunEnd (m : CalMeas) : Statement (.calRunEnd m) := of_none rfl
theorem loadPlan (c : HostCall) : Statement (.loadPlan c) := of_call c
theorem loadSnrRead (c : HostCall) : Statement (.loadSnrRead c) := of_call c
theorem loadPolicy (c : HostCall) : Statement (.loadPolicy c) := of_call c
theorem loadNarrow (c : HostCall) : Statement (.loadNarrow c) := of_call c
theorem loadPropose (c : HostCall) : Statement (.loadPropose c) := of_call c
theorem loadStatus (c : HostCall) : Statement (.loadStatus c) := of_call c
theorem loadShapeRead (c : HostCall) : Statement (.loadShapeRead c) := of_call c
theorem txMultiframeBoundary (sc : Nat) : Statement (.txMultiframeBoundary sc) := of_none rfl
theorem rxMultiframeBoundary (sc : Nat) (m : MultiMeas) : Statement (.rxMultiframeBoundary sc m) := of_none rfl
theorem lineFrameReceived (f : RxFrame) : Statement (.lineFrameReceived f) := of_none rfl
theorem eqCdSet (c : HostCall) : Statement (.eqCdSet c) := of_call c
theorem eqCdScan (c : HostCall) : Statement (.eqCdScan c) := of_call c
theorem cdScanEnd (m : ScanMeas) : Statement (.cdScanEnd m) := of_none rfl
theorem eqFrontEnd (c : HostCall) : Statement (.eqFrontEnd c) := of_call c
theorem eqPolSet (c : HostCall) : Statement (.eqPolSet c) := of_call c
theorem eqLineSet (c : HostCall) : Statement (.eqLineSet c) := of_call c
theorem eqTxResponse (c : HostCall) : Statement (.eqTxResponse c) := of_call c
theorem eqReacquire (c : HostCall) : Statement (.eqReacquire c) := of_call c
theorem eqLineStatus (c : HostCall) : Statement (.eqLineStatus c) := of_call c
theorem eqStatus (c : HostCall) : Statement (.eqStatus c) := of_call c
theorem eqScanRead (c : HostCall) : Statement (.eqScanRead c) := of_call c
theorem signalLost (ms : List LevelMeas) : Statement (.signalLost ms) := of_none rfl
theorem coarseEstimateFormed (est : Int) : Statement (.coarseEstimateFormed est) := of_none rfl
theorem sopWindow (sc : Nat) : Statement (.sopWindow sc) := of_none rfl
theorem laserCorrectionDue (local' : Bool) : Statement (.laserCorrectionDue local') := of_none rfl
theorem fecMode (c : HostCall) : Statement (.fecMode c) := of_call c
theorem fecInject (c : HostCall) : Statement (.fecInject c) := of_call c
theorem fecStatus (c : HostCall) : Statement (.fecStatus c) := of_call c
theorem berWindowEnd (sc : Nat) : Statement (.berWindowEnd sc) := of_none rfl
theorem candidateTest (sc pos : Nat) (m : FrameSyms) : Statement (.candidateTest sc pos m) := of_none rfl
theorem frameSlotMap (c : HostCall) : Statement (.frameSlotMap c) := of_call c
theorem frameContainer (c : HostCall) : Statement (.frameContainer c) := of_call c
theorem frameAlignSet (c : HostCall) : Statement (.frameAlignSet c) := of_call c
theorem frameLoopback (c : HostCall) : Statement (.frameLoopback c) := of_call c
theorem frameStatus (c : HostCall) : Statement (.frameStatus c) := of_call c
theorem frameContainerStatus (c : HostCall) : Statement (.frameContainerStatus c) := of_call c
theorem chunkReceived (envs : List PktEnv) : Statement (.chunkReceived envs) := of_none rfl
theorem ohSectionSet (c : HostCall) : Statement (.ohSectionSet c) := of_call c
theorem ohTtiSet (c : HostCall) : Statement (.ohTtiSet c) := of_call c
theorem ohPathSet (c : HostCall) : Statement (.ohPathSet c) := of_call c
theorem ohPmRead (c : HostCall) : Statement (.ohPmRead c) := of_call c
theorem ohDefectRead (c : HostCall) : Statement (.ohDefectRead c) := of_call c
theorem protGroup (c : HostCall) : Statement (.protGroup c) := of_call c
theorem protRequest (c : HostCall) : Statement (.protRequest c) := of_call c
theorem protStatus (c : HostCall) : Statement (.protStatus c) := of_call c
theorem protReskew (c : HostCall) : Statement (.protReskew c) := of_call c
theorem burstTree (c : HostCall) : Statement (.burstTree c) := of_call c
theorem burstShare (c : HostCall) : Statement (.burstShare c) := of_call c
theorem burstGrants (c : HostCall) : Statement (.burstGrants c) := of_call c
theorem burstAdmit (c : HostCall) : Statement (.burstAdmit c) := of_call c
theorem burstInvite (c : HostCall) : Statement (.burstInvite c) := of_call c
theorem burstRange (c : HostCall) : Statement (.burstRange c) := of_call c
theorem burstLeafStatus (c : HostCall) : Statement (.burstLeafStatus c) := of_call c
theorem burstDiscRead (c : HostCall) : Statement (.burstDiscRead c) := of_call c
theorem burstMove (c : HostCall) : Statement (.burstMove c) := of_call c
theorem burstLeafCfg (c : HostCall) : Statement (.burstLeafCfg c) := of_call c
theorem burstLeafRead (c : HostCall) : Statement (.burstLeafRead c) := of_call c
theorem burstReceived (b : DataBurst) : Statement (.burstReceived b) := of_none rfl
theorem discoveryBurstReceived (b : OpenBurst) : Statement (.discoveryBurstReceived b) := of_none rfl
theorem echoBurstReceived (b : OpenBurst) : Statement (.echoBurstReceived b) := of_none rfl
theorem rangingTimeout (leaf : Nat) : Statement (.rangingTimeout leaf) := of_none rfl
theorem leafBurstSend (kind : BurstKind) : Statement (.leafBurstSend kind) := of_none rfl
theorem seen (h : TreeHead) (ident : Nat) : Statement (.seen h ident) := of_none rfl
theorem assign (h : TreeHead) (ident eqd : Nat) (dedicated : Bool) (rtd : Nat) : Statement (.assign h ident eqd dedicated rtd) := of_none rfl
theorem eqd (h : TreeHead) (eqd applyMfi rtd : Nat) : Statement (.eqd h eqd applyMfi rtd) := of_none rfl
theorem range (h : TreeHead) (rangeMfi : Nat) : Statement (.range h rangeMfi) := of_none rfl
theorem report (h : TreeHead) (b : ReportBody) : Statement (.report h b) := of_none rfl
theorem invite (h : TreeHead) (ident sc : Nat) : Statement (.invite h ident sc) := of_none rfl
theorem move (h : TreeHead) (b : MoveBody) : Statement (.move h b) := of_none rfl
theorem deregister (h : TreeHead) : Statement (.deregister h) := of_none rfl
theorem discoveryOccasion (sc : Nat) (inviteOnly : Bool) (frame : Nat) : Statement (.discoveryOccasion sc inviteOnly frame) := of_none rfl
theorem timeStep (c : HostCall) : Statement (.timeStep c) := of_call c
theorem timeSlew (c : HostCall) : Statement (.timeSlew c) := of_call c
theorem timeRead (c : HostCall) : Statement (.timeRead c) := of_call c
theorem timeLost (c : HostCall) : Statement (.timeLost c) := of_call c
theorem timeLinkSet (c : HostCall) : Statement (.timeLinkSet c) := of_call c
theorem timePortSet (c : HostCall) : Statement (.timePortSet c) := of_call c
theorem timeTtStatus (c : HostCall) : Statement (.timeTtStatus c) := of_call c
theorem timePortStatus (c : HostCall) : Statement (.timePortStatus c) := of_call c
theorem ppsEdge (second : Bool) (frac : Nat) : Statement (.ppsEdge second frac) := of_none rfl
theorem refInputSet (c : HostCall) : Statement (.refInputSet c) := of_call c
theorem refSelectSet (c : HostCall) : Statement (.refSelectSet c) := of_call c
theorem refOutputSet (c : HostCall) : Statement (.refOutputSet c) := of_call c
theorem refHoldoverSet (c : HostCall) : Statement (.refHoldoverSet c) := of_call c
theorem refStatus (c : HostCall) : Statement (.refStatus c) := of_call c
theorem refInputStatus (c : HostCall) : Statement (.refInputStatus c) := of_call c
theorem refPtpSet (c : HostCall) : Statement (.refPtpSet c) := of_call c
theorem refModelExport (c : HostCall) : Statement (.refModelExport c) := of_call c
theorem refModelImport (c : HostCall) : Statement (.refModelImport c) := of_call c
theorem refWtrClear (c : HostCall) : Statement (.refWtrClear c) := of_call c
theorem refFailure (ref : Nat) (cause : Nat) : Statement (.refFailure ref cause) := of_none rfl
theorem refFailureClears (ref : Nat) : Statement (.refFailureClears ref) := of_none rfl
theorem refQualified (ref : Nat) : Statement (.refQualified ref) := of_none rfl
theorem refWtrExpiry (ref : Nat) : Statement (.refWtrExpiry ref) := of_none rfl
theorem selectionEvaluation (m : RefMeas) : Statement (.selectionEvaluation m) := of_none rfl
theorem switchComplete (phase : Int) (m : RefMeas) : Statement (.switchComplete phase m) := of_none rfl
theorem oscTempReading (codes : List Nat) : Statement (.oscTempReading codes) := of_none rfl
theorem lanePortSet (c : HostCall) : Statement (.lanePortSet c) := of_call c
theorem laneEqSet (c : HostCall) : Statement (.laneEqSet c) := of_call c
theorem laneLoopback (c : HostCall) : Statement (.laneLoopback c) := of_call c
theorem laneStitchSet (c : HostCall) : Statement (.laneStitchSet c) := of_call c
theorem laneStatus (c : HostCall) : Statement (.laneStatus c) := of_call c
theorem lanePortStatus (c : HostCall) : Statement (.lanePortStatus c) := of_call c
theorem laneStitchStatus (c : HostCall) : Statement (.laneStitchStatus c) := of_call c
theorem laneLock (lane : Nat) (snr : Nat) : Statement (.laneLock lane snr) := of_none rfl
theorem laneUnlock (lane : Nat) : Statement (.laneUnlock lane) := of_none rfl
theorem portUp (port : Nat) : Statement (.portUp port) := of_none rfl
theorem portDown (port : Nat) (why : Nat) : Statement (.portDown port why) := of_none rfl
theorem stitchFrameReceived (f : StitchFrame) : Statement (.stitchFrameReceived f) := of_none rfl
theorem hostFrameReceived (f : HostFrame) (e : PktEnv) : Statement (.hostFrameReceived f e) := of_none rfl
theorem verifiedRelease (e : PktEnv) : Statement (.verifiedRelease e) := of_none rfl
theorem queueService (q : ServiceSlot) : Statement (.queueService q) := of_none rfl
theorem parseProfile (c : HostCall) : Statement (.parseProfile c) := of_call c
theorem parseSelect (c : HostCall) : Statement (.parseSelect c) := of_call c
theorem parseGlobal (c : HostCall) : Statement (.parseGlobal c) := of_call c
theorem classEntryAdd (c : HostCall) : Statement (.classEntryAdd c) := of_call c
theorem classEntryDel (c : HostCall) : Statement (.classEntryDel c) := of_call c
theorem classActionSet (c : HostCall) : Statement (.classActionSet c) := of_call c
theorem classBulk (c : HostCall) : Statement (.classBulk c) := of_call c
theorem classExpressSet (c : HostCall) : Statement (.classExpressSet c) := of_call c
theorem classException (c : HostCall) : Statement (.classException c) := of_call c
theorem classGenClear (c : HostCall) : Statement (.classGenClear c) := of_call c
theorem classStatus (c : HostCall) : Statement (.classStatus c) := of_call c
theorem classFlowRead (c : HostCall) : Statement (.classFlowRead c) := of_call c
theorem classPipeStatus (c : HostCall) : Statement (.classPipeStatus c) := of_call c
theorem queueSet (c : HostCall) : Statement (.queueSet c) := of_call c
theorem queueStatus (c : HostCall) : Statement (.queueStatus c) := of_call c
theorem memRegion (c : HostCall) : Statement (.memRegion c) := of_call c
theorem memBudget (c : HostCall) : Statement (.memBudget c) := of_call c
theorem memFill (c : HostCall) : Statement (.memFill c) := of_call c
theorem memRead (c : HostCall) (hits : List MemHit) : Statement (.memRead c hits) := fun h => of_call c (Bool.and_eq_true_iff.mp h).1
theorem memWrite (c : HostCall) (hits : List MemHit) : Statement (.memWrite c hits) := fun h => of_call c (Bool.and_eq_true_iff.mp h).1
theorem memScrubSet (c : HostCall) : Statement (.memScrubSet c) := of_call c
theorem memTestWrite (c : HostCall) : Statement (.memTestWrite c) := of_call c
theorem memRemap (c : HostCall) : Statement (.memRemap c) := of_call c
theorem memErrRead (c : HostCall) : Statement (.memErrRead c) := of_call c
theorem memStatus (c : HostCall) : Statement (.memStatus c) := of_call c
theorem scrubBurstStart (mem : Nat) : Statement (.scrubBurstStart mem) := of_none rfl
theorem scrubBurstEnd (mem : Nat) (hits : List MemHit) : Statement (.scrubBurstEnd mem hits) := of_none rfl
theorem cryptContextSet (c : HostCall) : Statement (.cryptContextSet c) := of_call c
theorem cryptKeyLoad (c : HostCall) : Statement (.cryptKeyLoad c) := of_call c
theorem cryptKeyErase (c : HostCall) : Statement (.cryptKeyErase c) := of_call c
theorem cryptUnquarantine (c : HostCall) : Statement (.cryptUnquarantine c) := of_call c
theorem cryptAlarmSet (c : HostCall) : Statement (.cryptAlarmSet c) := of_call c
theorem cryptAlarmClear (c : HostCall) : Statement (.cryptAlarmClear c) := of_call c
theorem cryptZeroise (c : HostCall) : Statement (.cryptZeroise c) := of_call c
theorem cryptStatus (c : HostCall) : Statement (.cryptStatus c) := of_call c
theorem cryptContextRead (c : HostCall) : Statement (.cryptContextRead c) := of_call c
theorem thimbleAlarm (source : Nat) (on : Bool) (edges : List (Bool × Bool)) : Statement (.thimbleAlarm source on edges) := of_none rfl
theorem powerSet (c : HostCall) : Statement (.powerSet c) := of_call c
theorem powerBudget (c : HostCall) : Statement (.powerBudget c) := of_call c
theorem powerStatus (c : HostCall) : Statement (.powerStatus c) := of_call c
theorem wakeEnd (u : PowerUnit) (r : WakeResult) : Statement (.wakeEnd u r) := of_none rfl
theorem thermalReading (temps : List Int) : Statement (.thermalReading temps) := of_none rfl
theorem monSelect (c : HostCall) : Statement (.monSelect c) := of_call c
theorem monDumpSet (c : HostCall) : Statement (.monDumpSet c) := of_call c
theorem monRead (c : HostCall) : Statement (.monRead c) := of_call c
theorem monStatus (c : HostCall) : Statement (.monStatus c) := of_call c
theorem dumpBoundary (consumed : Option Nat) : Statement (.dumpBoundary consumed) := of_none rfl
theorem hkSeqSet (c : HostCall) : Statement (.hkSeqSet c) := of_call c
theorem hkRead (c : HostCall) : Statement (.hkRead c) := of_call c
theorem hkResult (codes : List Nat) : Statement (.hkResult codes) := of_none rfl
theorem captCoef (c : HostCall) : Statement (.captCoef c) := of_call c
theorem captStart (c : HostCall) : Statement (.captStart c) := of_call c
theorem captStop (c : HostCall) : Statement (.captStop c) := of_call c
theorem captStatus (c : HostCall) : Statement (.captStatus c) := of_call c
theorem otpProgram (c : HostCall) : Statement (.otpProgram c) := of_call c
theorem otpProgramEnd (e : OtpEnd) : Statement (.otpProgramEnd e) := of_none rfl
theorem otpStatus (c : HostCall) : Statement (.otpStatus c) := of_call c
theorem otpRead (c : HostCall) : Statement (.otpRead c) := of_call c
theorem fwLoad (c : HostCall) : Statement (.fwLoad c) := of_call c
theorem fwInfo (c : HostCall) : Statement (.fwInfo c) := of_call c
theorem porRelease (selfTest : Bool) : Statement (.porRelease selfTest) := of_none rfl
theorem pfailAssert (consumed : Option Nat) : Statement (.pfailAssert consumed) := of_none rfl
theorem alignmentCandidateFound (sc pos : Nat) (r : List Cx2) : Statement (.alignmentCandidateFound sc pos r) := of_none rfl
theorem openSearchContext (sc : Nat) (e : SearchEvent) : Statement (.openSearchContext sc e) := of_none rfl
theorem stitchLaneMarker (lane : Nat) (m : Marker) : Statement (.stitchLaneMarker lane m) := of_none rfl
theorem pcieLinkChange (p : PcieState) : Statement (.pcieLinkChange p) := of_none rfl
theorem preconvAttemptEnd (sc : Nat) : Statement (.preconvAttemptEnd sc) := of_none rfl
theorem gridTimeout (sc : Nat) : Statement (.gridTimeout sc) := of_none rfl
theorem convergenceLost (sc snr corr : Nat) : Statement (.convergenceLost sc snr corr) := of_none rfl
theorem sopAlarmClearTimeout (sc : Nat) : Statement (.sopAlarmClearTimeout sc) := of_none rfl
theorem frameLoss (sc : Nat) (m : FrameSyms) : Statement (.frameLoss sc m) := of_none rfl
theorem phaseLost (sc : Nat) (mark : Bool) (mfi : Option Nat) : Statement (.phaseLost sc mark mfi) := of_none rfl
theorem dlgClearTimeout (sc : Nat) : Statement (.dlgClearTimeout sc) := of_none rfl
theorem anchorTimeout (g : Nat) : Statement (.anchorTimeout g) := of_none rfl
theorem holdOffExpiry (g : Nat) : Statement (.holdOffExpiry g) := of_none rfl
theorem protWtrExpiry (g : Nat) : Statement (.protWtrExpiry g) := of_none rfl
theorem leafAlignmentLost (leaf : Nat) : Statement (.leafAlignmentLost leaf) := of_none rfl
theorem ttOffsetInvalid (stitch : Bool) : Statement (.ttOffsetInvalid stitch) := of_none rfl
theorem todMessage (second : Bool) (bytes : List Byte) : Statement (.todMessage second bytes) := of_none rfl
theorem referenceTimeStep (m : RefMeas) : Statement (.referenceTimeStep m) := of_none rfl
theorem stitchAlignTimeout (f : StitchFrame) : Statement (.stitchAlignTimeout f) := of_none rfl
theorem stitchSohLoss (f : StitchFrame) : Statement (.stitchSohLoss f) := of_none rfl
theorem remapCopyDone (mem entry : Nat) : Statement (.remapCopyDone mem entry) := of_none rfl
theorem oldHoldExpiry (ctx : Nat) : Statement (.oldHoldExpiry ctx) := of_none rfl
theorem vtileSetpointChange (mv : Nat) : Statement (.vtileSetpointChange mv) := of_none rfl
theorem ptpMessageInterval (slave : Option Nat) : Statement (.ptpMessageInterval slave) := of_none rfl
theorem proveWaitEnd : Statement (.proveWaitEnd) := of_none rfl
theorem deviceFrameBoundary : Statement (.deviceFrameBoundary) := of_none rfl
theorem queuedQuiltCommitStart : Statement (.queuedQuiltCommitStart) := of_none rfl
theorem helloTimer : Statement (.helloTimer) := of_none rfl
theorem ackSendDeadline : Statement (.ackSendDeadline) := of_none rfl
theorem ackDeadlineExpiry : Statement (.ackDeadlineExpiry) := of_none rfl
theorem preparedSilenceTimeout : Statement (.preparedSilenceTimeout) := of_none rfl
theorem parentHelloLoss : Statement (.parentHelloLoss) := of_none rfl
theorem detachedRecheck : Statement (.detachedRecheck) := of_none rfl
theorem feWritesDone : Statement (.feWritesDone) := of_none rfl
theorem lasbusStretchTimeout : Statement (.lasbusStretchTimeout) := of_none rfl
theorem calTrigger : Statement (.calTrigger) := of_none rfl
theorem lineTrackLoss : Statement (.lineTrackLoss) := of_none rfl
theorem performanceSecond : Statement (.performanceSecond) := of_none rfl
theorem pmIntervalEnd : Statement (.pmIntervalEnd) := of_none rfl
theorem discResponseTimeout : Statement (.discResponseTimeout) := of_none rfl
theorem silentTimeout : Statement (.silentTimeout) := of_none rfl
theorem stepAtCount : Statement (.stepAtCount) := of_none rfl
theorem stepPulseTimeout : Statement (.stepPulseTimeout) := of_none rfl
theorem slewHoldEnd : Statement (.slewHoldEnd) := of_none rfl
theorem acquireLocked : Statement (.acquireLocked) := of_none rfl
theorem modelLearnUpdate : Statement (.modelLearnUpdate) := of_none rfl
theorem generationRetired : Statement (.generationRetired) := of_none rfl
theorem fillBurstEnd : Statement (.fillBurstEnd) := of_none rfl
theorem keyLoadBulkEnd : Statement (.keyLoadBulkEnd) := of_none rfl
theorem leaveGrant : Statement (.leaveGrant) := of_none rfl
theorem rampStart : Statement (.rampStart) := of_none rfl
theorem thermalShutdown : Statement (.thermalShutdown) := of_none rfl
theorem captureRunStart (taps : List Cx2) : Statement (.captureRunStart taps) := of_none rfl
theorem captureEnd : Statement (.captureEnd) := of_none rfl
theorem porAssert : Statement (.porAssert) := of_none rfl
theorem imageCheckEnd : Statement (.imageCheckEnd) := of_none rfl
theorem deviceResetStart : Statement (.deviceResetStart) := of_none rfl
theorem watchdogReset : Statement (.watchdogReset) := of_none rfl
theorem controllerMemoryFault : Statement (.controllerMemoryFault) := of_none rfl
theorem patchResetApply : Statement (.patchResetApply) := of_none rfl
theorem lastGaspEnd : Statement (.lastGaspEnd) := of_none rfl
theorem pfailRecover : Statement (.pfailRecover) := of_none rfl

end Laws.SlotExists

end Sys2Proof
end

