-- ==== Sys2Proof/Laws/Verbs.lean ====
section
/-! SUPPORT. Host commands: what a ready command answers, once for every verb, and once for staging commands and reads. -/

namespace Sys2Proof.Machine

variable {v : Verb} {c : HostCall} {s : State} {k : Nat} {e : CmdEntry}

/-- Taking a command leaves its slot's role. -/
theorem State.taken_role (s : State) (n k : Nat) : ((s.taken n k).slot n).role = (s.dev.slot n).role := by
  rw [State.taken, Dev.slot_takeCmd_self]; rfl

theorem Turn.lt (h : Turn v c s k e) : c.slot < 8 := Dev.nextCmd_lt h.next

/-- A ready command runs its meaning on the device that has taken it; its answer follows (R52, R53). -/
theorem runVerb_ready (body : Body) (h : Ready v c s k e) :
    runVerb v body c s =
      .next (let r := body (v.callOf c s e) { s with dev := s.taken c.slot k }
             { r.2 with dev := ((r.2.dev.finish c.slot e.item c.descs r.1).settle 256).refresh }) := by
  have hn : Dev.nextCmd { s.dev with out := [] } = some (c.slot, k, e) := h.next
  have hr : ((s.quiet.takeCmd c.slot k).slot c.slot).role = (s.dev.slot c.slot).role := s.taken_role c.slot k
  have hh := h.header
  have hp := h.params
  have hf := h.near
  simp only [State.taken, Verb.callOf] at hh hp hf
  rw [runVerb, State.runAll_next _ h.runs]
  simp only [serve, hn, hr, hh, hp, h.code, serveOn, hf]
  simp

/-- Finishing with a plain answer. -/
theorem Dev.finish_now (d : Dev) (slot : Nat) (item : Item) (descs : List Item16) (st : Status) (r : Res) :
    d.finish slot item descs (.now st r) = d.respond slot item st r := rfl

/-- The response stands first among what the slot gains. -/
theorem Answers.of_settle {s : State} {d : Dev} {st : Status} {r : Res} (h : Turn v c s k e)
    (hd : (d.slot c.slot).rsp = (s.dev.slot c.slot).rsp) (t : State)
    (ht : t.dev = ((d.respond c.slot e.item st r).settle 256).refresh) : Answers s t c.slot e st r := by
  obtain ⟨q, m, hm⟩ := ((Dev.settles_settle 256 (d.respond c.slot e.item st r)).slots c.slot).same
  refine ⟨d.time.established, m, ?_⟩
  rw [ht, Dev.refresh_slot, hm]
  simp [Dev.respond_lt d h.lt, Bobbin.push, hd]

theorem State.taken_rsp (s : State) (n k : Nat) : ((s.taken n k).slot n).rsp = (s.dev.slot n).rsp := by
  rw [State.taken, Dev.slot_takeCmd_self]; rfl

/-- Taking, answering and settling change the mailbox and the counters alone. -/
theorem changesOnly_served {d : Dev} {st : Status} {r : Res} {l : List Part} (h : Turn v c s k e) (hl : .ctl ∈ l ∧ .mon ∈ l)
    (hd : (s.taken c.slot k).changesOnly l d) :
    s.dev.changesOnly l ((d.respond c.slot e.item st r).settle 256).refresh := by
  have sub : ∀ p ∈ [Part.ctl, .mon], p ∈ l := by simp [hl]
  have h1 : s.dev.changesOnly l (s.taken c.slot k) := by
    have : s.dev.changesOnly [.ctl, .mon] s.quiet := by simp [Dev.changesOnly]
    exact Dev.changesOnly_mono (Dev.changesOnly_trans this (Dev.settles_takeCmd _ _ _).parts) sub
  have h2 := Dev.changesOnly_mono (Dev.changesOnly_respond d h.lt e.item st r) sub
  have h3 := Dev.changesOnly_mono (Dev.settles_settle 256 (d.respond c.slot e.item st r)).parts sub
  have h4 : Dev.changesOnly l _ _ := Dev.changesOnly_mono (Dev.changesOnly_refresh ((d.respond c.slot e.item st r).settle 256))
    (by simp [hl.1])
  exact Dev.changesOnly_trans (Dev.changesOnly_trans (Dev.changesOnly_trans (Dev.changesOnly_trans h1 hd) h2) h3) h4

/-- What staging changes. -/
theorem Dev.stage_ok {d : Dev} {owner : Nat} {l : Staging} (h : d.canStage owner l) :
    d.stage owner l = (.ok, { d with cfg := { d.cfg with staged := l.foldl (stageOne owner) d.cfg.staged } }) := by
  unfold Dev.canStage at h
  revert h
  unfold Dev.stage
  dsimp only
  split
  · intro h; cases h
  · split
    · intro h; cases h
    · intro _; rfl

/-- A ready command whose meaning answers at once, on a device d: the response stands in its slot, and the rest is as in d. -/
theorem completes_now {i : HostCall → Instr} {body : Body} {d : Dev} {st : Status} {r : Res} {l : List Part}
    (hexec : ∀ c s, exec (i c) s = runVerb v body c s) (h : Ready v c s k e)
    (hb : body (v.callOf c s e) { s with dev := s.taken c.slot k } = (.now st r, { s with dev := d }))
    (hrsp : (d.slot c.slot).rsp = ((s.taken c.slot k).slot c.slot).rsp) (hl : .ctl ∈ l ∧ .mon ∈ l)
    (hd : (s.taken c.slot k).changesOnly l d) :
    Completes (i c) s fun t => Answers s t c.slot e st r ∧ t.dev = ((d.respond c.slot e.item st r).settle 256).refresh ∧
      s.dev.changesOnly l t.dev := by
  rw [Completes, hexec, runVerb_ready body h, hb]
  exact ⟨_, rfl, Answers.of_settle h.toTurn (hrsp.trans (s.taken_rsp c.slot k)) { s with
    dev := ((d.respond c.slot e.item st r).settle 256).refresh } rfl, rfl, changesOnly_served h.toTurn hl hd⟩

/-- A verb whose meaning stages `l` wherever `ok` holds is a staging command. -/
theorem stages_of {v : Verb} {i : HostCall → Instr} {ok : Call → Dev → Prop} {l : Call → Dev → Staging} (body : Body)
    (hexec : ∀ c s, exec (i c) s = runVerb v body c s)
    (hbody : ∀ c (s : State), ok c s.dev → body c s = ((s.dev.stageAns c (l c s.dev)).1, { s with dev := (s.dev.stageAns c (l c s.dev)).2 })) :
    Stages v i ok l := by
  intro c s k e h hok
  have hb := hbody (v.callOf c s e) { s with dev := s.taken c.slot k } hok.1
  simp only [Dev.stageAns, Dev.stage_ok hok.2] at hb
  obtain ⟨t, ht, ha, hd, hc⟩ := completes_now (l := [.ctl, .mon, .cfg]) hexec h hb rfl (by simp) (by simp [Dev.changesOnly])
  exact ⟨t, ht, ha, by simp [hd, Dev.respond_cfg _ h.lt, Verb.call], hc⟩

/-- Staging fields of one patch. -/
theorem stages_stageOn {v : Verb} {i : HostCall → Instr} {ok : Call → Dev → Prop} {p : Patch} {chk : Call → Dev → Option Status}
    {vals : Call → Dev → List FieldVal} (hexec : ∀ c s, exec (i c) s = runVerb v (stageOn p chk vals) c s)
    (hok : ∀ c d, ok c d → chk c d = none) : Stages v i ok fun c d => [(p, vals c d)] :=
  stages_of _ hexec fun c s h => by simp [stageOn, onDev, hok c s.dev h]

/-- Staging fields of each unit that a patch names. -/
theorem stages_stageEach {v : Verb} {i : HostCall → Instr} {ok : Call → Dev → Prop} {chk : Call → Dev → Nat → Option Status}
    {vals : Call → Dev → Nat → List FieldVal} (hexec : ∀ c s, exec (i c) s = runVerb v (stageEach chk vals) c s)
    (hok : ∀ c d, ok c d → ∀ n ∈ c.insts d, chk c d n = none) :
    Stages v i ok fun c d => (c.insts d).map fun n => (⟨c.cls, n⟩, vals c d n) :=
  stages_of _ hexec fun c s h => by
    have : (c.insts s.dev).findSome? (chk c s.dev) = none := by rw [List.findSome?_eq_none_iff]; exact hok c s.dev h
    simp [stageEach, onDev, this]

end Sys2Proof.Machine
end

