-- ==== Sys2Proof/Tests/Slice0.lean ====
section
/-! SUPPORT. Tests: a witness for the hypotheses of every clause of every statement, ill-formed terms, and single steps against the
spec. -/

namespace Sys2Proof.Tests

set_option Elab.async false

open Sys2Proof.Machine

/-! ### Witnesses

A witness names a clause of a statement, as a proof of that clause from the statement would, and a concrete state in which the clause's
hypotheses hold. -/

/-- The hypotheses of `Ready`, checked. -/
def readyB (v : Verb) (c : HostCall) (s : State) (e : CmdEntry) : Bool :=
  !s.dev.halted && decide (s.dev.nextCmd = some (c.slot, 0, e)) && decide (Item.code e.item = v.code) &&
  decide ((s.taken c.slot 0).checkHeader c.slot e = none) && decide (v.check (v.callOf c s e) (s.taken c.slot 0) = none) &&
  decide (v.remotes (v.callOf c s e) (s.taken c.slot 0) = [])

theorem ready_of_readyB {v : Verb} {c : HostCall} {s : State} {e : CmdEntry} (h : readyB v c s e = true) : Ready v c s 0 e := by
  simp only [readyB, Bool.and_eq_true, Bool.not_eq_true', decide_eq_true_eq] at h
  exact ⟨⟨h.1.1.1.1.1, h.1.1.1.1.2, h.1.1.1.2⟩, h.1.1.2, h.1.2, h.2⟩

/-- An `Happens` clause's condition holds of d. -/
abbrev HappensAt {P : Prop} {i : Instr} {l : List Part} {cond : Dev → Prop} {post : Dev → Dev → Prop}
    (_ : P → Happens i l cond post) (d : Dev) : Prop := d.halted = false ∧ cond d

/-- A host call of slot 0 with the bytes of its buffer. -/
abbrev hc (b : List Byte) : HostCall := ⟨0, [BitVec.ofNat 128 (0x1000 + b.length * 2 ^ 64)], b⟩

/-- The device d with one command waiting in slot 0, its snapshot w. -/
abbrev waiting (d : Dev) (e : Item) (w : Dev) : State := { dev := d.modSlot 0 fun s => { s with cmds := [⟨e, false⟩] }, snap := w }

/-- A `Serves` clause's command is ready and its condition holds. -/
abbrev ServesAt {P : Prop} {v : Verb} {i : HostCall → Instr} {st : Status} {l : List Part} {ok : Call → Dev → Dev → Prop}
    {r : Call → Dev → Dev → Res} {post : Call → Dev → Dev → Prop} (_ : P → Serves v i st l ok r post) (d : Dev) (e : Verb → Item)
    (b : List Byte := []) (w : Dev := d) : Prop :=
  let s := waiting d (e v) w
  readyB v (hc b) s ⟨e v, false⟩ = true ∧ ok (v.callOf (hc b) s ⟨e v, false⟩) (s.view 0) (s.taken 0 0)

/-- The hypotheses of `Turn`, checked. -/
def turnB (v : Verb) (c : HostCall) (s : State) (e : CmdEntry) : Bool :=
  !s.dev.halted && decide (s.dev.nextCmd = some (c.slot, 0, e)) && decide (Item.code e.item = v.code)

/-- A `Refuses` clause's command is the controller's next, its header is good and it is to be refused. -/
abbrev RefusesAt {P : Prop} {v : Verb} {i : HostCall → Instr} {st : Status} {bad : Call → Dev → Prop} (_ : P → Refuses v i st bad)
    (d : Dev) (e : Verb → Item) : Prop :=
  let s := waiting d (e v) d
  turnB v (hc []) s ⟨e v, false⟩ = true ∧ (s.taken 0 0).checkHeader 0 ⟨e v, false⟩ = none ∧
    bad (v.callOf (hc []) s ⟨e v, false⟩) (s.taken 0 0)

/-- A `Stages` clause's command is ready, its condition holds and there is room. -/
abbrev StagesAt {P : Prop} {v : Verb} {i : HostCall → Instr} {ok : Call → Dev → Prop} {l : Call → Dev → Staging}
    (_ : P → Stages v i ok l) (d : Dev) (e : Verb → Item) (b : List Byte := []) : Prop :=
  let s := waiting d (e v) d
  readyB v (hc b) s ⟨e v, false⟩ = true ∧ ok (v.callOf (hc b) s ⟨e v, false⟩) (s.taken 0 0) ∧
    (s.taken 0 0).canStage 0 (l (v.callOf (hc b) s ⟨e v, false⟩) (s.taken 0 0))

/-- The same for a given host call. -/
abbrev StagesWith {P : Prop} {v : Verb} {i : HostCall → Instr} {ok : Call → Dev → Prop} {l : Call → Dev → Staging}
    (_ : P → Stages v i ok l) (d : Dev) (e : Verb → Item) (c : HostCall) : Prop :=
  let s := waiting d (e v) d
  readyB v c s ⟨e v, false⟩ = true ∧ ok (v.callOf c s ⟨e v, false⟩) (s.taken 0 0) ∧
    (s.taken 0 0).canStage 0 (l (v.callOf c s ⟨e v, false⟩) (s.taken 0 0))

/-- A `Reads` clause's command is ready and its condition holds. -/
abbrev ReadsAt {P : Prop} {v : Verb} {i : HostCall → Instr} {n : Nat} {ok : Call → Dev → Prop} {f : Call → Dev → List Bf}
    (_ : P → Reads v i n ok f) (d : Dev) (e : Verb → Item) (b : List Byte := []) (w : Dev := d) : Prop :=
  let s := waiting d (e v) w
  readyB v (hc b) s ⟨e v, false⟩ = true ∧ ok (v.callOf (hc b) s ⟨e v, false⟩) (s.view 0)

/-- A `Waits` clause's command is ready and its condition holds. -/
abbrev WaitsAt {P : Prop} {v : Verb} {i : HostCall → Instr} {l : List Part} {ok : Call → Dev → Prop} {why : Call → Dev → Waiting}
    {post : Call → Dev → Dev → Prop} (_ : P → Waits v i l ok why post) (d : Dev) (e : Verb → Item) (b : List Byte := []) : Prop :=
  let s := waiting d (e v) d
  readyB v (hc b) s ⟨e v, false⟩ = true ∧ ok (v.callOf (hc b) s ⟨e v, false⟩) (s.taken 0 0)

theorem turn_of_turnB {v : Verb} {c : HostCall} {s : State} {e : CmdEntry} (h : turnB v c s e = true) : Turn v c s 0 e := by
  simp only [turnB, Bool.and_eq_true, Bool.not_eq_true', decide_eq_true_eq] at h
  exact ⟨h.1.1, h.1.2, h.2⟩

theorem ok_of {x : Except Status RuleGen} {g : RuleGen} (h : (match x with | .ok y => decide (y = g) | .error _ => false) = true) :
    x = .ok g := by
  cases x with
  | error _ => cases h
  | ok y => exact congrArg _ (of_decide_eq_true h)

/-- The hypothesis of a clause given its other arguments. -/
abbrev Hyp1 {P A B : Prop} (_ : P → A → B) : Prop := A

/-- The two hypotheses of a clause. -/
abbrev Hyp2 {P A B C : Prop} (_ : P → A → B → C) : Prop := A ∧ B

/-- The three hypotheses of a clause. -/
abbrev Hyp3 {P A B C D : Prop} (_ : P → A → B → C → D) : Prop := A ∧ B ∧ C

/-- The four hypotheses of a clause. -/
abbrev Hyp4 {P A B C D E : Prop} (_ : P → A → B → C → D → E) : Prop := A ∧ B ∧ C ∧ D

/-- The five hypotheses of a clause. -/
abbrev Hyp5 {P A B C D E F : Prop} (_ : P → A → B → C → D → E → F) : Prop := A ∧ B ∧ C ∧ D ∧ E

/-- The six hypotheses of a clause. -/
abbrev Hyp6 {P A B C D E F G : Prop} (_ : P → A → B → C → D → E → F → G) : Prop := A ∧ B ∧ C ∧ D ∧ E ∧ F

/-- The seven hypotheses of a clause. -/
abbrev Hyp7 {P A B C D E F G H : Prop} (_ : P → A → B → C → D → E → F → G → H) : Prop := A ∧ B ∧ C ∧ D ∧ E ∧ F ∧ G

/-! ### Small states and items -/

/-- Firmware runs and slot 0 is open with every right. -/
def base : Dev := {
  boot := { held := false, stage := 2 }
  ctl := { pcie := .l0, slots := [(0, { tag := 1, state := .opened, role := .privileged, credits := 32, serial := 1 })], serial := 1 } }

/-- With committed fields. -/
def sets (d : Dev) (l : List (Fld × Nat × Nat)) : Dev := l.foldl (fun d x => d.setConf x.1 x.2.1 x.2.2) d

/-- With running units. -/
def powered (d : Dev) (l : List PowerUnit) : Dev := l.foldl (fun d u => d.setUnit u { phase := .running }) d

/-- A command item of slot 0 without a buffer, with the fields of its layout, and n bytes of parameters. -/
def itN (n : Nat) (l : List Bf) (v : Verb) : Item :=
  BitVec.ofNat 512 (pack ([fieldAt 2 16 7, fieldAt 4 16 v.code, fieldAt 6 16 n] ++ l.map fun f => { f with off := f.off + 64 }))

/-- The same with the length of the verb. -/
def it (l : List Bf) (v : Verb) : Item := itN (v.lenFor false) l v

/-- A command item with a buffer of n bytes. -/
def itX (n : Nat) (l : List Bf) (v : Verb) : Item :=
  BitVec.ofNat 512 (pack ([at' 1 2 1 1, fieldAt 2 16 7, fieldAt 4 16 v.code, fieldAt 6 16 (v.lenFor true), fieldAt 16 16 1, fieldAt 20 32 n] ++
    l.map fun f => { f with off := f.off + 64 + if v.shift then 128 else 0 }))

/-- The patch field of a layout at offset o. -/
def pat (o : Nat) (c : PClass) (n : Nat) : Bf := fieldAt o 32 ((⟨c, n⟩ : Patch).id 0)

/-- A point-to-point line with subcarriers 0 and 3 awake. -/
def p2p : Dev := { (powered (sets base [(.role, 0, 1), (.budget, 0, 5000)]) [.core, .sc 0, .sc 3]) with time := { established := true } }

/-- With subcarrier 3 as given. -/
def sc3 (f : ScSt → ScSt) : Dev := p2p.modSc 3 f

/-- A laser bus transaction. -/
def lasTx (k : LasKind) : LasTx := ⟨k, 5, false, 2, [], 1⟩

/-- The same sample codes from each ADC. -/
def levels (l : List (Int × Nat)) : List LevelMeas := List.replicate 4 ⟨l⟩

/-- A calibration run. -/
def run : CalRun := ⟨.commanded, some 10, false, 100, 0, 1, 5, 1, [100, 100, 100, 100, 100]⟩

/-- A plan. -/
def plan1 : Plan := ⟨1, 16, 0, some [0, 0, 0x8002]⟩

/-- A good overhead of subcarrier n. -/
def goodOh (n : Nat) : List Byte :=
  let b := (List.replicate 508 0).set 4 (BitVec.ofNat 8 n)
  b ++ beBytes 4 (crc32 b)

theorem ohGood_append {k n : Nat} (b : List Byte) (hb : b.length = k) (hk : k + 4 = 512) :
    ohGood n (b ++ beBytes 4 (crc32 b)) = ((b.getD 4 0).toNat % 32 == n) := by
  have h8 : 508 = b.length := by omega
  have e1 : (b ++ beBytes 4 (crc32 b)).length = 512 := by rw [List.length_append, beBytes_length]; omega
  have e2 : (b ++ beBytes 4 (crc32 b)).take 508 = b := by rw [h8, List.take_left]
  have e3 : (b ++ beBytes 4 (crc32 b)).drop 508 = beBytes 4 (crc32 b) := by rw [h8, List.drop_left]
  have e4 : (b ++ beBytes 4 (crc32 b)).getD 4 0 = b.getD 4 0 := by
    rw [List.getD_eq_getElem?_getD, List.getD_eq_getElem?_getD, List.getElem?_append_left (by omega)]
  have hx : crc32 b % 256 ^ 4 = crc32 b := Nat.mod_eq_of_lt (Nat.lt_of_lt_of_eq (crc32_lt b) (by decide))
  rw [ohGood, e1, e2, e3, e4, beNat_beBytes, hx]
  simp

theorem ohGood_goodOh (n : Nat) (h : (BitVec.ofNat 8 n).toNat % 32 = n) : ohGood n (goodOh n) = true := by
  have := ohGood_append (n := n) ((List.replicate 508 0).set 4 (BitVec.ofNat 8 n)) (by rw [List.length_set, List.length_replicate])
    (by decide)
  refine this.trans ?_
  rw [List.getD_eq_getElem?_getD, List.getElem?_set_self (by rw [List.length_replicate]; decide)]
  exact beq_iff_eq.mpr h

/-- A received frame of subcarrier 3, without a sample. -/
def frame3 : RxFrame := ⟨3, [], some 5, 2000, 0⟩

/-- Subcarrier 3 in frame, its phase and plan known. -/
def inFrame : Dev := sc3 fun s => { s with
  eq := { s.eq with state := .track }, fr := { s.fr with state := .inFrame, phase := true, k := some 0 }, fec := { s.fec with first := false },
  rx := { s.rx with plan := some plan1 } }

/-- A chunk of container 2 cut from subcarrier 3, whose header check is good or not. -/
def chunk3 (good : Bool) : RxPiece :=
  let h : List Byte := [0, 1, 0, 128, 0, 0, 0]
  ⟨false, 3, 2, h ++ [BitVec.ofNat 8 (crc8 h + if good then 0 else 1)], [], none, 0⟩

/-- It waits for the decapsulator. -/
def cut3 (good : Bool) (d : Dev) : Dev := { d with ohd := { d.ohd with chunks := [chunk3 good] } }

/-- The same with the wideband tiles awake and the core in full mode. -/
def wide : Dev := let d := powered p2p [.wb 0, .wb 1, .wb 2, .wb 3]; { d with power := { d.power with coreFull := true } }

/-- A plan of no slots, whose beacon is all zeros. -/
def plan0 : Plan := ⟨0, 0, 0, some []⟩

/-- Subcarrier 3 of such a line in frame, its phase and its plan known, and its checks at their lowest. -/
def framed : Dev := sets (wide.modSc 3 fun s => { s with
  eq := { s.eq with state := .track }, fr := { s.fr with state := .inFrame, phase := true, k := some 0 }, fec := { s.fec with first := false },
  rx := { s.rx with plan := some plan0 } }) [(.awThresh, 3, 0), (.pilotThresh, 3, 0), (.convMinSnr, 3, 0)]

/-- The line's state. -/
def lineIn (st : LineState) (d : Dev) : Dev := { d with line := { d.line with state := st } }

/-- Subcarrier 3's equaliser state, on a locked line. -/
def eq3 (st : EqState) (f : EqSc → EqSc := id) : Dev := lineIn .locked ((sc3 fun s => { s with eq := f { s.eq with state := st } }))

/-- A scan in progress. -/
def scan1 : ScanSt := ⟨-100, 100, 50, 0, false, 0, 1, 5⟩

/-- A searching aligner of subcarrier 3. -/
def searching (l : List (Nat × Bool)) : Dev := sc3 fun s => { s with eq := { s.eq with state := .grid }, fr := { s.fr with state := .search, cands := l } }

/-- Established time. -/
def est : Dev := { base with now := 777, time := { established := true, anchorCnt := 7 } }
/-- A bobbin with one item consumed and one unread. -/
def bob : Bobbin := { unread := [⟨1, 5, 0, true⟩], log := [⟨2, 4, 1, true⟩], pos := 0 }

/-- Slot 0 with its response bobbin. -/
def withBob (b : Bobbin) : Dev := base.modSlot 0 fun s => { s with rsp := b }

/-- Slot 1 as given. -/
def slot1 (f : Slot → Slot) : Dev := base.modSlot 1 f

/-- Witnesses of `SlotsAreClaimedFreedAndTimeOut`. -/
theorem test_witness_slots_are_claimed_freed_and_time_out :
    HappensAt (fun h : Obligations.SlotsAreClaimedFreedAndTimeOut => h.1 7 5) base ∧
    HappensAt (fun h : Obligations.SlotsAreClaimedFreedAndTimeOut => h.2.1 1) (slot1 fun s => { s with state := .claimed, tag := 3 }) ∧
    HappensAt (fun h : Obligations.SlotsAreClaimedFreedAndTimeOut => h.2.2.1 1) (slot1 fun s => { s with state := .closed, tag := 3 }) ∧
    HappensAt (fun h : Obligations.SlotsAreClaimedFreedAndTimeOut => h.2.2.2 0) (base.modSlot 0 fun s => { s with idleTimeout := 1 }) :=
  ⟨by decide +kernel, by decide +kernel, by decide +kernel, (by decide +kernel)⟩

/-- Witnesses of `RingTakesACreditOrClosesTheSession`. -/
theorem test_witness_ring_takes_a_credit_or_closes_the_session :
    HappensAt (fun h : Obligations.RingTakesACreditOrClosesTheSession => h.1 0) base ∧
    HappensAt (fun h : Obligations.RingTakesACreditOrClosesTheSession => h.2.1 1) (slot1 fun s => { s with state := .opened }) ∧
    HappensAt (fun h : Obligations.RingTakesACreditOrClosesTheSession => h.2.2 7) base :=
  ⟨by decide +kernel, by decide +kernel, by decide +kernel⟩

/-- Witnesses of `BobbinsAndInterruptWordsActAsStated`. -/
theorem test_witness_bobbins_and_interrupt_words_act_as_stated :
    HappensAt (fun h : Obligations.BobbinsAndInterruptWordsActAsStated => h.1.1 (.slot 0) 0 ⟨1, 5, 0, true⟩) (withBob { bob with presented := some (.unread 0) }) ∧
    HappensAt (fun h : Obligations.BobbinsAndInterruptWordsActAsStated => h.1.2.1 (.slot 0)) (withBob { bob with presented := some .log }) ∧
    HappensAt (fun h : Obligations.BobbinsAndInterruptWordsActAsStated => h.1.2.2.1 (.slot 0)) (withBob bob) ∧
    HappensAt (fun h : Obligations.BobbinsAndInterruptWordsActAsStated => h.1.2.2.2.1 (.slot 0)) (withBob { bob with mark := some 1 }) ∧
    HappensAt (fun h : Obligations.BobbinsAndInterruptWordsActAsStated => h.1.2.2.2.2.1 (.slot 0) 4 0) (withBob bob) ∧
    HappensAt (fun h : Obligations.BobbinsAndInterruptWordsActAsStated => h.1.2.2.2.2.2.1 0x1100 (.slot 0) 0 (by decide)) (withBob bob) ∧
    HappensAt (fun h : Obligations.BobbinsAndInterruptWordsActAsStated => h.1.2.2.2.2.2.2 0x1101 4 0 (.inr (by decide))) base ∧
    HappensAt (fun h : Obligations.BobbinsAndInterruptWordsActAsStated => h.2.1 0xFFF#16) base ∧
    HappensAt (fun h : Obligations.BobbinsAndInterruptWordsActAsStated => h.2.2.1 0xFFFFFFFF) base ∧
    HappensAt (fun h : Obligations.BobbinsAndInterruptWordsActAsStated => h.2.2.2.1 0x10000 4 1 (.inr (.inr (Nat.le_refl _)))) base ∧
    Hyp1 (fun h : Obligations.BobbinsAndInterruptWordsActAsStated => h.2.2.2.2.1 0xBFFC 1 {}) ∧
    HappensAt (fun h : Obligations.BobbinsAndInterruptWordsActAsStated => h.2.2.2.2.2 [0x9F, 0, 0, 0] (.inr (by decide))) base :=
  ⟨by decide +kernel, by decide +kernel, by decide +kernel, (by decide +kernel), by decide +kernel, by decide +kernel, by decide +kernel,
    by decide +kernel, by decide +kernel, by decide +kernel, (by decide +kernel), by decide +kernel⟩

/-- No credential set: the default one. -/
def key0 : List Byte := List.replicate 32 0

/-- Slot 0 challenged under the default credential. -/
def challenged : Dev :=
  base.modSlot 0 fun s => { s with state := .challenged, role := .none, reqRole := .observer, reqCredits := 4, key := key0 }

/-- The right proofs of slot 0 in these two states. -/
def proof0 : List Bf := [fieldAt 0 256 61445701199309304973352827879434269032649816574336785135067988299539777300709]
def proof1 : List Bf := [fieldAt 0 256 54408604509725433385556266887691762994882970638432919104506507581327563052429]

/-- A second privileged session waits for its challenge's end. -/
def secondPriv : Dev := (challenged.modSlot 0 fun s => { s with reqRole := .privileged }).modSlot 1 fun s =>
  { s with state := .opened, role := .privileged }

/-- A waiting proof in slot 0. -/
def proving : Dev := { challenged with ctl := { challenged.ctl with authFails := 2 } }

/-- The proof's item. -/
def provingItem : Item := it proof0 verbSessionProve

/-- Witnesses of `SessionsOpenByProofOrAreRefused`. -/
theorem test_witness_sessions_open_by_proof_or_are_refused :
    ServesAt (fun h : Obligations.SessionsOpenByProofOrAreRefused => h.1.1) (base.modSlot 0 fun s => { s with state := .claimed, role := .none }) (it [fieldAt 0 8 1, fieldAt 1 8 32, fieldAt 2 16 0]) ∧
    ServesAt (fun h : Obligations.SessionsOpenByProofOrAreRefused => h.1.2) challenged (it proof0) ∧
    Hyp5 (fun h : Obligations.SessionsOpenByProofOrAreRefused => h.2.1.1 (hc []) (waiting challenged (it [] verbSessionProve) challenged) 0 ⟨it [] verbSessionProve, false⟩) ∧
    ServesAt (fun h : Obligations.SessionsOpenByProofOrAreRefused => h.2.1.2) secondPriv (it proof1) ∧
    HappensAt (fun h : Obligations.SessionsOpenByProofOrAreRefused => h.2.2 0 provingItem) (proving.modSlot 0 fun s => { s with taken := some ⟨provingItem, .prove⟩ }) :=
  ⟨by decide +kernel, by decide +kernel, ⟨ready_of_readyB (by decide +kernel), by decide +kernel, by decide +kernel, by decide +kernel, (by decide +kernel)⟩, by decide +kernel, by decide +kernel⟩

/-- Witnesses of `SessionsCloseEvictClaimAndReport`. -/
theorem test_witness_sessions_close_evict_claim_and_report :
    ServesAt (fun h : Obligations.SessionsCloseEvictClaimAndReport => h.1) base (it []) ∧
    ServesAt (fun h : Obligations.SessionsCloseEvictClaimAndReport => h.2.1) (slot1 fun s => { s with state := .opened }) (it [fieldAt 0 8 1]) ∧
    ServesAt (fun h : Obligations.SessionsCloseEvictClaimAndReport => h.2.2.1) base (it [fieldAt 0 8 1]) ∧
    ServesAt (fun h : Obligations.SessionsCloseEvictClaimAndReport => h.2.2.2 ⟨5, 0x401, .ok⟩) (base.modSlot 0 fun s => { s with ops := [⟨5, 0x401, .ok⟩] }) (it [fieldAt 0 16 5]) :=
  ⟨by decide +kernel, by decide +kernel, by decide +kernel, (by decide +kernel)⟩

/-- Witnesses of `SystemVerbsStageAndRead`. -/
theorem test_witness_system_verbs_stage_and_read :
    StagesAt (fun h : Obligations.SystemVerbsStageAndRead => h.1) base (it [fieldAt 0 8 1, fieldAt 1 8 1]) ∧
    StagesAt (fun h : Obligations.SystemVerbsStageAndRead => h.2.1) base (it [fieldAt 0 16 0x17F, fieldAt 2 16 1, fieldAt 4 8 1]) ∧
    ReadsAt (fun h : Obligations.SystemVerbsStageAndRead => h.2.2.1) base (it []) ∧
    ReadsAt (fun h : Obligations.SystemVerbsStageAndRead => h.2.2.2) base (it []) :=
  ⟨by decide +kernel, by decide +kernel, by decide +kernel, (by decide +kernel)⟩

/-- An accepted commit of slot 0, due at t. -/
def accepted (es : List Entry) (t : Option Nat) (ph : CommitPhase) : PCommit :=
  { id := 0, slot := 0, serial := 1, seq := 5, code := 0x401, timed := t.isSome, applyAt := 0, t := t, entries := es, quilt := none,
    phase := ph, answered := true, wakes := [], loads := [], buses := [], fails := [] }

/-- The device with one commit. -/
def withCommit (c : PCommit) : Dev := { (base.modSlot 0 fun s => { s with ops := [⟨5, 0x401, .accepted⟩] }) with
  cfg := { commits := [c], nextCommit := 1 } }

/-- Staging of event settings by slot 0. -/
def evEntry : Entry := ⟨0, ⟨.device, 0⟩, [fv .evtEnable 3 1 1]⟩

/-- Time is established. -/
def timed : Dev := { base with time := { established := true } }

/-- The device with staged event settings. -/
def stagedEv : Dev := { timed with cfg := { staged := [evEntry] } }

/-- A group of a two-member class. -/
def groupItem (v : Verb) : Item := itX 8 [fieldAt 0 32 (2 ^ 19 + 2 ^ 14 * PClass.subcarrier.value + 5), fieldAt 4 16 2] v

/-- The bytes of the members: subcarriers 3 and 0. -/
def groupBytes : List Byte := leBytes 4 ((⟨.subcarrier, 3⟩ : Patch).id 0) ++ leBytes 4 ((⟨.subcarrier, 0⟩ : Patch).id 0)

theorem group_members : ∀ b ∈ chunks 4 2 groupBytes, ∃ g i, PatchRef.ofId (leNat b) = some ⟨0, g, .subcarrier, i⟩ := by
  intro b hb
  have e : chunks 4 2 groupBytes = [leBytes 4 ((⟨.subcarrier, 3⟩ : Patch).id 0), leBytes 4 ((⟨.subcarrier, 0⟩ : Patch).id 0)] := by
    decide +kernel
  rw [e, List.mem_cons, List.mem_singleton] at hb
  rcases hb with rfl | rfl
  · exact ⟨false, 3, by decide⟩
  · exact ⟨false, 0, by decide⟩

set_option maxRecDepth 8000 in
/-- Witnesses of `ConfigurationVerbsDiscardCancelReadAndGroup`. -/
theorem test_witness_configuration_verbs_discard_cancel_read_and_group :
    ServesAt (fun h : Obligations.ConfigurationVerbsDiscardCancelReadAndGroup => h.1.1) stagedEv (it []) ∧
    ServesAt (fun h : Obligations.ConfigurationVerbsDiscardCancelReadAndGroup => h.1.2 (accepted [evEntry] (some (2 ^ 60)) .waiting) ⟨5, 0x401, .accepted⟩) (withCommit (accepted [evEntry] (some (2 ^ 60)) .waiting)) (it [fieldAt 0 16 5]) ∧
    ReadsAt (fun h : Obligations.ConfigurationVerbsDiscardCancelReadAndGroup => h.2.1.1) base (it []) ∧
    Hyp1 (fun h : Obligations.ConfigurationVerbsDiscardCancelReadAndGroup => h.2.1.2.1 (hc []) (waiting base (it [fieldAt 0 8 1] verbCfgSnapPin) base) 0 ⟨it [fieldAt 0 8 1] verbCfgSnapPin, false⟩) ∧
    Hyp1 (fun h : Obligations.ConfigurationVerbsDiscardCancelReadAndGroup => h.2.1.2.1 (hc []) (waiting base (it [] verbCfgSnapPin) base) 0 ⟨it [] verbCfgSnapPin, false⟩) ∧
    Hyp2 (fun h : Obligations.ConfigurationVerbsDiscardCancelReadAndGroup => h.2.1.2.2.1 { dev := base, pins := [⟨0, 1, 0, base⟩] } 0 ⟨0, 1, 0, base⟩) ∧
    ServesAt (fun h : Obligations.ConfigurationVerbsDiscardCancelReadAndGroup => h.2.1.2.2.2) base (it []) ∧
    StagesAt (fun h : Obligations.ConfigurationVerbsDiscardCancelReadAndGroup => h.2.2.1 .subcarrier 5) base groupItem groupBytes ∧
    ServesAt (fun h : Obligations.ConfigurationVerbsDiscardCancelReadAndGroup => h.2.2.2.1 0 .subcarrier 5) (sets base [(.quiltEnable, 0, 1), (.devNum, 0, 7), (.coordNum, 0, 1)]) groupItem groupBytes :=
  ⟨by decide +kernel, by decide +kernel, by decide +kernel, ready_of_readyB (by decide +kernel), ready_of_readyB (by decide +kernel), ⟨by decide +kernel, by decide +kernel⟩, by decide +kernel, ⟨by decide +kernel, ⟨by decide +kernel, by decide +kernel, fun b hb => let ⟨g, i, h⟩ := group_members b hb; ⟨g, i, h, fun x => nomatch x⟩, by decide +kernel⟩, by decide +kernel⟩, by decide +kernel⟩

/-- Witnesses of `CommitsLockAndApplyTheStaging`. -/
theorem test_witness_commits_lock_and_apply_the_staging :
    Hyp6 (fun h : Obligations.CommitsLockAndApplyTheStaging => h.1 (hc []) (waiting stagedEv (it [fieldAt 0 8 1, fieldAt 8 48 1000] verbCfgCommit) stagedEv) 0 ⟨it [fieldAt 0 8 1, fieldAt 8 48 1000] verbCfgCommit, false⟩) ∧
    Hyp6 (fun h : Obligations.CommitsLockAndApplyTheStaging => h.1 (hc []) (waiting stagedEv (it [] verbCfgCommit) stagedEv) 0 ⟨it [] verbCfgCommit, false⟩) ∧
    Hyp7 (fun h : Obligations.CommitsLockAndApplyTheStaging => h.2.1 { dev := withCommit (accepted [evEntry] none .waiting) } (accepted [evEntry] none .waiting) [fv .evtEnable 3 1 1]) ∧
    HappensAt (fun h : Obligations.CommitsLockAndApplyTheStaging => h.2.2 3 (accepted [evEntry] none (.partway [3] []))) (withCommit (accepted [evEntry] none (.partway [3] []))) :=
  ⟨⟨ready_of_readyB (by decide +kernel), by and_intros <;> decide +kernel⟩,
    ⟨ready_of_readyB (by decide +kernel), by and_intros <;> decide +kernel⟩,
    (by and_intros <;> decide +kernel), by decide +kernel⟩

/-- A member of the quilt, number 7, below its parent 1 on the stitch port, with the route to 9 on link 3. -/
def member : Dev := { (sets base [(.quiltEnable, 0, 1), (.devNum, 0, 7), (.coordNum, 0, 1)]) with
  quilt := { parent := some (32 * 4096 + 1), members := [(9, some 3)] }, time := { established := true } }

/-- The coordinator, number 1. -/
def coord : Dev := { (sets base [(.quiltEnable, 0, 1), (.devNum, 0, 1), (.coordNum, 0, 1)]) with time := { established := true } }

theorem test_witness_a_group_of_another_device_is_forwarded :
    WaitsAt (fun h : Obligations.ConfigurationVerbsDiscardCancelReadAndGroup => h.2.2.2.2 0 .subcarrier 5) coord groupItem groupBytes :=
  by decide +kernel

/-- A message's head: from src to dst with OP_ID 6. -/
def qh (src dst : Nat) : QHead := ⟨.stitch, false, 4, dst, src, 6⟩

/-- A neighbour heard on link 0. -/
def nbr : NbrSt := ⟨0, 0, 0, false, true, 1, 1, false, none⟩

/-- A stream's part. -/
def part (o : Nat) (last : Bool) (b : List Byte) : PartBody := ⟨0, last, 0, o, b⟩

/-- A body of PREPARE. -/
def prepB : PrepareBody := ⟨0, 5, ⟨1, 0⟩, ⟨2, 0⟩, 0⟩

/-- A member's preparation. -/
def prepS : PrepSt := { opId := 6, wasDetached := false, newGen := 5, tMax := 2 ^ 40, t := none, commit := 0 }

/-- A gathering acknowledgement. -/
def ackS (w : List Nat) : AckSt := ⟨6, 5, 0, 1, 0, 0, [], w, false, false⟩

/-- The running commit of the coordinator. -/
def running : QCommit :=
  { commit := 0, opId := 6, newGen := 5, targets := [0x700000, 0x900000], policy := 0, timed := false, t := 0, ackDeadline := 100, lead := 200,
    expected := 3, decided := false }

/-- A commit of the quilt. -/
def quiltCommit : PCommit :=
  { id := 0, slot := 0, serial := 1, seq := 5, code := 0x401, timed := false, applyAt := 0, t := none, entries := [], quilt := some (6, 0),
    phase := .waiting, answered := true, wakes := [], loads := [], buses := [], fails := [] }

/-- The first part of a response: the last bytes of it come later. -/
def rspHad : List Byte := leBytes 8 (2 ^ 16 * 7)

/-- The forwarded command. -/
def fwdItem : Item := it [] verbCfgGenRead

/-- A forwarded command waits for device 7. -/
def fwd : FwdWait := { devs := [7], deadline := 100 }

/-- Slot 0 waits for the answer of device 7. -/
def forwarding : Dev := (coord.modSlot 0 fun s => { s with taken := some ⟨fwdItem, .forward fwd⟩ }).modQuilt fun q =>
  { q with streams := [(8 * 8 + 0, rspHad)], members := [(7, some 32)], nbrs := [(32 * 4096 + 7, some nbr)] }

/-- A member with staging held under OP_ID 6. -/
def holding : Dev := { member with
  quilt := { member.quilt with held := [(6, [0])] }, cfg := { member.cfg with staged := [⟨8 + 8 * 6, ⟨.device, 0⟩, [fv .evtEnable 3 1 1]⟩] } }

/-- Witnesses of `QuiltVerbsStageAndView`. -/
theorem test_witness_quilt_verbs_stage_and_view :
    StagesAt (fun h : Obligations.QuiltVerbsStageAndView => h.1) base (it [fieldAt 0 16 7, fieldAt 2 16 1, fieldAt 4 8 1]) ∧
    StagesAt (fun h : Obligations.QuiltVerbsStageAndView => h.2.1) coord (it [fieldAt 0 16 7]) ∧
    ServesAt (fun h : Obligations.QuiltVerbsStageAndView => h.2.2 [(7, 3)]) (coord.modQuilt fun q => { q with detachedList := [(7, some 3)] }) (itX 8 []) (List.replicate 8 0) (coord.modQuilt fun q => { q with detachedList := [(7, some 3)] }) :=
  ⟨by decide +kernel, by decide +kernel, by decide +kernel⟩

/-- Witnesses of `QuiltMessagesGoOnAndKeepTheTree`. -/
theorem test_witness_quilt_messages_go_on_and_keep_the_tree :
    HappensAt (fun h : Obligations.QuiltMessagesGoOnAndKeepTheTree => h.1 (qh 1 9) 3 (.detach (qh 1 9) 9 5 1, .detach, detachBody 9 5 1) 9 5 1 0 (part 0 true []) prepB ⟨5, 0, 0, 0, []⟩ ⟨1, 0⟩ List.mem_cons_self) member ∧
    HappensAt (fun h : Obligations.QuiltMessagesGoOnAndKeepTheTree => h.1 (qh 1 9) 3 (.abort (qh 1 9) 5 0, .abort, abortBody 5 0) 9 5 1 0 (part 0 true []) prepB ⟨5, 0, 0, 0, []⟩ ⟨1, 0⟩ (by simp)) member ∧
    HappensAt (fun h : Obligations.QuiltMessagesGoOnAndKeepTheTree => h.2.1 (qh 1 7) ⟨1, 0, false, true, 0, 2, 1⟩) member ∧
    HappensAt (fun h : Obligations.QuiltMessagesGoOnAndKeepTheTree => h.2.2.1 (qh 7 1) 9 5 1) coord ∧
    HappensAt (fun h : Obligations.QuiltMessagesGoOnAndKeepTheTree => h.2.2.2.1 (32 * 4096 + 1) nbr) (member.modQuilt fun q => { q with nbrs := [(32 * 4096 + 1, some nbr)] }) ∧
    HappensAt (fun h : Obligations.QuiltMessagesGoOnAndKeepTheTree => h.2.2.2.2) ({ member with lane := { stitch := { state := .up } } }) :=
  (by and_intros <;> decide +kernel)

/-- Witnesses of `StreamsGatherAndForwardedCommandsComplete`. -/
theorem test_witness_streams_gather_and_forwarded_commands_complete :
    HappensAt (fun h : Obligations.StreamsGatherAndForwardedCommandsComplete => h.1 (qh 1 7) (part 0 false [1, 2])) member ∧
    HappensAt (fun h : Obligations.StreamsGatherAndForwardedCommandsComplete => h.2.1 (qh 7 1) (part 8 true (List.replicate 56 0)) fwdItem fwd rspHad) forwarding ∧
    HappensAt (fun h : Obligations.StreamsGatherAndForwardedCommandsComplete => h.2.2 0 fwdItem fwd) forwarding :=
  ⟨by decide +kernel, by decide +kernel, by decide +kernel⟩

/-- Witnesses of `MembersPrepareScheduleAndAbort`. -/
theorem test_witness_members_prepare_schedule_and_abort :
    HappensAt (fun h : Obligations.MembersPrepareScheduleAndAbort => h.1 (qh 1 7) prepB) member ∧
    HappensAt (fun h : Obligations.MembersPrepareScheduleAndAbort => h.2.1 (qh 1 7) prepB) holding ∧
    HappensAt (fun h : Obligations.MembersPrepareScheduleAndAbort => h.2.2.1 (qh 1 7) 5 ⟨1, 0⟩ prepS) (member.modQuilt fun q => { q with prep := some prepS, member := .prepared }) ∧
    HappensAt (fun h : Obligations.MembersPrepareScheduleAndAbort => h.2.2.2.1 (qh 1 7) 5 ⟨1, 0⟩) member ∧
    HappensAt (fun h : Obligations.MembersPrepareScheduleAndAbort => h.2.2.2.2.1 (qh 1 7) 5 0 prepS) (holding.modQuilt fun q => { q with prep := some prepS, member := .prepared }) ∧
    HappensAt (fun h : Obligations.MembersPrepareScheduleAndAbort => h.2.2.2.2.2.1 prepS) (holding.modQuilt fun q => { q with prep := some prepS, member := .prepared }) ∧
    HappensAt (fun h : Obligations.MembersPrepareScheduleAndAbort => h.2.2.2.2.2.2.1 (ackS [9])) (member.modQuilt fun q => { q with ack := some (ackS [9]) }) ∧
    HappensAt (fun h : Obligations.MembersPrepareScheduleAndAbort => h.2.2.2.2.2.2.2.1 (qh 9 7) ⟨5, 1, 0, 3, []⟩ (ackS [9]) (32 * 4096 + 1)) (member.modQuilt fun q => { q with ack := some (ackS [9]) }) ∧
    HappensAt (fun h : Obligations.MembersPrepareScheduleAndAbort => h.2.2.2.2.2.2.2.2 { qh 9 1 with link := .line 3 } 5 9 3 (ackS [9]) (32 * 4096 + 1)) (member.modQuilt fun q => { q with ack := some (ackS [9]) }) :=
  (by and_intros <;> decide +kernel)

/-- Witnesses of `TheCoordinatorGathersAndDecides`. -/
theorem test_witness_the_coordinator_gathers_and_decides :
    HappensAt (fun h : Obligations.TheCoordinatorGathersAndDecides => h.1 0 [] quiltCommit) ({ (coord.modQuilt fun q => { q with queued := [0] }) with cfg := { coord.cfg with commits := [quiltCommit] } }) ∧
    HappensAt (fun h : Obligations.TheCoordinatorGathersAndDecides => h.2.1 (qh 7 1) ⟨5, 1, 0, 3, []⟩ (ackS [7, 9]) 9) (coord.modQuilt fun q => { q with ack := some (ackS [7, 9]) }) ∧
    HappensAt (fun h : Obligations.TheCoordinatorGathersAndDecides => h.2.2.1 (qh 7 1) ⟨5, 1, 0, 3, []⟩ (ackS [7]) running) (coord.modQuilt fun q => { q with running := some running, ack := some (ackS [7]) }) ∧
    HappensAt (fun h : Obligations.TheCoordinatorGathersAndDecides => h.2.2.2.1 running { ackS [] with count := 2, digest := 3 }) (coord.modQuilt fun q => { q with running := some running, ack := some { ackS [] with count := 2, digest := 3 } }) ∧
    HappensAt (fun h : Obligations.TheCoordinatorGathersAndDecides => h.2.2.2.2.1 running (ackS [])) (coord.modQuilt fun q => { q with running := some running, ack := some (ackS []) }) ∧
    HappensAt (fun h : Obligations.TheCoordinatorGathersAndDecides => h.2.2.2.2.2.1 (qh 7 1) 5 7 3 running) ({ (coord.modQuilt fun q => { q with running := some running }) with cfg := { coord.cfg with commits := [quiltCommit] } }) ∧
    HappensAt (fun h : Obligations.TheCoordinatorGathersAndDecides => h.2.2.2.2.2.2 1 100 5 [7]) (coord.modQuilt fun q => { q with recheck := [(0, 4, [9]), (100, 5, [7])] }) :=
  (by and_intros <;> decide +kernel)

/-- The body of a calibration set's record. -/
def calBody : List Byte := List.replicate 16352 0

/-- A record of this device. -/
def calRec : List Byte :=
  (leBytes 2 1 ++ leBytes 2 1 ++ leBytes 2 0 ++ leBytes 6 0 ++ p2p.otp.identity) ++ (leBytes 4 (crc32 calBody) ++ (leBytes 8 0 ++ calBody))

/-- The call that imports it. -/
def calCall : HostCall := ⟨0, [BitVec.ofNat 128 (0x1000 + 16384 * 2 ^ 64)], calRec⟩

theorem calRec_length : calRec.length = 16384 := by
  have : p2p.otp.identity.length = 8 := by decide +kernel
  simp only [calRec, calBody, List.length_append, leBytes_length, List.length_replicate, this]

theorem slice_mid {a b c : List Byte} {o n : Nat} (ha : a.length = o) (hb : b.length = n) : slice (a ++ (b ++ c)) o n = b := by
  rw [slice, ← ha, List.drop_left, ← hb, List.take_left]

theorem calRec_crc : leNat (slice calRec 20 4) = crc32 calBody := by
  have h : slice calRec 20 4 = leBytes 4 (crc32 calBody) := by
    rw [calRec]
    exact slice_mid (by
      have : p2p.otp.identity.length = 8 := by decide +kernel
      simp only [List.length_append, leBytes_length, this]) (leBytes_length _ _)
  have hx : ∀ x : Nat, x < 2 ^ 32 → x % 256 ^ 4 = x := fun x h => Nat.mod_eq_of_lt h
  rw [h, leNat_leBytes, hx _ (crc32_lt _)]

theorem calRec_body : calRec.drop 32 = calBody := by
  have h : ((leBytes 2 1 ++ leBytes 2 1 ++ leBytes 2 0 ++ leBytes 6 0 ++ p2p.otp.identity) ++ (leBytes 4 (crc32 calBody) ++ leBytes 8 0)).length = 32 := by
    have : p2p.otp.identity.length = 8 := by decide +kernel
    simp only [List.length_append, leBytes_length, this]
  have e : calRec = ((leBytes 2 1 ++ leBytes 2 1 ++ leBytes 2 0 ++ leBytes 6 0 ++ p2p.otp.identity) ++ (leBytes 4 (crc32 calBody) ++ leBytes 8 0)) ++ calBody := by
    simp only [calRec, List.append_assoc]
  rw [e, ← h, List.drop_left]

theorem calRecords_calCall {c : Call} (h : c.bytes = calRec) : calRecords c = [calRec] := by
  have h1 : calRec.take 16384 = calRec := List.take_of_length_le (Nat.le_of_eq calRec_length)
  have h2 : calRec.drop 16384 = [] := List.drop_eq_nil_of_le (Nat.le_of_eq calRec_length)
  have h3 : calRec.isEmpty = false := by rw [List.isEmpty_eq_false_iff, ← List.length_pos_iff, calRec_length]; decide
  simp only [calRecords, h, chunks, h1, h2, h3]
  rfl

theorem calRecordOk_calRec : calRecordOk p2p.otp.identity calRec = true := by
  have h1 : (leNat (slice calRec 0 2) == 1) = true := by decide +kernel
  have h2 : (slice calRec 12 8 == p2p.otp.identity) = true := by decide +kernel
  rw [calRecordOk, h1, h2, calRec_crc, calRec_body]
  simp

/-- The state and entry of that import. -/
def calState : State := waiting p2p (itX 16384 [] verbCalImport) p2p
def calEntry : CmdEntry := ⟨itX 16384 [] verbCalImport, false⟩

theorem cal_import_ok : calImportCheck (verbCalImport.callOf calCall calState calEntry) (calState.taken 0 0) = none := by
  have hr : calRecords (verbCalImport.callOf calCall calState calEntry) = [calRec] := calRecords_calCall rfl
  have ho : calRecordOk (calState.taken 0 0).otp.identity calRec = true := calRecordOk_calRec
  have h1 : ((verbCalImport.callOf calCall calState calEntry).extLen % 16384 != 0 ||
      decide ((verbCalImport.callOf calCall calState calEntry).extLen > 16 * 16384)) = false := by decide +kernel
  have h2 : leNat (slice calRec 2 1) = 1 := by decide +kernel
  have h3 : leNat (slice calRec 3 1) = 0 := by decide +kernel
  have h4 : leNat (slice calRec 24 8) = 0 := by
    have : slice calRec 24 8 = leBytes 8 0 := by
      have e : calRec = ((leBytes 2 1 ++ leBytes 2 1 ++ leBytes 2 0 ++ leBytes 6 0 ++ p2p.otp.identity) ++ leBytes 4 (crc32 calBody)) ++
          (leBytes 8 0 ++ calBody) := by simp only [calRec, List.append_assoc]
      rw [e]
      exact slice_mid (by
        have : p2p.otp.identity.length = 8 := by decide +kernel
        simp only [List.length_append, leBytes_length, this]) (leBytes_length _ _)
    exact (congrArg leNat this).trans (by decide +kernel)
  simp [calImportCheck, hr, ho, h2, firstOf]

theorem cal_import_stages : ((calState.taken 0 0).stage 0 [(⟨.line, 0⟩, ⟨.calImport, 16, (calRecords (verbCalImport.callOf calCall calState calEntry)).length, 0⟩ ::
      (calRecords (verbCalImport.callOf calCall calState calEntry)).mapIdx fun k b => fv .calImport k (leNat b) (8 * 16384))]).1 = .ok := by
  rw [calRecords_calCall rfl]
  decide +kernel

/-- Witnesses of `ConverterVerbsStageAndRead`. -/
theorem test_witness_converter_verbs_stage_and_read :
    StagesAt (fun h : Obligations.ConverterVerbsStageAndRead => h.1.1) p2p (it [pat 0 .converter 4, fieldAt 4 8 10]) ∧
    StagesAt (fun h : Obligations.ConverterVerbsStageAndRead => h.1.2.1) p2p (it [pat 0 .converter 3, fieldAt 4 8 30]) ∧
    StagesAt (fun h : Obligations.ConverterVerbsStageAndRead => h.1.2.2.1) p2p (it [pat 0 .converter 7, fieldAt 4 4 3, fieldAt 6 16 (unsigned 16 (-6000))]) ∧
    StagesAt (fun h : Obligations.ConverterVerbsStageAndRead => h.1.2.2.2.1) p2p (it [fieldAt 0 8 3]) ∧
    StagesAt (fun h : Obligations.ConverterVerbsStageAndRead => h.1.2.2.2.2.1) p2p (itN 8 [fieldAt 0 8 1, fieldAt 4 3 2, fieldAt 6 16 77]) ∧
    StagesAt (fun h : Obligations.ConverterVerbsStageAndRead => h.1.2.2.2.2.2.1) p2p (it ([0, 12].flatMap fun o => [fieldAt o 7 8, fieldAt (o + 4) 16 1, fieldAt (o + 6) 16 1])) ∧
    StagesAt (fun h : Obligations.ConverterVerbsStageAndRead => h.1.2.2.2.2.2.2.1) p2p (it [fieldAt 0 7 8, fieldAt 4 4 8]) ∧
    StagesAt (fun h : Obligations.ConverterVerbsStageAndRead => h.1.2.2.2.2.2.2.2.1) p2p (it [fieldAt 2 16 10, fieldAt 4 16 5, fieldAt 6 8 10, fieldAt 7 8 5, fieldAt 8 16 10, fieldAt 10 8 5]) ∧
    StagesAt (fun h : Obligations.ConverterVerbsStageAndRead => h.1.2.2.2.2.2.2.2.2.2) p2p (it [fieldAt 0 8 1]) ∧
    ReadsAt (fun h : Obligations.ConverterVerbsStageAndRead => h.2.1 7) p2p (it [pat 0 .converter 7]) ∧
    ReadsAt (fun h : Obligations.ConverterVerbsStageAndRead => h.2.2.1 7) p2p (it [pat 0 .converter 7]) ∧
    ReadsAt (fun h : Obligations.ConverterVerbsStageAndRead => h.2.2.2.1) p2p (it []) ∧
    ServesAt (fun h : Obligations.ConverterVerbsStageAndRead => h.2.2.2.2.1 []) p2p (itX 16384 []) (List.replicate 16384 0) ∧
    ServesAt (fun h : Obligations.ConverterVerbsStageAndRead => h.2.2.2.2.2.1) p2p (it [fieldAt 0 8 1, fieldAt 2 16 5]) ∧
    WaitsAt (fun h : Obligations.ConverterVerbsStageAndRead => h.2.2.2.2.2.2.1) ({ p2p with conv := { fe := [(5, 0)] } }) (it [fieldAt 0 8 1, fieldAt 2 16 5]) ∧
    WaitsAt (fun h : Obligations.ConverterVerbsStageAndRead => h.2.2.2.2.2.2.2) ({ p2p with conv := { lasCur := some (lasTx (.write 0)) } }) (it [fieldAt 0 7 8, fieldAt 4 8 1]) ∧
    StagesWith (fun h : Obligations.ConverterVerbsStageAndRead => h.1.2.2.2.2.2.2.2.2.1) p2p (itX 16384 []) calCall :=
  ⟨by decide +kernel, by decide +kernel, by decide +kernel, (by decide +kernel), ⟨by decide +kernel, by decide +kernel, by decide +kernel⟩, by decide +kernel, by decide +kernel, by decide +kernel, (by decide +kernel), by decide +kernel, by decide +kernel, by decide +kernel, (by decide +kernel), by decide +kernel, by decide +kernel, by decide +kernel, ⟨by decide +kernel, cal_import_ok, cal_import_stages⟩⟩

/-- Witnesses of `LevelsSignalPresenceAndControlBuses`. -/
theorem test_witness_levels_signal_presence_and_control_buses :
    HappensAt (fun h : Obligations.LevelsSignalPresenceAndControlBuses => h.1.1 (levels [(-512, 300), (511, 300), (7, 1)])) p2p ∧
    HappensAt (fun h : Obligations.LevelsSignalPresenceAndControlBuses => h.1.2 (levels [])) ({ p2p with line := { signal := true, below := 1, state := .locked } }) ∧
    HappensAt (fun h : Obligations.LevelsSignalPresenceAndControlBuses => h.2.1 5 0 []) ({ p2p with conv := { fe := [(5, 0)] } }) ∧
    HappensAt (fun h : Obligations.LevelsSignalPresenceAndControlBuses => h.2.2.1 (.done [1]) (lasTx (.correct 1 250000))) ({ p2p with conv := { lasCur := some (lasTx (.correct 1 250000)), lasQueue := [lasTx (.read 0 1)] } }) ∧
    HappensAt (fun h : Obligations.LevelsSignalPresenceAndControlBuses => h.2.2.1 (.done [1]) (lasTx (.read 0 1))) ({ (p2p.modSlot 0 fun s => { s with taken := some ⟨it [] verbConvLasRead, .lasRead⟩ }) with conv := { lasCur := some (lasTx (.read 0 1)) } }) ∧
    HappensAt (fun h : Obligations.LevelsSignalPresenceAndControlBuses => h.2.2.2 (lasTx (.correct 1 250000))) ({ p2p with conv := { lasCur := some (lasTx (.correct 1 250000)) } }) :=
  (by and_intros <;> decide +kernel)

/-- What a pass of a narrow run measures: eight converters, every slice at the mean of its converter's. -/
def calPass : List CalConv := List.replicate 8 {}

/-- Witnesses of `CalibrationRunsStartAndEnd`. -/
theorem test_witness_calibration_runs_start_and_end :
    ServesAt (fun h : Obligations.CalibrationRunsStartAndEnd => h.1) p2p (it []) ∧
    HappensAt (fun h : Obligations.CalibrationRunsStartAndEnd => h.2.1) (sets { p2p with conv := { calRef := -9000 } } [(.calTrigger, 0, 1)]) ∧
    HappensAt (fun h : Obligations.CalibrationRunsStartAndEnd => h.2.2 ⟨calPass, calPass, [(-3, 70, 80)]⟩ run 10) ({ p2p with conv := { run := some run } }) :=
  ⟨by decide +kernel, by decide +kernel, by decide +kernel⟩

/-- Witnesses of `LoadingVerbsStageAndRead`. -/
theorem test_witness_loading_verbs_stage_and_read :
    StagesAt (fun h : Obligations.LoadingVerbsStageAndRead => h.1.1) p2p (it [pat 0 .subcarrier 3, fieldAt 4 8 16]) ∧
    StagesAt (fun h : Obligations.LoadingVerbsStageAndRead => h.1.2.1) p2p (it []) ∧
    StagesAt (fun h : Obligations.LoadingVerbsStageAndRead => h.1.2.2) (sets base [(.role, 0, 3)]) (it [fieldAt 0 8 0, fieldAt 1 8 4, fieldAt 2 8 28, fieldAt 3 8 4]) ∧
    ServesAt (fun h : Obligations.LoadingVerbsStageAndRead => h.2.1 3 1200) (sc3 fun s => { s with snr := { s.snr with min := some 1200, snr := 1300, valid := true } }) (it [pat 0 .subcarrier 3]) ∧
    ReadsAt (fun h : Obligations.LoadingVerbsStageAndRead => h.2.2.1 3) p2p (it [pat 0 .subcarrier 3]) ∧
    ReadsAt (fun h : Obligations.LoadingVerbsStageAndRead => h.2.2.2.1) p2p (it [fieldAt 0 8 64]) ∧
    ServesAt (fun h : Obligations.LoadingVerbsStageAndRead => h.2.2.2.2 0 3 (2000 * 2 ^ 20) ((sc3 fun s => { s with snr := { s.snr with smooth := some (2000 * 2 ^ 20) } }).propose 2000 0 false) (2000 - p2p.snrReq ((sc3 fun s => { s with snr := { s.snr with smooth := some (2000 * 2 ^ 20) } }).propose 2000 0 false).1 0 false)) (sc3 fun s => { s with snr := { s.snr with smooth := some (2000 * 2 ^ 20) } }) (itX 8 [pat 16 .subcarrier 3]) (List.replicate 8 0) :=
  (by and_intros <;> decide +kernel)

/-- Witnesses of `MultiframeBoundariesStepTheLoading`. -/
theorem test_witness_multiframe_boundaries_step_the_loading :
    HappensAt (fun h : Obligations.MultiframeBoundariesStepTheLoading => h.1 3) p2p ∧
    HappensAt (fun h : Obligations.MultiframeBoundariesStepTheLoading => h.1 3) (sc3 fun s => { s with tx := { s.tx with pend := some (plan1, 0) } }) ∧
    HappensAt (fun h : Obligations.MultiframeBoundariesStepTheLoading => h.1 3) (sc3 fun s => { s with tx := { s.tx with state := .final, next := plan1 } }) ∧
    HappensAt (fun h : Obligations.MultiframeBoundariesStepTheLoading => h.2 3 ⟨7, [0, 0, 0, 0], [0, 0, 0, 0]⟩) (sc3 fun s => { s with eq := { s.eq with state := .track } }) :=
  ⟨by decide +kernel, by decide +kernel, by decide +kernel, (by decide +kernel)⟩

/-- What a received frame of subcarrier 3 without a sample gives it in frame. -/
def framedEq : Equalised := (framed.frontTrack 3 []).equalise { frame3 with grid := none }
def framedSums : PilotSum × PilotSum := framed.frameSums 3 none framedEq.out
def framedRx : RxDecoded := framed.decode 3 plan0 framedEq.out framedEq.ahead (noiseOf framedSums)

/-- Witnesses of `ReceivedFramesAndChunksGoOn`. -/
theorem test_witness_received_frames_and_chunks_go_on :
    HappensAt (fun h : Obligations.ReceivedFramesAndChunksGoOn => h.1.1 { frame3 with grid := none } framedEq framedSums framedRx plan0 [] { plan0 with map := none } 0
      (deframe 3 0 0 (framed.sc 3).fr.nextK (framed.sc 3).fec.tail framedRx).oh) framed ∧
    HappensAt (fun h : Obligations.ReceivedFramesAndChunksGoOn => h.1.2 frame3 5) (wide.modSc 3 fun s => { s with eq := { s.eq with state := .grid, grid := some 5 }, fr := { s.fr with state := .search } }) ∧
    HappensAt (fun h : Obligations.ReceivedFramesAndChunksGoOn => h.2 [] (chunk3 true) []) (cut3 true (sets inFrame [(.contBind, 5, 2)])) ∧
    HappensAt (fun h : Obligations.ReceivedFramesAndChunksGoOn => h.2 [{}] (chunk3 false) []) (cut3 false (sets inFrame [(.contBind, 5, 1)])) ∧
    HappensAt (fun h : Obligations.ReceivedFramesAndChunksGoOn => h.2 [] (chunk3 true) []) (cut3 true inFrame) :=
  ⟨⟨by decide +kernel, by decide +kernel, by decide +kernel, (by decide +kernel), by decide +kernel, rfl, rfl, by decide +kernel, by decide +kernel,
    by decide +kernel, by decide +kernel, by decide +kernel, (by decide +kernel), by decide +kernel, by decide +kernel, by decide +kernel,
    by decide +kernel, by decide +kernel, by decide +kernel, by decide +kernel, by decide +kernel, (by decide +kernel), by decide +kernel, rfl,
    rfl⟩, by decide +kernel,
    by decide +kernel, by decide +kernel, by decide +kernel⟩

/-- Witnesses of `EqualiserDecoderAndFramingVerbs`. -/
theorem test_witness_equaliser_decoder_and_framing_verbs :
    StagesAt (fun h : Obligations.EqualiserDecoderAndFramingVerbs => h.1.1) wide (it [fieldAt 0 8 2, fieldAt 4 32 (unsigned 32 (-1000)), fieldAt 8 16 5]) ∧
    StagesAt (fun h : Obligations.EqualiserDecoderAndFramingVerbs => h.1.2.1) p2p (it [pat 0 .converter 5, fieldAt 4 16 (unsigned 16 (-2500)), fieldAt 6 8 100, fieldAt 7 8 50]) ∧
    StagesAt (fun h : Obligations.EqualiserDecoderAndFramingVerbs => h.1.2.2.1) p2p (it [pat 0 .subcarrier 3, fieldAt 5 8 100, fieldAt 6 8 1]) ∧
    StagesAt (fun h : Obligations.EqualiserDecoderAndFramingVerbs => h.1.2.2.2.1) p2p (it [fieldAt 16 8 1]) ∧
    StagesAt (fun h : Obligations.EqualiserDecoderAndFramingVerbs => h.1.2.2.2.2.1) p2p (it [pat 0 .subcarrier 3, fieldAt 4 8 1, fieldAt 5 8 99, fieldAt 6 8 1]) ∧
    StagesAt (fun h : Obligations.EqualiserDecoderAndFramingVerbs => h.1.2.2.2.2.2) p2p (it [pat 0 .subcarrier 3, fieldAt 4 8 1, fieldAt 5 8 99, fieldAt 6 8 12]) ∧
    ReadsAt (fun h : Obligations.EqualiserDecoderAndFramingVerbs => h.2.1.1) wide (it []) ∧
    ReadsAt (fun h : Obligations.EqualiserDecoderAndFramingVerbs => h.2.1.2.1 3) (eq3 .track) (it [pat 0 .subcarrier 3]) ∧
    ReadsAt (fun h : Obligations.EqualiserDecoderAndFramingVerbs => h.2.1.2.2.1) p2p (it []) ∧
    ReadsAt (fun h : Obligations.EqualiserDecoderAndFramingVerbs => h.2.1.2.2.2 3) p2p (it [pat 0 .subcarrier 3]) ∧
    StagesAt (fun h : Obligations.EqualiserDecoderAndFramingVerbs => h.2.2.1) p2p (it [pat 0 .subcarrier 3, fieldAt 6 16 0x83FF, fieldAt 38 16 0x8000]) ∧
    StagesAt (fun h : Obligations.EqualiserDecoderAndFramingVerbs => h.2.2.2.1) p2p (it [fieldAt 0 16 1023, fieldAt 2 8 3]) ∧
    StagesAt (fun h : Obligations.EqualiserDecoderAndFramingVerbs => h.2.2.2.1) (sets p2p [(.stitchUse, 0, 1)]) (it [fieldAt 0 16 1023, fieldAt 2 8 5, fieldAt 4 16 7]) ∧
    StagesAt (fun h : Obligations.EqualiserDecoderAndFramingVerbs => h.2.2.2.2.1) p2p (it [pat 0 .subcarrier 3, fieldAt 4 8 95, fieldAt 5 8 20, fieldAt 6 8 2]) ∧
    StagesAt (fun h : Obligations.EqualiserDecoderAndFramingVerbs => h.2.2.2.2.2.1) wide (it [pat 0 .line 0, fieldAt 4 8 2]) ∧
    StagesAt (fun h : Obligations.EqualiserDecoderAndFramingVerbs => h.2.2.2.2.2.1) p2p (it [pat 0 .subcarrier 3, fieldAt 4 8 3]) ∧
    ReadsAt (fun h : Obligations.EqualiserDecoderAndFramingVerbs => h.2.2.2.2.2.2.1 3) inFrame (it [pat 0 .subcarrier 3]) ∧
    ReadsAt (fun h : Obligations.EqualiserDecoderAndFramingVerbs => h.2.2.2.2.2.2.2) (sets p2p [(.contBind, 5, 1)]) (it [fieldAt 0 16 2, fieldAt 2 8 1]) :=
  ⟨⟨by decide +kernel, ⟨by decide +kernel, ⟨0, by decide +kernel⟩⟩, by decide +kernel⟩, by and_intros <;> decide +kernel⟩

/-- Witnesses of `LineSetStagesTheThresholdAndTheTiming`. -/
theorem test_witness_line_set_stages_the_threshold_and_the_timing :
    Hyp1 (fun h : Obligations.LineSetStagesTheThresholdAndTheTiming => h.2.1 ((verbEqLineSet).callOf (hc []) (waiting base (it [] verbEqLineSet) base) ⟨it [] verbEqLineSet, false⟩) base) ∧
    RefusesAt (fun h : Obligations.LineSetStagesTheThresholdAndTheTiming => h.2.2.1) base (it [fieldAt 0 16 (unsigned 16 (-5001)), fieldAt 2 16 10, fieldAt 4 16 10, fieldAt 6 16 10000]) ∧
    RefusesAt (fun h : Obligations.LineSetStagesTheThresholdAndTheTiming => h.2.2.1) base (it [fieldAt 0 16 (unsigned 16 (-5000)), fieldAt 2 16 2001, fieldAt 4 16 10, fieldAt 6 16 10000]) ∧
    StagesAt (fun h : Obligations.LineSetStagesTheThresholdAndTheTiming => h.2.2.2.1) p2p (it [fieldAt 0 16 (unsigned 16 (-1000)), fieldAt 2 16 10, fieldAt 4 16 10, fieldAt 6 16 10000]) ∧
    StagesAt (fun h : Obligations.LineSetStagesTheThresholdAndTheTiming => h.2.2.2.1) base (it [fieldAt 0 16 (unsigned 16 (-5000)), fieldAt 2 16 2000, fieldAt 4 16 10000, fieldAt 6 16 10]) :=
  (by and_intros <;> decide +kernel)

/-- Witnesses of `ScansReacquisitionAndAcquisition`. -/
theorem test_witness_scans_reacquisition_and_acquisition :
    ServesAt (fun h : Obligations.ScansReacquisitionAndAcquisition => h.1.1) wide (it [fieldAt 0 32 (unsigned 32 (-120000)), fieldAt 4 32 120000, fieldAt 8 16 5000]) ∧
    HappensAt (fun h : Obligations.ScansReacquisitionAndAcquisition => h.1.2.1 ⟨[2, 2, 9, 2, 2], [3, 7, 3]⟩ scan1) ({ p2p with line := { scan := some scan1 } }) ∧
    ServesAt (fun h : Obligations.ScansReacquisitionAndAcquisition => h.1.2.2.1) (eq3 .track) (it [pat 0 .line 0]) ∧
    ServesAt (fun h : Obligations.ScansReacquisitionAndAcquisition => h.1.2.2.2 3) (eq3 .track) (it [pat 0 .subcarrier 3]) ∧
    HappensAt (fun h : Obligations.ScansReacquisitionAndAcquisition => h.2.1 (-2000)) (lineIn .freqAcq (eq3 .waitLine)) ∧
    HappensAt (fun h : Obligations.ScansReacquisitionAndAcquisition => h.2.2.1) (let d := eq3 .grid; { d with line := { d.line with reached := true } }) ∧
    HappensAt (fun h : Obligations.ScansReacquisitionAndAcquisition => h.2.2.2.1 3) (eq3 .preconv fun e => { e with modErr := some 0 }) ∧
    HappensAt (fun h : Obligations.ScansReacquisitionAndAcquisition => h.2.2.2.1 3) (eq3 .preconv) ∧
    HappensAt (fun h : Obligations.ScansReacquisitionAndAcquisition => h.2.2.2.2.1 3) (eq3 .grid) ∧
    HappensAt (fun h : Obligations.ScansReacquisitionAndAcquisition => h.2.2.2.2.2 3 50 0) (eq3 .track fun e => { e with low := 3 }) ∧
    HappensAt (fun h : Obligations.ScansReacquisitionAndAcquisition => h.2.2.2.2.2 3 5000 91) (eq3 .track) :=
  (by and_intros <;> decide +kernel)

/-- Witnesses of `WindowsAlarmsAndLaserFeedback`. -/
theorem test_witness_windows_alarms_and_laser_feedback :
    HappensAt (fun h : Obligations.WindowsAlarmsAndLaserFeedback => h.1 3) (eq3 .track fun e => { e with sopPeak := 151 }) ∧
    HappensAt (fun h : Obligations.WindowsAlarmsAndLaserFeedback => h.2.1 3) (eq3 .track fun e => { e with sopAlarm := true }) ∧
    HappensAt (fun h : Obligations.WindowsAlarmsAndLaserFeedback => h.2.2.1 true (-300001)) (sets (let d := eq3 .track; { d with line := { d.line with offs := [[], [(2500000, -300001)]] } })
      [(.lasAddr, 1, 8), (.lasEnable, 1, 1), (.lasLimit, 1, 1), (.fbThresh, 0, 300)]) ∧
    HappensAt (fun h : Obligations.WindowsAlarmsAndLaserFeedback => h.2.2.2 3) (sc3 fun s => { s with fec := { s.fec with winCoded := 1000000, winCorrected := 20000 } }) ∧
    HappensAt (fun h : Obligations.WindowsAlarmsAndLaserFeedback => h.2.2.2 3) p2p :=
  (by and_intros <;> decide +kernel)

/-- Witnesses of `TheAlignerFindsAndLosesFrames`. -/
theorem test_witness_the_aligner_finds_and_loses_frames :
    HappensAt (fun h : Obligations.TheAlignerFindsAndLosesFrames => h.1 3 90000 wordKnown _ _ _ _ rfl) (searching [(1, true), (2, true), (3, true)]) ∧
    HappensAt (fun h : Obligations.TheAlignerFindsAndLosesFrames => h.1 3 90000 (wordKnown.map Cx2.swap) _ _ _ _ rfl) (searching []) ∧
    HappensAt (fun h : Obligations.TheAlignerFindsAndLosesFrames => h.2.1 3 87502 ⟨wordKnown.map Cx2.swap, (knownPilots 3 1366).map Cx2.swap⟩ (2, true) _ _ rfl rfl) (searching [(1, false), (2, true)]) ∧
    HappensAt (fun h : Obligations.TheAlignerFindsAndLosesFrames => h.2.2.1 3 ⟨[], []⟩ _ false rfl) (let d := inFrame; d.modSc 3 fun s => { s with fr := { s.fr with misses := 14 } }) ∧
    HappensAt (fun h : Obligations.TheAlignerFindsAndLosesFrames => h.2.2.2 3 true none) (inFrame.modSc 3 fun s => { s with fr := { s.fr with markMiss := 1 } }) :=
  (by and_intros <;> decide +kernel)

/-- Container 2 is terminated here. -/
def bound : Dev := sets p2p [(.contBind, 5, 1)]

/-- Receive protection group 4 with members 2 and 3. -/
def group4 (x : ProtSt) : Dev :=
  let d := sets p2p [(.grpEn, 9, 1), (.grpW, 9, 2), (.grpP, 9, 3), (.grpHold, 9, 10), (.grpWtr, 9, 5)]
  { d with ohd := { d.ohd with groups := [(4, x)] } }

/-- Witnesses of `OverheadAndProtectionVerbs`. -/
theorem test_witness_overhead_and_protection_verbs :
    StagesAt (fun h : Obligations.OverheadAndProtectionVerbs => h.1.1) p2p (it [pat 0 .subcarrier 3, fieldAt 4 8 15, fieldAt 5 8 255]) ∧
    StagesAt (fun h : Obligations.OverheadAndProtectionVerbs => h.1.2.1) p2p (itX 64 [pat 16 .subcarrier 3, fieldAt 20 8 1]) (List.replicate 64 65) ∧
    StagesAt (fun h : Obligations.OverheadAndProtectionVerbs => h.1.2.2.1) bound (it [fieldAt 0 16 2, fieldAt 2 16 0x83FF, fieldAt 4 32 100000, fieldAt 8 8 10]) ∧
    StagesAt (fun h : Obligations.OverheadAndProtectionVerbs => h.1.2.2.2.1) p2p (it [fieldAt 0 8 79, fieldAt 1 8 7, fieldAt 2 16 1, fieldAt 4 16 2, fieldAt 6 16 256, fieldAt 8 16 900, fieldAt 10 8 100]) ∧
    StagesAt (fun h : Obligations.OverheadAndProtectionVerbs => h.1.2.2.2.2.1) p2p (it [fieldAt 0 8 79, fieldAt 1 8 10]) ∧
    StagesAt (fun h : Obligations.OverheadAndProtectionVerbs => h.1.2.2.2.2.2) p2p (it [fieldAt 0 8 79]) ∧
    ReadsAt (fun h : Obligations.OverheadAndProtectionVerbs => h.2.1 3) p2p (it [pat 0 .subcarrier 3, fieldAt 6 8 2]) ∧
    ReadsAt (fun h : Obligations.OverheadAndProtectionVerbs => h.2.1 0) bound (it [pat 0 .line 0, fieldAt 4 16 2, fieldAt 6 8 1]) ∧
    ServesAt (fun h : Obligations.OverheadAndProtectionVerbs => h.2.2.1 3 (List.replicate 64 0)) p2p (it [pat 0 .subcarrier 3]) ∧
    ReadsAt (fun h : Obligations.OverheadAndProtectionVerbs => h.2.2.2) (group4 {}) (it [fieldAt 0 8 4]) :=
  (by and_intros <;> decide +kernel)

/-- Witnesses of `SecondsIntervalsAndProtectionTimers`. -/
theorem test_witness_seconds_intervals_and_protection_timers :
    HappensAt (fun h : Obligations.SecondsIntervalsAndProtectionTimers => h.1 3) ({ p2p with ohd := { secs := [(3, { defects := 4 })] } }) ∧
    HappensAt (fun h : Obligations.SecondsIntervalsAndProtectionTimers => h.2.1 3) p2p ∧
    HappensAt (fun h : Obligations.SecondsIntervalsAndProtectionTimers => h.2.2.1 3) p2p ∧
    HappensAt (fun h : Obligations.SecondsIntervalsAndProtectionTimers => h.2.2.2.1 4 10) (let d := group4 { sf := [some 10, none] }; { d with ohd := { d.ohd with paths := [(2, { defects := 4 })] } }) ∧
    HappensAt (fun h : Obligations.SecondsIntervalsAndProtectionTimers => h.2.2.2.2.1 4 10) (group4 { wtr := some 10, reqs := 4, active := true }) ∧
    HappensAt (fun h : Obligations.SecondsIntervalsAndProtectionTimers => h.2.2.2.2.2 4) (group4 {}) :=
  (by and_intros <;> decide +kernel)

/-- A hub with the shared subcarrier 3 and the leaf 5 on it. -/
def hub : Dev :=
  let d := powered (sets base [(.role, 0, 2), (.budget, 0, 5000), (.shared, 3, 1), (.leafEn, 5, 1), (.leafHome, 5, 3), (.leafIdent, 5, 77),
    (.loopFrames, 0, 9), (.captureDb, 0, 3)]) [.core, .sc 0, .sc 3, .lem]
  { d with time := { established := true } }

/-- With the leaf 5 as given. -/
def leaf5 (l : LeafAt) : Dev := { hub with ohd := { hub.ohd with hub := { leaves := [(5, l)] } } }

/-- A leaf whose home is subcarrier 3, in frame. -/
def leafDev (l : LeafOwn) : Dev :=
  let d := (powered (sets base [(.role, 0, 3), (.ownDisc, 0, 1), (.ownHome, 0, 3)]) [.core, .sc 3]).modSc 3 fun s => { s with
    fr := { s.fr with state := .inFrame, phase := true, k := some 7 } }
  { d with time := { established := true }, ohd := { d.ohd with leaf := l } }

/-- Bytes with their CRC-16. -/
def checked (b : List Byte) : List Byte := b ++ beBytes 2 (crc16 b)

/-- A head of an open burst of leaf n. -/
def openHead5 (n : Nat) : List Byte := checked (beBytes 2 n ++ List.replicate 36 0)

/-- A body of a discovery burst of an identity in sub-slot 2. -/
def discBody (ident : Nat) : List Byte := checked (beBytes 8 ident ++ [2] ++ List.replicate 13 0)

/-- An open burst on subcarrier 3, 800 eighths of a symbol after the earliest place of sub-slot n. -/
def open5 (n : Nat) : OpenBurst := ⟨3, 700000 + 5120 * n + 800, [], -3, -1000⟩

/-- A data burst of leaf 5, without a sample: its unique word is found if the threshold is 0. -/
def data5 : DataBurst := ⟨5, 7, 3, [], 0, 4, []⟩

/-- Leaf 5 with the grant of that burst. -/
def granted5 : LeafAt := { state := .active, grants := [⟨7, 2, 1, 0, 0⟩, ⟨7, 3, 1, 0, 0⟩] }

/-- The open search of subcarrier 3 with contexts of these powers. -/
def contexts3 (l : List Nat) : Dev := { hub with ohd := { hub.ohd with hub := { scs := [(3, { contexts := l })] } } }

/-- The symbols of a preamble. -/
def heard : List Cx2 := (preamble.take 129).map Sym.known

/-- A tree record's head for leaf 5. -/
def th : TreeHead := ⟨0, 5⟩

/-- Witnesses of `BurstVerbsStageInviteRangeAndRead`. -/
theorem test_witness_burst_verbs_stage_invite_range_and_read :
    StagesAt (fun h : Obligations.BurstVerbsStageInviteRangeAndRead => h.1.1) hub (it [fieldAt 0 8 9, fieldAt 2 16 0, fieldAt 4 16 80, fieldAt 6 8 3, fieldAt 7 8 95]) ∧
    StagesAt (fun h : Obligations.BurstVerbsStageInviteRangeAndRead => h.1.2.1) hub (it [pat 0 .subcarrier 3, fieldAt 4 8 3]) ∧
    StagesAt (fun h : Obligations.BurstVerbsStageInviteRangeAndRead => h.1.2.2.1) hub (itX 16 [pat 16 .subcarrier 3]) (List.replicate 16 0) ∧
    StagesAt (fun h : Obligations.BurstVerbsStageInviteRangeAndRead => h.1.2.2.2.1) hub (it [fieldAt 0 16 4094, fieldAt 2 8 1, fieldAt 3 8 3, fieldAt 8 64 78]) ∧
    StagesAt (fun h : Obligations.BurstVerbsStageInviteRangeAndRead => h.1.2.2.2.1) hub (it [fieldAt 0 16 4094, fieldAt 2 8 3, fieldAt 3 8 0, fieldAt 8 64 78]) ∧
    StagesAt (fun h : Obligations.BurstVerbsStageInviteRangeAndRead => h.1.2.2.2.2.1) hub (it [fieldAt 0 16 5]) ∧
    StagesAt (fun h : Obligations.BurstVerbsStageInviteRangeAndRead => h.1.2.2.2.2.2) (leafDev {}) (it [fieldAt 0 8 3, fieldAt 1 8 31, fieldAt 2 16 1023]) ∧
    ServesAt (fun h : Obligations.BurstVerbsStageInviteRangeAndRead => h.2.1) hub (it [fieldAt 0 64 9, fieldAt 8 8 3]) ∧
    ServesAt (fun h : Obligations.BurstVerbsStageInviteRangeAndRead => h.2.2.1) (leaf5 { state := .active }) (it [fieldAt 0 16 5]) ∧
    ReadsAt (fun h : Obligations.BurstVerbsStageInviteRangeAndRead => h.2.2.2.1 5) hub (it [pat 0 .leaf 5]) ∧
    ServesAt (fun h : Obligations.BurstVerbsStageInviteRangeAndRead => h.2.2.2.2.1 3 [⟨9, 8, -1, -5, 3, true, 7⟩]) ({ hub with ohd := { hub.ohd with hub := { disc := [⟨9, 8, -1, -5, 3, true, 7⟩] } } }) (itX 24 [pat 16 .subcarrier 3]) (List.replicate 24 0) ∧
    ReadsAt (fun h : Obligations.BurstVerbsStageInviteRangeAndRead => h.2.2.2.2.2) (leafDev {}) (it []) :=
  (by and_intros <;> decide +kernel)

/-- Witnesses of `TheHubSearchesDiscoversAndRanges`. -/
theorem test_witness_the_hub_searches_discovers_and_ranges :
    (autoCorr100 heard ≥ 50 ∧ HappensAt (fun h : Obligations.TheHubSearchesDiscoversAndRanges => h.1 3 (.detected heard)) hub) ∧
    HappensAt (fun h : Obligations.TheHubSearchesDiscoversAndRanges => h.1 3 (.detected heard)) (contexts3 [300, 100]) ∧
    HappensAt (fun h : Obligations.TheHubSearchesDiscoversAndRanges => h.1 3 (.detected [])) hub ∧
    ((contexts3 [300, 100]).captures 300 100 = true ∧ HappensAt (fun h : Obligations.TheHubSearchesDiscoversAndRanges => h.1 3 (.bothWords 639)) (contexts3 [300, 100])) ∧
    ((contexts3 [100, 300]).captures 300 100 = true ∧ HappensAt (fun h : Obligations.TheHubSearchesDiscoversAndRanges => h.1 3 (.bothWords 639)) (contexts3 [100, 300])) ∧
    ((contexts3 [300, 300]).captures 300 300 = false ∧ HappensAt (fun h : Obligations.TheHubSearchesDiscoversAndRanges => h.1 3 (.bothWords 639)) (contexts3 [300, 300])) ∧
    HappensAt (fun h : Obligations.TheHubSearchesDiscoversAndRanges => h.1 3 (.oneWord 1)) (contexts3 [300, 100]) ∧
    HappensAt (fun h : Obligations.TheHubSearchesDiscoversAndRanges => h.1 3 (.noWord 0)) (contexts3 [300]) ∧
    HappensAt (fun h : Obligations.TheHubSearchesDiscoversAndRanges => h.2.1 (open5 2)) hub ∧
    HappensAt (fun h : Obligations.TheHubSearchesDiscoversAndRanges => h.2.2.1 (open5 0)) (leaf5 { state := .ranging, rangeEnd := 5 }) ∧
    HappensAt (fun h : Obligations.TheHubSearchesDiscoversAndRanges => h.2.2.2 5) (leaf5 { state := .ranging, rangeEnd := 5 }) :=
  ⟨by decide +kernel, by decide +kernel, by decide +kernel, (by decide +kernel), by decide +kernel, by decide +kernel, by decide +kernel,
    by decide +kernel, by decide +kernel, by decide +kernel, (by decide +kernel)⟩

/-- What an open burst's decoded parts do: a known identity in reach is ranged, another is listed, and a leaf that echoes is active (R306,
R308). -/
theorem test_open_bursts_decoded :
    ((hub.discovered (open5 2) (openHead5 0xFFF) (discBody 77)).leafAt 5).rtd = 800 ∧
    ((hub.discovered (open5 2) (openHead5 0xFFF) (discBody 77)).leafAt 5).eqd = 699900 ∧
    (hub.discovered (open5 2) (openHead5 0xFFF) (discBody 78)).ohd.hub.disc.map (·.ident) = [78] ∧
    (((leaf5 { state := .ranging }).echoed (open5 0) (openHead5 5) (discBody 77) false).leafAt 5).state = .active := by
  decide +kernel

/-- Witnesses of `BurstsAreReceivedAndSent`. -/
theorem test_witness_bursts_are_received_and_sent :
    (wordPlace (hub.conf .uwThresh) (hub.burstWindow none 3 4 0 []) = none ∧ HappensAt (fun h : Obligations.BurstsAreReceivedAndSent => h.1 data5 ⟨7, 3, 1, 0, 0⟩) (leaf5 granted5)) ∧
    (wordPlace 0 (hub.burstWindow none 3 4 0 []) = some 0 ∧ HappensAt (fun h : Obligations.BurstsAreReceivedAndSent => h.1 data5 ⟨7, 3, 1, 0, 0⟩) (sets (leaf5 granted5) [(.uwThresh, 0, 0)])) ∧
    HappensAt (fun h : Obligations.BurstsAreReceivedAndSent => h.2.1 5) (leaf5 { state := .active, missRun := 3 }) ∧
    HappensAt (fun h : Obligations.BurstsAreReceivedAndSent => h.2.2.1 ⟨3, 0, 7, 5 * 2 ^ 20⟩ [] tcFrame) (leafDev { state := .active, id := 5, grants := [⟨3, 0, 7, 5 * 2 ^ 20⟩], arrivals := [(0, 0)] }) ∧
    HappensAt (fun h : Obligations.BurstsAreReceivedAndSent => h.2.2.2.1 2 3 true 9 (2 * tcFrame)) (leafDev { state := .discSent, disc := some (2, 3, true, 9), arrivals := [(7, 0)] }) ∧
    HappensAt (fun h : Obligations.BurstsAreReceivedAndSent => h.2.2.2.2 9 (2 * tcFrame)) (leafDev { state := .active, id := 5, echo := some 9, arrivals := [(7, 0)] }) :=
  (by and_intros <;> decide +kernel)

/-- Witnesses of `LeavesFollowTheirHub`. -/
theorem test_witness_leaves_follow_their_hub :
    HappensAt (fun h : Obligations.LeavesFollowTheirHub => h.1 th 0) (leafDev { state := .discSent }) ∧
    HappensAt (fun h : Obligations.LeavesFollowTheirHub => h.2.1 th 0 99 true 55) (leafDev { state := .seen }) ∧
    HappensAt (fun h : Obligations.LeavesFollowTheirHub => h.2.2.1 th 99 11 55) (leafDev { state := .active, id := 5 }) ∧
    HappensAt (fun h : Obligations.LeavesFollowTheirHub => h.2.2.2.1 th 9) (leafDev { state := .active, id := 5 }) ∧
    HappensAt (fun h : Obligations.LeavesFollowTheirHub => h.2.2.2.2.1 th ⟨0x8000, 100, 3, true, 55⟩) (leafDev { state := .active, id := 5 }) ∧
    HappensAt (fun h : Obligations.LeavesFollowTheirHub => h.2.2.2.2.2.1 th 0 3) (leafDev { state := .inviteWait }) ∧
    HappensAt (fun h : Obligations.LeavesFollowTheirHub => h.2.2.2.2.2.2.1 th ⟨31, 4, 31, 4, 31, true⟩) (sets (leafDev { state := .active, id := 5 }) [(.evtEnable, Ev.leafMoveRequest.code, 1)]) ∧
    HappensAt (fun h : Obligations.LeavesFollowTheirHub => h.2.2.2.2.2.2.2.1 th) (sets (leafDev { state := .active, id := 5 }) [(.evtEnable, Ev.leafDeregistered.code, 1)]) ∧
    HappensAt (fun h : Obligations.LeavesFollowTheirHub => h.2.2.2.2.2.2.2.2.1 3 9) (leafDev { state := .discWait, r := 2 }) ∧
    HappensAt (fun h : Obligations.LeavesFollowTheirHub => h.2.2.2.2.2.2.2.2.2.1) (leafDev { state := .discSent, r := 7 }) ∧
    HappensAt (fun h : Obligations.LeavesFollowTheirHub => h.2.2.2.2.2.2.2.2.2.1) (leafDev { state := .discSent, r := 8 }) ∧
    HappensAt (fun h : Obligations.LeavesFollowTheirHub => h.2.2.2.2.2.2.2.2.2.2) (leafDev { state := .silent, id := 5 }) :=
  (by and_intros <;> decide +kernel)

/-- A waiting step. -/
def step1 (k : Nat) : PStep := ⟨k, 999 * 65536, 1000, 0, 1, 5⟩

/-- With the time's state as given. -/
def withTime (f : TimeSt → TimeSt) : Dev := { est with time := f est.time }

/-- With the references as given. -/
def withRef (l : List (Nat × RefIn)) (f : RefSt → RefSt := id) : Dev := { est with ref := f { est.ref with ins := l } }

/-- A time-of-day message in the binary format: second 5, locked. -/
def tod5 : List Byte :=
  let b := beBytes 2 0xA74D ++ beBytes 1 0x11 ++ beBytes 6 5 ++ beBytes 1 0x80 ++ List.replicate 4 0
  b ++ beBytes 2 (crcMsb 16 0x1021 0xFFFF b)

/-- A reference measurement. -/
def meas : RefMeas := ⟨0, 0, 0, 0⟩

/-- A model's record of this device. -/
def model1 : List Byte :=
  let b := leBytes 2 1 ++ leBytes 1 0 ++ leBytes 1 0 ++ base.otp.identity ++ List.replicate 52 0
  b ++ leBytes 4 (crc32 b) ++ leBytes 4 0

/-- A GNSS input with its last edge at 0. -/
def gnss (l : Option Nat) : Dev :=
  { sets (withRef [(0, { state := .available, todLast := l })]) [(.refTod, 0, 2)] with
    now := 1250000, time := { est.time with ppsA := some ⟨0, 0, 0, 0⟩ } }

/-- Witnesses of `TimeVerbsStepSlewReadAndStage`. -/
theorem test_witness_time_verbs_step_slew_read_and_stage :
    ServesAt (fun h : Obligations.TimeVerbsStepSlewReadAndStage => h.1) base (it [fieldAt 8 48 5, fieldAt 14 30 999999999, fieldAt 18 16 65535]) ∧
    ServesAt (fun h : Obligations.TimeVerbsStepSlewReadAndStage => h.2.1) base (it [fieldAt 0 8 3, fieldAt 8 48 5, fieldAt 20 64 25000]) ∧
    ServesAt (fun h : Obligations.TimeVerbsStepSlewReadAndStage => h.2.1) base (it [fieldAt 0 8 2, fieldAt 8 48 5]) ∧
    ServesAt (fun h : Obligations.TimeVerbsStepSlewReadAndStage => h.2.2.1) (sets est [(.refTimeMode, 0, 0)]) (it [fieldAt 0 48 (unsigned 48 (-100000000000)), fieldAt 6 32 600000, fieldAt 10 48 5]) ∧
    ServesAt (fun h : Obligations.TimeVerbsStepSlewReadAndStage => h.2.2.2.1 ⟨777, 0, est.time16, est.tcTotal 777⟩) est (it []) ∧
    ServesAt (fun h : Obligations.TimeVerbsStepSlewReadAndStage => h.2.2.2.1 ⟨5, 6, 7, 8⟩) (withTime fun t => { t with ppsB := some ⟨5, 6, 7, 8⟩ }) (it [fieldAt 0 8 2]) ∧
    ServesAt (fun h : Obligations.TimeVerbsStepSlewReadAndStage => h.2.2.2.2.1) (sets est [(.evtEnable, Ev.timeLost.code, 1)]) (it []) ∧
    StagesAt (fun h : Obligations.TimeVerbsStepSlewReadAndStage => h.2.2.2.2.2.1) est (it [pat 0 .line 0, fieldAt 4 8 3, fieldAt 5 8 6, fieldAt 8 32 200000000]) ∧
    StagesAt (fun h : Obligations.TimeVerbsStepSlewReadAndStage => h.2.2.2.2.2.1) est (it [pat 0 .stitchLane 0, fieldAt 4 8 1]) ∧
    StagesAt (fun h : Obligations.TimeVerbsStepSlewReadAndStage => h.2.2.2.2.2.2.1) est (it [pat 0 .port 15, fieldAt 4 32 1000000]) ∧
    ReadsAt (fun h : Obligations.TimeVerbsStepSlewReadAndStage => h.2.2.2.2.2.2.2.1) est (it [pat 0 .stitchLane 0]) ∧
    ReadsAt (fun h : Obligations.TimeVerbsStepSlewReadAndStage => h.2.2.2.2.2.2.2.2 15) est (it [pat 0 .port 15]) :=
  (by and_intros <;> decide +kernel)

/-- Witnesses of `StepsSlewsAndEdgesTakeEffect`. -/
theorem test_witness_steps_slews_and_edges_take_effect :
    HappensAt (fun h : Obligations.StepsSlewsAndEdgesTakeEffect => h.1 (step1 3)) (withTime fun t => { t with step := some (step1 3) }) ∧
    HappensAt (fun h : Obligations.StepsSlewsAndEdgesTakeEffect => h.2.1 (step1 1)) (withTime fun t => { t with step := some (step1 1) }) ∧
    HappensAt (fun h : Obligations.StepsSlewsAndEdgesTakeEffect => h.2.2.1 (800, -5)) (withTime fun t => { t with hold := some (800, -5) }) ∧
    HappensAt (fun h : Obligations.StepsSlewsAndEdgesTakeEffect => h.2.2.2.1 true) (withTime fun t => { t with stitch := { t.stitch with valid := true } }) ∧
    HappensAt (fun h : Obligations.StepsSlewsAndEdgesTakeEffect => h.2.2.2.2.1 true 70000) est ∧
    HappensAt (fun h : Obligations.StepsSlewsAndEdgesTakeEffect => h.2.2.2.2.2 true 70000 (step1 2)) (withTime fun t => { t with step := some (step1 2) }) :=
  (by and_intros <;> decide +kernel)

/-- Witnesses of `ReferenceVerbsStageReadAndClear`. -/
theorem test_witness_reference_verbs_stage_read_and_clear :
    StagesAt (fun h : Obligations.ReferenceVerbsStageReadAndClear => h.1) est (it [pat 0 .reference 6, fieldAt 4 8 0x11, fieldAt 5 8 1, fieldAt 6 16 100, fieldAt 8 16 10]) ∧
    StagesAt (fun h : Obligations.ReferenceVerbsStageReadAndClear => h.1) est (it [pat 0 .reference 5, fieldAt 4 8 0xF0, fieldAt 5 8 15, fieldAt 6 16 100, fieldAt 8 16 10, fieldAt 10 8 0x40]) ∧
    StagesAt (fun h : Obligations.ReferenceVerbsStageReadAndClear => h.1) est (it [pat 0 .reference 1, fieldAt 4 8 0xF0, fieldAt 5 8 15, fieldAt 6 16 100, fieldAt 8 16 10, fieldAt 10 8 0x1E, fieldAt 12 32 5]) ∧
    StagesAt (fun h : Obligations.ReferenceVerbsStageReadAndClear => h.2.1) est (it [fieldAt 0 8 0x18, fieldAt 4 16 1, fieldAt 8 32 10]) ∧
    StagesAt (fun h : Obligations.ReferenceVerbsStageReadAndClear => h.2.2.1) est (it [fieldAt 0 8 0x0C]) ∧
    StagesAt (fun h : Obligations.ReferenceVerbsStageReadAndClear => h.2.2.1) est (it [fieldAt 0 8 0x58, fieldAt 4 32 500000, fieldAt 8 40 (unsigned 40 (-4000000000))]) ∧
    StagesAt (fun h : Obligations.ReferenceVerbsStageReadAndClear => h.2.2.1) est (it [fieldAt 0 8 0x0A, fieldAt 1 8 0x41, fieldAt 2 16 65535, fieldAt 4 32 1]) ∧
    StagesAt (fun h : Obligations.ReferenceVerbsStageReadAndClear => h.2.2.2.1) est (it [fieldAt 0 8 4, fieldAt 2 16 10, fieldAt 4 16 2000, fieldAt 6 32 1000, fieldAt 10 16 90]) ∧
    StagesAt (fun h : Obligations.ReferenceVerbsStageReadAndClear => h.2.2.2.2.1) est (it [fieldAt 0 16 3, fieldAt 2 8 24, fieldAt 3 8 3, fieldAt 4 8 128]) ∧
    StagesAt (fun h : Obligations.ReferenceVerbsStageReadAndClear => h.2.2.2.2.2.1) est (itX 72 []) model1 ∧
    ReadsAt (fun h : Obligations.ReferenceVerbsStageReadAndClear => h.2.2.2.2.2.2.1) est (it []) ∧
    ReadsAt (fun h : Obligations.ReferenceVerbsStageReadAndClear => h.2.2.2.2.2.2.2.1 6) est (it [pat 0 .reference 6]) ∧
    ServesAt (fun h : Obligations.ReferenceVerbsStageReadAndClear => h.2.2.2.2.2.2.2.2.1 (withRef [] fun r => { r with model := { r.model with valid := true } }).modelRecord) (withRef [] fun r => { r with model := { r.model with valid := true } }) (itX 72 []) (List.replicate 72 0) ∧
    ServesAt (fun h : Obligations.ReferenceVerbsStageReadAndClear => h.2.2.2.2.2.2.2.2.2 1) (sets (withRef [(1, { state := .wtr })]) [(.evtEnable, Ev.refAvailable.code, 1)]) (it [pat 0 .reference 1]) :=
  ⟨by decide +kernel, by decide +kernel, by decide +kernel, (by decide +kernel), by decide +kernel, by decide +kernel, by decide +kernel, (by decide +kernel), by decide +kernel, by decide +kernel, by decide +kernel, (by decide +kernel), by decide +kernel, by decide +kernel⟩

/-- Witnesses of `ReferencesFailQualifySwitchAndLock`. -/
theorem test_witness_references_fail_qualify_switch_and_lock :
    HappensAt (fun h : Obligations.ReferencesFailQualifySwitchAndLock => h.1 1 5) (sets (withRef [(1, { state := .available })]) [(.evtEnable, Ev.refFailed.code, 1)]) ∧
    HappensAt (fun h : Obligations.ReferencesFailQualifySwitchAndLock => h.2.1 1) (withRef [(1, { state := .failed, lossStart := 777 })]) ∧
    HappensAt (fun h : Obligations.ReferencesFailQualifySwitchAndLock => h.2.1 1) ({ withRef [(1, { state := .failed, lossStart := 0 })] with now := 250001 }) ∧
    HappensAt (fun h : Obligations.ReferencesFailQualifySwitchAndLock => h.2.2.1 1) (withRef [(1, { state := .qualifying, due := 900, failed := true })]) ∧
    HappensAt (fun h : Obligations.ReferencesFailQualifySwitchAndLock => h.2.2.1 1) (sets (withRef [(1, { state := .qualifying, due := 900, failed := true })]) [(.refWtr, 0, 3)]) ∧
    HappensAt (fun h : Obligations.ReferencesFailQualifySwitchAndLock => h.2.2.2.1 1) (sets (withRef [(1, { state := .wtr, due := 900 })]) [(.evtEnable, Ev.refAvailable.code, 1)]) ∧
    HappensAt (fun h : Obligations.ReferencesFailQualifySwitchAndLock => h.2.2.2.2.1 meas 1) (withRef [(1, { state := .available })]) ∧
    HappensAt (fun h : Obligations.ReferencesFailQualifySwitchAndLock => h.2.2.2.2.2.1 (-9) meas ⟨none, 1, 5⟩) (withRef [(1, { state := .available })] fun r => { r with sw := some ⟨none, 1, 5⟩, sync := .switching }) ∧
    HappensAt (fun h : Obligations.ReferencesFailQualifySwitchAndLock => h.2.2.2.2.2.2.1 100) (withRef [] fun r => { r with sync := .acquiring, goodFrom := some 100 }) ∧
    HappensAt (fun h : Obligations.ReferencesFailQualifySwitchAndLock => h.2.2.2.2.2.2.2.1 meas 0 5) ({ sets (withRef [(0, { state := .available, time := some 5 })] fun r => { r with sync := .locked, selected := some 0 }) [(.refTod, 0, 2)] with time := {} }) ∧
    HappensAt (fun h : Obligations.ReferencesFailQualifySwitchAndLock => h.2.2.2.2.2.2.2.2.1 false tod5 ⟨0, 0, 0, 0⟩ ⟨5, true⟩) (gnss none) ∧
    HappensAt (fun h : Obligations.ReferencesFailQualifySwitchAndLock => h.2.2.2.2.2.2.2.2.1 false tod5 ⟨0, 0, 0, 0⟩ ⟨5, true⟩) (gnss (some 4)) ∧
    HappensAt (fun h : Obligations.ReferencesFailQualifySwitchAndLock => h.2.2.2.2.2.2.2.2.1 false tod5 ⟨0, 0, 0, 0⟩ ⟨5, true⟩) (gnss (some 3)) ∧
    HappensAt (fun h : Obligations.ReferencesFailQualifySwitchAndLock => h.2.2.2.2.2.2.2.2.2.1 [500, 501]) (sets est [(.hoTherm, 0, 0)]) ∧
    HappensAt (fun h : Obligations.ReferencesFailQualifySwitchAndLock => h.2.2.2.2.2.2.2.2.2.2.1) (withRef [] fun r => { r with sync := .locked }) ∧
    HappensAt (fun h : Obligations.ReferencesFailQualifySwitchAndLock => h.2.2.2.2.2.2.2.2.2.2.2 (some 3) 3) (sets (powered base [.hostOut 3]) [(.portEn, 3, 1), (.portDir, 3, 2), (.ptpEn, 0, 1), (.ptpMask, 0, 8)]) :=
  (by and_intros <;> decide +kernel)

/-- Port 3, both directions of lane 3 awake, pipeline 0 awake. -/
def portDev (up : Bool) : Dev :=
  let d := sets (powered est [.hostIn 3, .hostOut 3, .pipe 0]) [(.portEn, 3, 1), (.portDir, 3, 3), (.portMax, 3, 1518)]
  { d with lane := { d.lane with lanes := [(3, { locked := true })], ports := [(3, { up := up })] } }

/-- A stitch lane's state and the receiver's. -/
def stitchDev (x : StitchSt) : Dev :=
  let d := powered est ((List.range 8).map fun n => .stIn n)
  { d with lane := { d.lane with lanes := (List.range 8).map fun n => (16 + n, { locked := true }), stitch := x } }

/-- 4,596 bytes of a stitch overhead, and the whole. -/
def sohBody : List Byte := List.replicate 4596 0
def stitchFrame1 : StitchFrame := ⟨sohBody ++ beBytes 4 (crc32 sohBody), [5], 0, [], []⟩

theorem crc32_append {k : Nat} (b : List Byte) (hb : b.length = k) :
    (b ++ beBytes 4 (crc32 b)).length = k + 4 ∧
      crc32 ((b ++ beBytes 4 (crc32 b)).take k) = beNat ((b ++ beBytes 4 (crc32 b)).drop k) := by
  refine ⟨by rw [List.length_append, beBytes_length, hb], ?_⟩
  rw [← hb, List.take_left, List.drop_left, beNat_beBytes]
  have hx : ∀ x : Nat, x < 2 ^ 32 → x % 256 ^ 4 = x := fun x h => Nat.mod_eq_of_lt h
  exact (hx _ (crc32_lt b)).symm

/-- A stitch frame whose overhead fails its check. -/
def stitchFrame0 : StitchFrame := ⟨[1], [5], 0, [], []⟩

/-- The good marker of lane 7, and none. -/
def marker7 : Marker := ⟨markerBytes 7 255 16777215, 6249⟩
def marker0 : Marker := ⟨[], 0⟩

/-- A host frame of 64 bytes, its FCS right or not. -/
def hostFrame (good : Bool) : HostFrame :=
  let b : List Byte := List.replicate 60 9
  ⟨3, if good then b ++ fcs b else b ++ [1, 2, 3, 4], 700, 0, 0, 0, [], []⟩

/-- A packet held for its verification, and one in queue 9 of port 3. -/
def held1 (good : Bool) : HeldPkt := ⟨false, .port 3, 1, 0, 5, {}, { frame := List.replicate 64 9 }, 0, 0, good⟩
def queued1 : QPkt := ⟨{ frame := List.replicate 64 9 }, false⟩
def queueDev : Dev :=
  let d := sets (portDev true) [(.qEn, 9, 1), (.qKind, 9, 1), (.qDest, 9, 3), (.qWeight, 9, 1), (.qPrio, 9, 7)]
  { d with pkt := { d.pkt with queues := [(9, { on := true, items := [queued1] })] } }

/-- A service slot of port 3. -/
def slot3 : ServiceSlot := ⟨1, 3, 1000, 0, 0, none, false⟩

/-- A generation with one profile and one entry of flow 4. -/
def gen1 : RuleGen := { gen := 3, prof := [(2, some ⟨0, false, 0, false, [⟨0, 2, 0⟩], false, 0⟩)], table := [⟨false, 2, List.replicate 48 0, 4⟩] }

/-- The device whose rules are those. -/
def ruleDev : Dev := { est with pkt := { active := gen1 } }

/-- A record of CLASS.BULK: an entry of flow 6. -/
def bulk1 : List Byte := leBytes 80 (6 + 2 * 2 ^ 24 + 7 * 2 ^ 32)

/-- Witnesses of `LaneVerbsStageAndRead`. -/
theorem test_witness_lane_verbs_stage_and_read :
    StagesAt (fun h : Obligations.LaneVerbsStageAndRead => h.1) (portDev true) (it [fieldAt 0 8 3, fieldAt 1 8 0xE0, fieldAt 2 16 16383]) ∧
    StagesAt (fun h : Obligations.LaneVerbsStageAndRead => h.2.1) est (it [pat 0 .stitchLane 7, fieldAt 4 8 1, fieldAt 5 8 40, fieldAt 6 8 0xF0, fieldAt 7 8 0xE0, fieldAt 8 8 0xE0]) ∧
    StagesAt (fun h : Obligations.LaneVerbsStageAndRead => h.2.2.1) (portDev true) (it [pat 0 .hostLane 3, fieldAt 4 8 3]) ∧
    StagesAt (fun h : Obligations.LaneVerbsStageAndRead => h.2.2.2.1) (sets (powered est ((List.range 8).flatMap fun n => [.stIn n, .stOut n])) [(.stitchUse, 0, 1)]) (it [fieldAt 0 8 1]) ∧
    ReadsAt (fun h : Obligations.LaneVerbsStageAndRead => h.2.2.2.2.1 3) (portDev true) (it [pat 0 .hostLane 3]) ∧
    ReadsAt (fun h : Obligations.LaneVerbsStageAndRead => h.2.2.2.2.1 23) (stitchDev {}) (it [pat 0 .stitchLane 7]) ∧
    ReadsAt (fun h : Obligations.LaneVerbsStageAndRead => h.2.2.2.2.2.1 3) (portDev true) (it [pat 0 .port 3]) ∧
    ReadsAt (fun h : Obligations.LaneVerbsStageAndRead => h.2.2.2.2.2.2) (stitchDev {}) (it []) :=
  ⟨⟨by decide +kernel, ⟨1, by decide +kernel⟩, by decide +kernel⟩, by decide +kernel, by decide +kernel, by decide +kernel, (by decide +kernel), by decide +kernel, ⟨by decide +kernel, by decide +kernel, ⟨3, by decide +kernel⟩⟩, ⟨by decide +kernel, ⟨7, by decide +kernel⟩⟩⟩

/-- Witnesses of `LanesPortsAndTheStitchReceiver`. -/
theorem test_witness_lanes_ports_and_the_stitch_receiver :
    HappensAt (fun h : Obligations.LanesPortsAndTheStitchReceiver => h.1 23 900) (let d := stitchDev {}; { d with lane := {} }) ∧
    HappensAt (fun h : Obligations.LanesPortsAndTheStitchReceiver => h.2.1 23) (stitchDev { state := .up }) ∧
    HappensAt (fun h : Obligations.LanesPortsAndTheStitchReceiver => h.2.2.1 3) (portDev false) ∧
    HappensAt (fun h : Obligations.LanesPortsAndTheStitchReceiver => h.2.2.2.1 3 3) (portDev true) ∧
    HappensAt (fun h : Obligations.LanesPortsAndTheStitchReceiver => h.2.2.2.2.1 7 marker7 marker7) (stitchDev { marks := [(7, { good := 1 })] }) ∧
    HappensAt (fun h : Obligations.LanesPortsAndTheStitchReceiver => h.2.2.2.2.2.1 7 marker0 marker0) (stitchDev { state := .up, marks := [(7, { bad := 2, locked := true })] }) ∧
    HappensAt (fun h : Obligations.LanesPortsAndTheStitchReceiver => h.2.2.2.2.2.2.1 stitchFrame1 stitchFrame1) (stitchDev { state := .aligning, good := 1 }) ∧
    HappensAt (fun h : Obligations.LanesPortsAndTheStitchReceiver => h.2.2.2.2.2.2.2.1 stitchFrame0 stitchFrame0) (stitchDev { state := .up, bad := 6 }) ∧
    HappensAt (fun h : Obligations.LanesPortsAndTheStitchReceiver => h.2.2.2.2.2.2.2.2.1 stitchFrame0 stitchFrame0) (stitchDev { state := .aligning, good := 1, frames := 7 }) ∧
    HappensAt (fun h : Obligations.LanesPortsAndTheStitchReceiver => h.2.2.2.2.2.2.2.2.2 stitchFrame0 stitchFrame0) (stitchDev { state := .up, bad := 7 }) :=
  ⟨by decide +kernel, by decide +kernel, by decide +kernel, (by decide +kernel), by decide +kernel, by decide +kernel, ⟨by decide +kernel, by decide +kernel, rfl, by decide +kernel, by decide +kernel, (crc32_append sohBody (List.length_replicate ..)).1, (crc32_append sohBody (List.length_replicate ..)).2⟩, by decide +kernel, by decide +kernel, by decide +kernel⟩

/-- Witnesses of `FramesPassTheEngineAndQueues`. -/
theorem test_witness_frames_pass_the_engine_and_queues :
    HappensAt (fun h : Obligations.FramesPassTheEngineAndQueues => h.1 (hostFrame false) (hostFrame false) {}) (portDev true) ∧
    HappensAt (fun h : Obligations.FramesPassTheEngineAndQueues => h.2.1 (hostFrame true) (hostFrame true) {}) (portDev true) ∧
    HappensAt (fun h : Obligations.FramesPassTheEngineAndQueues => h.2.2.1 {} (held1 false) []) (let d := portDev true; { d with pkt := { held := [held1 false] } }) ∧
    HappensAt (fun h : Obligations.FramesPassTheEngineAndQueues => h.2.2.1 {} (held1 true) []) (let d := portDev true; { d with pkt := { held := [held1 true] } }) ∧
    HappensAt (fun h : Obligations.FramesPassTheEngineAndQueues => h.2.2.2.1 slot3 9 queued1 [] ((((queueDev).choose 1 3).map (·.2)).getD queueDev)) queueDev ∧
    HappensAt (fun h : Obligations.FramesPassTheEngineAndQueues => h.2.2.2.2 gen1) (let d := portDev true; { sets d [(.evtEnable, Ev.classGenRetired.code, 1)] with pkt := { former := some gen1 } }) :=
  (by and_intros <;> decide +kernel)

/-- Witnesses of `RuleClassifierAndQueueVerbs`. -/
theorem test_witness_rule_classifier_and_queue_verbs :
    ServesAt (fun h : Obligations.RuleClassifierAndQueueVerbs => h.1.1 gen1 { gen1 with prof := gen1.prof.set (fun _ => none) 63 (some ⟨1, true, 2, true, [], true, 9⟩) } _ _ _ (List.mem_of_getElem? (i := 0) rfl)) ruleDev (it [fieldAt 0 8 0x7F, fieldAt 1 8 0x35, fieldAt 3 8 1, fieldAt 4 16 9]) ∧
    ServesAt (fun h : Obligations.RuleClassifierAndQueueVerbs => h.1.1 gen1 { gen1 with sel := [(63, some ⟨true, 2, 1, 63, 0x800, 0xFFFF, 0xFF⟩)] } _ _ _ (List.mem_of_getElem? (i := 1) rfl)) ruleDev (it [fieldAt 0 8 0xFF, fieldAt 1 8 6, fieldAt 2 8 63, fieldAt 4 16 0x800, fieldAt 6 16 0xFFFF, fieldAt 8 16 0xFF]) ∧
    ServesAt (fun h : Obligations.RuleClassifierAndQueueVerbs => h.1.1 gen1 { gen1 with tpid3 := 5, ecpriPort := 6 } _ _ _ (List.mem_of_getElem? (i := 2) rfl)) ruleDev (it [fieldAt 0 16 5, fieldAt 2 16 6]) ∧
    ServesAt (fun h : Obligations.RuleClassifierAndQueueVerbs => h.1.1 gen1 { gen1 with table := [] } _ _ _ (List.mem_of_getElem? (i := 3) rfl)) ruleDev (it [fieldAt 0 16 4]) ∧
    ServesAt (fun h : Obligations.RuleClassifierAndQueueVerbs => h.1.1 gen1 { gen1 with acts := gen1.acts.set (fun _ => {}) 4 (actOf (5 + 2 * 2 ^ 14)) } _ _ _ (List.mem_of_getElem? (i := 4) rfl)) ruleDev (it [fieldAt 0 16 4, fieldAt 2 16 0x8005]) ∧
    ServesAt (fun h : Obligations.RuleClassifierAndQueueVerbs => h.1.1 gen1 { gen1 with express := gen1.express.set (fun _ => none) 511 (some ⟨2, 4, List.replicate 8 1, List.replicate 8 1⟩) } _ _ _ (List.mem_of_getElem? (i := 5) rfl)) ruleDev (it [fieldAt 0 8 255, fieldAt 1 8 3, fieldAt 2 8 2, fieldAt 4 16 4, fieldAt 8 64 0x0101010101010101, fieldAt 16 64 0x0101010101010101]) ∧
    ServesAt (fun h : Obligations.RuleClassifierAndQueueVerbs => h.1.1 gen1 { gen1 with exc := gen1.exc.set (fun _ => none) 13 (some 16383) } _ _ _ (List.mem_of_getElem? (i := 6) rfl)) ruleDev (it [fieldAt 0 8 0x85, fieldAt 1 8 1, fieldAt 2 16 16383]) ∧
    ServesAt (fun h : Obligations.RuleClassifierAndQueueVerbs => h.1.1 gen1 {} _ _ _ (List.mem_of_getElem? (i := 7) rfl)) ruleDev (it []) ∧
    ServesAt (fun h : Obligations.RuleClassifierAndQueueVerbs => h.1.2.1 gen1) ruleDev (it [fieldAt 0 16 5, fieldAt 3 8 2, fieldAt 4 16 7]) ∧
    ServesAt (fun h : Obligations.RuleClassifierAndQueueVerbs => h.1.2.2 gen1 { gen1 with table := gen1.table ++ [⟨false, 2, leBytes 48 7, 6⟩] }) ruleDev (itX 80 []) bulk1 ∧
    ReadsAt (fun h : Obligations.RuleClassifierAndQueueVerbs => h.2.1) ruleDev (it []) ∧
    ReadsAt (fun h : Obligations.RuleClassifierAndQueueVerbs => h.2.2.1) ruleDev (it [fieldAt 0 16 5]) ∧
    ReadsAt (fun h : Obligations.RuleClassifierAndQueueVerbs => h.2.2.2.1 7) ruleDev (it [pat 0 .pipeline 7]) ∧
    ReadsAt (fun h : Obligations.RuleClassifierAndQueueVerbs => h.2.2.2.2.1 9) queueDev (it [pat 0 .queue 9]) ∧
    StagesAt (fun h : Obligations.RuleClassifierAndQueueVerbs => h.2.2.2.2.2) queueDev (it [pat 0 .queue 16383, fieldAt 4 8 0xF1, fieldAt 5 8 255, fieldAt 6 16 0x3FF, fieldAt 8 32 33554432, fieldAt 12 16 4096, fieldAt 14 8 100]) ∧
    StagesAt (fun h : Obligations.RuleClassifierAndQueueVerbs => h.2.2.2.2.2) queueDev (it [pat 0 .queue 16383, fieldAt 4 8 0xEB, fieldAt 5 8 255, fieldAt 6 16 15, fieldAt 8 32 1, fieldAt 14 8 1]) :=
  ⟨⟨by decide +kernel, rfl, by decide +kernel, by decide +kernel⟩, ⟨by decide +kernel, rfl, by decide +kernel, by decide +kernel⟩, ⟨by decide +kernel, rfl, by decide +kernel, by decide +kernel⟩, ⟨by decide +kernel, rfl, by decide +kernel, ⟨⟨false, 2, List.replicate 48 0, 4⟩, by decide +kernel⟩, by decide +kernel⟩, ⟨by decide +kernel, rfl, by decide +kernel, by decide +kernel⟩, ⟨by decide +kernel, rfl, by decide +kernel, by decide +kernel⟩, ⟨by decide +kernel, rfl, by decide +kernel, by decide +kernel⟩, ⟨by decide +kernel, rfl, by decide +kernel, by decide +kernel⟩, ⟨by decide +kernel, rfl, by decide +kernel, ⟨⟨0, false, 0, false, [⟨0, 2, 0⟩], false, 0⟩, by decide +kernel⟩, by decide +kernel, by decide +kernel⟩, ⟨by decide +kernel, rfl, by decide +kernel, by decide +kernel, ok_of (by decide +kernel)⟩, by and_intros <;> decide +kernel⟩

/-- Stack 0 awake with region 2 of 6 MiB at 8 MiB, and the on-die store 7. -/
def memDev : Dev := sets (powered est [.hbm 0])
  [(.budget, 0, 5000), (.rgEn, 2, 1), (.rgBase, 2, 8), (.rgSize, 2, 6), (.scrubEn, 0, 1), (.scrubPeriod, 0, 60), (.scrubEn, 9, 1),
   (.scrubPeriod, 9, 60), (.bwMaint, 0, 4), (.evtEnable, Ev.memRemapped.code, 1)]

/-- With lines of region 2 stored: line 0 holds 5, line 1 cannot be corrected. -/
def memLines : Dev := { memDev with mem := { lines := [(131072, some ⟨5, .own⟩), (131073, some ⟨6, .bad⟩)], filled := [2] } }

/-- A fill of region 2, its burst in progress. -/
def fill2 : FillSt := ⟨2, 77, 8, 14, 0, 1, 7, some 700⟩

/-- The same with a fill and with stack 0's memory as given. -/
def filling : Dev := { memDev with mem := { fill := some fill2 } }
def mem0 (f : MemSt) : Dev := { memDev with mem := { filled := [2], mems := [(0, f)] } }

/-- A stack's scrub burst with leave. -/
def scrubRes : Dev := { mem0 { running := true, waiting := true, burst := 4095 } with power := { memDev.power with held := [⟨.scrub 0, 300, 700⟩] } }

/-- Witnesses of `MemoryVerbsAndAccesses`. -/
theorem test_witness_memory_verbs_and_accesses :
    StagesAt (fun h : Obligations.MemoryVerbsAndAccesses => h.1.1) memDev (it [fieldAt 0 8 0x23, fieldAt 1 8 1, fieldAt 4 16 100, fieldAt 8 16 16]) ∧
    StagesAt (fun h : Obligations.MemoryVerbsAndAccesses => h.1.1) memDev (it [fieldAt 0 8 0x5F, fieldAt 1 8 0, fieldAt 4 16 16382, fieldAt 8 16 1]) ∧
    StagesAt (fun h : Obligations.MemoryVerbsAndAccesses => h.1.2.1) memDev (it [fieldAt 0 16 1100, fieldAt 8 16 200]) ∧
    StagesAt (fun h : Obligations.MemoryVerbsAndAccesses => h.1.2.2.1) memDev (it [pat 0 .sram 7, fieldAt 4 16 10080, fieldAt 6 8 3]) ∧
    StagesAt (fun h : Obligations.MemoryVerbsAndAccesses => h.1.2.2.2.1) memDev (it [pat 0 .hbm 1, fieldAt 4 8 0x8F, fieldAt 8 64 (2 ^ 35 - 64)]) ∧
    StagesAt (fun h : Obligations.MemoryVerbsAndAccesses => h.1.2.2.2.1) memDev (it [pat 0 .sram 7, fieldAt 4 8 0x87, fieldAt 8 64 (4 * 131072 - 1)]) ∧
    ServesAt (fun h : Obligations.MemoryVerbsAndAccesses => h.1.2.2.2.2.1) memLines (it [fieldAt 0 8 2, fieldAt 8 64 (2 ^ 64 - 1)]) ∧
    ServesAt (fun h : Obligations.MemoryVerbsAndAccesses => h.1.2.2.2.2.2.1 0 ⟨0, false, .hbm, 0⟩) memLines (itX 68 [pat 16 .hbm 0, fieldAt 20 64 (64 * 131073)]) (List.replicate 68 1) ∧
    ServesAt (fun h : Obligations.MemoryVerbsAndAccesses => h.1.2.2.2.2.2.2.1 7 ⟨0, false, .sram, 7⟩) memLines (itX 9 [pat 16 .sram 7, fieldAt 20 64 7]) (List.replicate 9 1) ∧
    ReadsAt (fun h : Obligations.MemoryVerbsAndAccesses => h.1.2.2.2.2.2.2.2.1 0) memDev (it [pat 0 .hbm 0]) ∧
    ReadsAt (fun h : Obligations.MemoryVerbsAndAccesses => h.1.2.2.2.2.2.2.2.1 9) memDev (it [pat 0 .sram 7]) ∧
    Hyp1 (fun h : Obligations.MemoryVerbsAndAccesses => h.1.2.2.2.2.2.2.2.2 (hc []) (waiting memDev (it [] verbMemStatus) memDev) 0 ⟨it [] verbMemStatus, false⟩) ∧
    ServesAt (fun h : Obligations.MemoryVerbsAndAccesses => h.2.1) memLines (itX 64 [fieldAt 16 64 (64 * 131072), fieldAt 24 32 64]) (List.replicate 64 0) ∧
    ServesAt (fun h : Obligations.MemoryVerbsAndAccesses => h.2.2.1) memLines (itX 64 [fieldAt 16 64 (64 * 131073)]) (List.replicate 64 9) ∧
    ServesAt (fun h : Obligations.MemoryVerbsAndAccesses => h.2.2.2.1 5) memLines (itX 1 [fieldAt 16 64 (64 * 131072 + 63)]) [9] ∧
    ServesAt (fun h : Obligations.MemoryVerbsAndAccesses => h.2.2.2.2 6) memLines (itX 1 [fieldAt 16 64 (64 * 131073)]) [9] :=
  ⟨by decide +kernel, by decide +kernel, by decide +kernel, (by decide +kernel), by decide +kernel, by decide +kernel, by decide +kernel, ⟨by decide +kernel, by decide +kernel, by decide +kernel, (by decide +kernel), by decide +kernel, by decide +kernel, by decide +kernel, ⟨2, by decide +kernel⟩, by decide +kernel⟩, by decide +kernel, by decide +kernel, by decide +kernel, ready_of_readyB (by decide +kernel), ⟨by decide +kernel, by decide +kernel, by decide +kernel, (by decide +kernel), by decide +kernel, fun n h => ⟨5, by have h0 : n < 1 := Nat.lt_of_lt_of_eq h (by decide +kernel); (obtain rfl : n = 0 := by omega); decide +kernel⟩⟩, by decide +kernel, by decide +kernel, by decide +kernel⟩

/-- Witnesses of `FillsScrubsAndRemapsGoOn`. -/
theorem test_witness_fills_scrubs_and_remaps_go_on :
    HappensAt (fun h : Obligations.FillsScrubsAndRemapsGoOn => h.1 fill2) filling ∧
    HappensAt (fun h : Obligations.FillsScrubsAndRemapsGoOn => h.1 { fill2 with next := 12 }) { memDev with mem := { fill := some { fill2 with next := 12 } } } ∧
    HappensAt (fun h : Obligations.FillsScrubsAndRemapsGoOn => h.2.1 0) (mem0 { burst := 2 }) ∧
    HappensAt (fun h : Obligations.FillsScrubsAndRemapsGoOn => h.2.2.1 0 ⟨.scrub 0, 300, 700⟩) scrubRes ∧
    HappensAt (fun h : Obligations.FillsScrubsAndRemapsGoOn => h.2.2.2.1 9) memDev ∧
    HappensAt (fun h : Obligations.FillsScrubsAndRemapsGoOn => h.2.2.2.2 0 15 ⟨131072, false⟩) (mem0 { remap := [(15, some ⟨131072, false⟩)] }) :=
  (by and_intros <;> decide +kernel)

/-- Context 5 encrypts with keys, context 6 is quarantined; a root key is in force. -/
def cryptDev : Dev := { sets (powered est [.cipher 2]) [(.cValid, 5, 1), (.evtEnable, Ev.thimbleAlarm.code, 1), (.evtEnable, Ev.thimbleCleared.code, 1),
    (.authThresh, 0, 10), (.budget, 0, 5000)] with
  otp := { inForce := [some 0, some 0] },
  crypt := { keks := true, ctxs := [(5, { slots := [(1, { state := .loaded, order := 1 }), (2, { state := .active, order := 2 })], loads := 2, holds := [(900, 2)] }), (6, { quarantined := true })] } }

/-- The key-encryption key 0 of `cryptDev`. -/
def kek0 : List Byte := hmacSha256 (cryptDev.otp.payload 1 0) (ascii "IMF-KEK" ++ [0] ++ cryptDev.otp.identity)

theorem kek0_length : kek0.length = 4 * 8 := by
  unfold kek0 hmacSha256
  exact sha256_length _

theorem kek_of {d : Dev} {root : List Byte} (h1 : d.crypt.keks = true) (h2 : d.otp.inForcePayload 1 = some root) (i : Nat) :
    d.kek i = some (hmacSha256 root (ascii "IMF-KEK" ++ [BitVec.ofNat 8 i] ++ d.otp.identity)) := by
  rw [Dev.kek, h1, h2]; rfl

theorem kek0_eq : cryptDev.kek 0 = some kek0 := kek_of rfl rfl 0

/-- A key of 32 bytes, wrapped. -/
def credKey1 : List Byte := List.replicate 32 7
def credWrap1 : List Byte := kwWrap kek0 credKey1

theorem unwrap_cred : kwUnwrap kek0 credWrap1 = some credKey1 := kwUnwrap_kwWrap kek0_length (by decide) (n := 4) rfl (by decide)
theorem cred_length : credWrap1.length = 40 := kwWrap_length kek0_length (by decide) (n := 4) rfl (by decide)

/-- SESSION.CRED_SET of role 3 with that key; the same with the wrapped key as given. -/
def credItem (w : Nat) : Item :=
  BitVec.ofNat 512 (pack ([fieldAt 2 16 7, fieldAt 4 16 0x0106, fieldAt 6 16 42, fieldAt 8 8 3] ++ [⟨80, 320, w⟩]))

theorem credItem_field {w : Nat} {o lo wd : Nat} (h : 8 * o + lo + wd ≤ 80) : Item.field (credItem w) o lo wd = Item.field (credItem 0) o lo wd := by
  have : ∀ w, (credItem w).toNat % 2 ^ 80 = (credItem 0).toNat % 2 ^ 80 := fun w => by
    simp only [credItem, pack, BitVec.toNat_ofNat, List.cons_append, List.nil_append]
    omega
  rw [Item.field, Item.field, ← bits_mod _ h, this, bits_mod _ h]

theorem cred_check {c : Call} {d : Dev} (hr : c.role = .privileged) (x : c.ext = false) (l : Item.field c.item 6 0 16 = 42)
    (p1 : c.p 0 0 8 = 3) (p2 : c.p 1 4 4 = 0) :
    verbSessionCredSet.check c d = none ∧ verbSessionCredSet.remotes c d = [] := by
  have b : verbSessionCredSet.params.any (fun p => p.badCode verbSessionCredSet.groups c) = false := by
    show (Param.badCode ⟨0, 0, 8, .enum [1, 2, 3]⟩ false c || (Param.badCode ⟨1, 4, 4, .rsv⟩ false c || false)) = false
    simp only [Param.badCode, p1, p2]; rfl
  have o : verbSessionCredSet.params.any (fun p => p.outOfRange c) = false := rfl
  have g : verbSessionCredSet.gapSet c = false := rfl
  have pt : verbSessionCredSet.patches c = [] := rfl
  have re : verbSessionCredSet.remotes c d = [] := by rw [Verb.remotes, pt]; rfl
  have ro : verbSessionCredSet.roleOf c = .privileged := rfl
  have cp : verbSessionCredSet.checkParams c 42 = none := by
    have w : verbSessionCredSet.ext.wrong c = false := x
    simp only [Verb.checkParams, Verb.badForm, b, o, g, x, w]; rfl
  refine ⟨?_, re⟩
  simp only [Verb.check, ro, hr, l, cp, re, x, Nat.lt_irrefl, decide_false, Bool.and_false, Bool.false_and, List.any_nil]
  rfl

abbrev credState (w : Nat) : State := waiting cryptDev (credItem w) cryptDev
abbrev credEntry (w : Nat) : CmdEntry := ⟨credItem w, false⟩

theorem next_only {d : Dev} {s : Slot} {e : CmdEntry} (hb : d.boot.stage = 2) (hl : d.ctl.lastServed = 7) (hd : d.ctl.slots = [(0, s)])
    (hs : s.nextCmd = some (0, e)) : d.nextCmd = some (0, 0, e) := by
  have h0 : d.slot 0 = s := by rw [Dev.slot, hd]; rfl
  have hn : ∀ n, n ≠ 0 → (d.slot n).nextCmd = none := fun n hn => by
    have : d.slot n = {} := by
      rw [Dev.slot, hd]
      simp [Tab.get, Ne.symm hn]
    rw [this]; rfl
  have ho : (List.range 8).map (fun k => (7 + 1 + k) % 8) = [0, 1, 2, 3, 4, 5, 6, 7] := by decide
  unfold Dev.nextCmd
  simp only [hb, hl, ho, List.filterMap_cons, List.filterMap_nil, h0, hs, hn 1 (by decide), hn 2 (by decide), hn 3 (by decide),
    hn 4 (by decide), hn 5 (by decide), hn 6 (by decide), hn 7 (by decide), Option.map_none, Option.map_some, List.foldl_cons, List.foldl_nil,
    Nat.zero_max, List.find?_cons, beq_self_eq_true]
  rfl

theorem cred_ready (w : Nat) : readyB verbSessionCredSet (hc []) (credState w) (credEntry w) = true := by
  have f : ∀ {o lo wd : Nat}, 8 * o + lo + wd ≤ 80 → ∀ v, Item.field (credItem 0) o lo wd = v → Item.field (credItem w) o lo wd = v :=
    fun h v e => (credItem_field h).trans e
  have prio : Item.prio (credItem w) = 0 := f (by decide) 0 (by decide +kernel)
  have code : Item.code (credItem w) = 0x0106 := f (by decide) _ (by decide +kernel)
  have f1 : Item.field (credItem w) 0 0 8 = 0 := f (by decide) _ (by decide +kernel)
  have f2 : Item.field (credItem w) 1 3 5 = 0 := f (by decide) _ (by decide +kernel)
  have f3 : Item.field (credItem w) 6 0 16 = 42 := f (by decide) _ (by decide +kernel)
  have f4 : Item.field (credItem w) 1 2 1 = 0 := f (by decide) _ (by decide +kernel)
  have f5 : Item.field (credItem w) 8 0 8 = 3 := f (by decide) _ (by decide +kernel)
  have f6 : Item.field (credItem w) 9 4 4 = 0 := f (by decide) _ (by decide +kernel)
  have next : (credState w).dev.nextCmd = some (0, 0, (credEntry w)) := by
    refine next_only (s := { cryptDev.slot 0 with cmds := [(credEntry w)] }) rfl rfl rfl ?_
    simp only [Slot.nextCmd, List.foldl_cons, List.foldl_nil, prio, List.findIdx_cons]
    rfl
  have head : ((credState w).taken 0 0).checkHeader 0 (credEntry w) = none := by
    have hr : ((credState w).taken 0 0).slotRefuses 0 0x0106 = false := rfl
    simp only [Dev.checkHeader, CmdEntry.badHeader, f1, f2, f3, f4, code, hr]
    rfl
  have x : (verbSessionCredSet.callOf (hc []) (credState w) (credEntry w)).ext = false := by simp only [Verb.callOf, Verb.call, f4]; rfl
  obtain ⟨chk, near⟩ := cred_check (c := verbSessionCredSet.callOf (hc []) (credState w) (credEntry w)) (d := (credState w).taken 0 0) rfl x f3 f5 f6
  simp only [readyB, next, chk, near, head, code, decide_true, Bool.and_true]
  rfl

theorem cred_inline {w : Nat} (hw : w < 2 ^ 320) :
    (verbSessionCredSet.callOf (hc []) (credState w) (credEntry w)).inline 2 40 = leBytes 40 w := by
  have x : (verbSessionCredSet.callOf (hc []) (credState w) (credEntry w)).base = 0 := rfl
  have hb : bits (credItem w).toNat 80 320 = w := by
    simp only [credItem, BitVec.toNat_ofNat]
    have hp := bits_pack (l := [fieldAt 2 16 7, fieldAt 4 16 0x0106, fieldAt 6 16 42, fieldAt 8 8 3] ++ [⟨80, 320, w⟩])
      (by simp [fieldAt, Bf.apart]) (f := ⟨80, 320, w⟩) (by simp)
    rw [bits_mod (lo := 80) (w := 320) (n := 512) _ (by omega)]
    dsimp only at hp
    rw [Nat.mod_eq_of_lt hw] at hp
    exact hp
  rw [Call.inline, x]
  exact congrArg (leBytes 40) hb

theorem cred_ok (c : Call) (d : Dev) (h1 : c.p 1 0 4 = 0) (h2 : c.inline 2 40 = credWrap1) (h3 : d.kek 0 = some kek0) :
    d.kek (c.p 1 0 4) = some kek0 ∧ kwUnwrap kek0 (c.inline 2 40) = some credKey1 := by
  rw [h1, h2]; exact ⟨h3, unwrap_cred⟩

theorem cred_kek (w : Nat) : ((credState w).taken 0 0).kek 0 = some kek0 := kek_of rfl rfl 0

theorem cred_p (w : Nat) : (verbSessionCredSet.callOf (hc []) (credState w) (credEntry w)).p 1 0 4 = 0 := by
  have : Item.field (credItem w) 9 0 4 = 0 := (credItem_field (by decide)).trans (by decide +kernel)
  exact this

theorem cred_room (w : Nat) (c : Call) (key : List Byte) (h : c.slot = 0) :
    ((credState w).taken 0 0).canStage c.slot [(⟨.device, 0⟩, [fv .credSet (c.p 0 0 8) 1 8, fv .credKey (c.p 0 0 8) (beNat key) 256])] := by
  rw [h]; rfl

theorem cred_stages (w : Nat) (hw : w < 2 ^ 320) (hl : leBytes 40 w = credWrap1) :
    StagesAt (fun h : Obligations.CryptoVerbsStageActAndRead => h.1.2.2.2.2.2 kek0 credKey1) cryptDev (fun _ => credItem w) :=
  ⟨cred_ready w, cred_ok _ _ (cred_p w) ((cred_inline hw).trans hl) (cred_kek w), cred_room w _ _ rfl⟩

theorem cred_stages1 :
    StagesAt (fun h : Obligations.CryptoVerbsStageActAndRead => h.1.2.2.2.2.2 kek0 credKey1) cryptDev (fun _ => credItem (leNat credWrap1)) :=
  cred_stages _ (Nat.lt_of_lt_of_eq (leNat_bytes cred_length).1 (by decide +kernel)) (leNat_bytes cred_length).2

/-! ### A record of CRYPT.KEY_LOAD: context 5, AN 3, an AES-128 key -/

/-- The first 24 bytes of the record, and the key data. -/
def keyHead : Nat := pack [fieldAt 0 16 5, fieldAt 2 2 3, fieldAt 8 64 1, fieldAt 16 64 9]
def keyData : List Byte := List.replicate 16 7 ++ List.replicate 4 3 ++ List.replicate 12 0

/-- The record with its wrapped key, the buffer that holds it, and the field it stages. -/
def keyRec (w : List Byte) : List Byte := leBytes 24 keyHead ++ (w ++ List.replicate 32 0)
def keyCall (w : List Byte) : HostCall := ⟨0, [BitVec.ofNat 128 (0x1000 + 96 * 2 ^ 64)], keyRec w⟩
def keyField (w : List Byte) : FieldVal :=
  ⟨.keyLoad, 23, keyVal ⟨5, 3, false, false, 0, 0, 1, 9, w⟩ (List.replicate 16 7) (List.replicate 4 3 ++ List.replicate 8 0), 0⟩

theorem keyRec_read {w : List Byte} (hw : w.length = 40) : KeyRec.read (keyRec w) = some ⟨5, 3, false, false, 0, 0, 1, 9, w⟩ := by
  have h24 : (leBytes 24 keyHead).length = 24 := leBytes_length _ _
  have hv : leNat (keyRec w) = keyHead + 2 ^ 192 * leNat (w ++ List.replicate 32 0) := by
    rw [keyRec, leNat_append, h24, leNat_leBytes]
    rw [show keyHead % 256 ^ 24 = keyHead by decide +kernel]
  have hz : leNat (keyRec w) < 2 ^ 512 := by
    have z : leNat (List.replicate 32 0) = 0 := by decide +kernel
    have l := leNat_lt (leBytes 24 keyHead ++ w)
    rw [keyRec, ← List.append_assoc, leNat_append, z, Nat.mul_zero, Nat.add_zero]
    rw [List.length_append, h24, hw] at l
    exact Nat.lt_of_lt_of_eq l (by decide +kernel)
  have low : ∀ lo n, lo + n ≤ 192 → bits (leNat (keyRec w)) lo n = bits keyHead lo n := fun lo n h => by rw [hv, bits_low _ _ h]
  have high : ∀ lo n, 512 ≤ lo → bits (leNat (keyRec w)) lo n = 0 := fun lo n h => by
    rw [bits, Nat.div_eq_of_lt (Nat.lt_of_lt_of_le hz (Nat.pow_le_pow_right (by decide) h)), Nat.zero_mod]
  have lowb : ∀ n, n + 1 ≤ 192 → bit (leNat (keyRec w)) n = bit keyHead n := fun n h => by rw [bit, low _ _ h, bit]
  have hs : slice (keyRec w) 24 40 = w := by
    rw [slice, keyRec]
    have a := List.drop_left (l₁ := leBytes 24 keyHead) (l₂ := w ++ List.replicate 32 0)
    rw [h24] at a
    have b := List.take_left (l₁ := w) (l₂ := List.replicate 32 (0 : Byte))
    rw [hw] at b
    rw [a, b]
  have e : bit keyHead 19 = false := by decide +kernel
  simp only [KeyRec.read, low _ _ (show 0 + 16 ≤ 192 by omega), low _ _ (show 16 + 2 ≤ 192 by omega), low _ _ (show 20 + 4 ≤ 192 by omega),
    low _ _ (show 32 + 32 ≤ 192 by omega), low _ _ (show 64 + 64 ≤ 192 by omega), low _ _ (show 128 + 64 ≤ 192 by omega),
    low _ _ (show 24 + 8 ≤ 192 by omega), lowb 18 (by omega), lowb 19 (by omega), high 640 128 (by omega), high 512 128 (by omega), e,
    if_neg Bool.false_ne_true, hs]
  rfl

theorem keyRec_length {w : List Byte} (hw : w.length = 40) : (keyRec w).length = 96 * 1 := by
  rw [keyRec, List.length_append, List.length_append, leBytes_length, hw, List.length_replicate]

theorem key_ok (c : Call) (d : Dev) (w : List Byte) (hw : w.length = 40) (hb : c.bytes = keyRec w) (he : c.extLen = 96)
    (ha : d.crypt.alarm = false) (hr : d.otp.hasRoot = true) (hk : d.kek 0 = some kek0) (hu : kwUnwrap kek0 w = some keyData)
    (h1 : d.seen c.slot .cRole 5 = 0) (h2 : d.seen c.slot .cFormat 5 = 0) (h3 : ((d.ctx 5).slot 3).state = .empty) :
    let l := (chunks 96 (c.bytes.length / 96) c.bytes).map KeyRec.read
    c.extLen % 96 = 0 ∧ c.extLen / 96 ≤ 64 ∧ d.crypt.alarm = false ∧ d.otp.hasRoot = true ∧ keyRecsOk l = true ∧
      (∀ r ∈ l.filterMap id, d.keyOut c.slot r = false) ∧ d.keyRecords c.slot (l.filterMap id) = .ok [keyField w] := by
  have hn : c.bytes.length / 96 = 1 := by rw [hb, keyRec_length hw]
  have hl : (chunks 96 (c.bytes.length / 96) c.bytes).map KeyRec.read = [some ⟨5, 3, false, false, 0, 0, 1, 9, w⟩] := by
    have f := flatten_chunks 96 1 (keyRec w) (keyRec_length hw)
    obtain ⟨g1, g2⟩ := chunks_length 96 1 (keyRec w) (keyRec_length hw) (by decide)
    rw [hn, hb]
    match hx : chunks 96 1 (keyRec w), g1 with
    | [x], _ =>
      rw [hx] at f
      have : x = keyRec w := by simpa using f
      rw [this, List.map_cons, keyRec_read hw, List.map_nil]
  have un : unwrapKey kek0 0 false w = some (List.replicate 16 7, List.replicate 4 3 ++ List.replicate 8 0) := by
    unfold unwrapKey
    rw [hu]
    decide +kernel
  simp only [hl, he, ha, hr]
  refine ⟨by decide, by decide, trivial, trivial, rfl, ?_, ?_⟩
  · simp only [List.filterMap_cons, List.filterMap_nil, id, List.mem_singleton, forall_eq, Dev.keyOut, h2]
    decide
  simp only [List.filterMap_cons, List.filterMap_nil, id, Dev.keyRecords, Dev.keyRecord, Dev.keyOut, h1, h2, h3, hk, un]
  rfl

/-- The key data, wrapped. -/
def keyWrap1 : List Byte := kwWrap kek0 keyData

theorem keyWrap1_length : keyWrap1.length = 40 := kwWrap_length kek0_length (by decide) (n := 4) rfl (by decide)
theorem unwrap_key : kwUnwrap kek0 keyWrap1 = some keyData := kwUnwrap_kwWrap kek0_length (by decide) (n := 4) rfl (by decide)

theorem key_stages : StagesWith (fun h : Obligations.CryptoVerbsStageActAndRead => h.1.2.1 [keyField keyWrap1]) cryptDev (itX 96 []) (keyCall keyWrap1) :=
  ⟨by decide +kernel, key_ok _ _ keyWrap1 keyWrap1_length rfl (by decide +kernel) (by decide +kernel) (by decide +kernel) (kek_of rfl rfl 0) unwrap_key
    (by decide +kernel) (by decide +kernel) (by decide +kernel), by decide +kernel⟩

/-- In `ALARM`, with live sources. -/
def alarmed (l : List Nat) : Dev := { cryptDev with crypt := { alarm := true, seen := [7], live := l } }

/-- The same device in secure mode. -/
def secureDev : Dev :=
  let x := otpRegion 3
  { cryptDev with otp := { cryptDev.otp with bytes := [(x.off, 1)], inForce := [some 0, some 0, none, some 0] } }

/-- A bulk load with leave. -/
def bulkLoad : BulkLoad := ⟨3, List.replicate 96 0, 0, 1, 7, some 700⟩
def bulking : Dev := { cryptDev with crypt := { cryptDev.crypt with bulks := [bulkLoad], nextBulk := 4 } }

/-- Witnesses of `CryptoVerbsStageActAndRead`. -/
theorem test_witness_crypto_verbs_stage_act_and_read :
    StagesAt (fun h : Obligations.CryptoVerbsStageActAndRead => h.1.1) cryptDev (it [fieldAt 0 16 65535, fieldAt 2 8 0x11, fieldAt 3 8 48, fieldAt 12 8 40, fieldAt 16 16 60000, fieldAt 18 16 0x600]) ∧
    StagesAt (fun h : Obligations.CryptoVerbsStageActAndRead => h.1.1) cryptDev (it [fieldAt 0 16 5, fieldAt 2 8 0x10, fieldAt 18 16 0xFFFF]) ∧
    StagesAt (fun h : Obligations.CryptoVerbsStageActAndRead => h.1.1) cryptDev (it [fieldAt 0 16 7, fieldAt 2 8 0x1C, fieldAt 4 64 1]) ∧
    StagesWith (fun h : Obligations.CryptoVerbsStageActAndRead => h.1.2.1 [keyField keyWrap1]) cryptDev (itX 96 []) (keyCall keyWrap1) ∧
    StagesAt (fun h : Obligations.CryptoVerbsStageActAndRead => h.1.2.2.1) cryptDev (it [fieldAt 0 16 5, fieldAt 2 8 15]) ∧
    StagesAt (fun h : Obligations.CryptoVerbsStageActAndRead => h.1.2.2.2.1) cryptDev (it [fieldAt 0 16 6]) ∧
    StagesAt (fun h : Obligations.CryptoVerbsStageActAndRead => h.1.2.2.2.2.1) cryptDev (it [fieldAt 0 8 0x7E, fieldAt 1 8 255]) ∧
    StagesAt (fun h : Obligations.CryptoVerbsStageActAndRead => h.1.2.2.2.2.2 kek0 credKey1) cryptDev (fun _ => credItem (leNat credWrap1)) ∧
    ServesAt (fun h : Obligations.CryptoVerbsStageActAndRead => h.2.1) (alarmed [6]) (it []) ∧
    ServesAt (fun h : Obligations.CryptoVerbsStageActAndRead => h.2.2.1) (sets (alarmed [2]) [(.alarmEn, 0, 4)]) (it []) ∧
    ServesAt (fun h : Obligations.CryptoVerbsStageActAndRead => h.2.2.2.1) cryptDev (it []) ∧
    ServesAt (fun h : Obligations.CryptoVerbsStageActAndRead => h.2.2.2.2.1) cryptDev (itX (96 * 65) []) (List.replicate (96 * 65) 0) ∧
    ReadsAt (fun h : Obligations.CryptoVerbsStageActAndRead => h.2.2.2.2.2.1) cryptDev (it []) ∧
    ReadsAt (fun h : Obligations.CryptoVerbsStageActAndRead => h.2.2.2.2.2.2) cryptDev (it [fieldAt 0 16 5]) :=
  ⟨by decide +kernel, by decide +kernel, by decide +kernel, key_stages, by decide +kernel, by decide +kernel, by decide +kernel, cred_stages1, by and_intros <;> decide +kernel⟩

/-- Witnesses of `AlarmsEraseKeysAndSlotsRetire`. -/
theorem test_witness_alarms_erase_keys_and_slots_retire :
    HappensAt (fun h : Obligations.AlarmsEraseKeysAndSlotsRetire => h.1 1 []) (sets cryptDev [(.alarmEn, 0, 2)]) ∧
    HappensAt (fun h : Obligations.AlarmsEraseKeysAndSlotsRetire => h.2.1 [(false, true), (true, false)]) secureDev ∧
    HappensAt (fun h : Obligations.AlarmsEraseKeysAndSlotsRetire => h.2.2.1 5 []) (alarmed [4, 5]) ∧
    HappensAt (fun h : Obligations.AlarmsEraseKeysAndSlotsRetire => h.2.2.2.1 true [(true, false)]) cryptDev ∧
    HappensAt (fun h : Obligations.AlarmsEraseKeysAndSlotsRetire => h.2.2.2.2.1 5 900 2 []) cryptDev ∧
    HappensAt (fun h : Obligations.AlarmsEraseKeysAndSlotsRetire => h.2.2.2.2.2 bulkLoad 700) bulking :=
  ⟨by decide +kernel, ⟨by decide +kernel, ⟨false, by decide +kernel⟩, by decide +kernel⟩, by decide +kernel, by decide +kernel,
    by decide +kernel, by decide +kernel⟩

/-- Units of the line as given, the PLL running, with a budget. -/
def powerDev : Dev := sets (powered est [.pll, .cipher 2]) [(.role, 0, 1), (.budget, 0, 5000), (.stepLimit, 0, 10), (.evtEnable, Ev.wakeDone.code, 1),
  (.evtEnable, Ev.wakeFailed.code, 1), (.evtEnable, Ev.vtileRequest.code, 1), (.evtEnable, Ev.tjWarn.code, 1), (.evtEnable, Ev.tjShutdown.code, 1)]
def unitIn (u : PowerUnit) (p : UnitPhase) : Dev := powerDev.setUnit u { phase := p, commit := 0, since := 700 }
def asking (op : LeaveOp) : Dev := { powerDev with power := { powerDev.power with queue := [⟨op, 250, 700⟩] } }
def granted (u : PowerUnit) : Dev := let d := unitIn u .granted; { d with power := { d.power with held := [⟨.wake u, 250, 700⟩] } }
def thermalIn (t : Thermal) : Dev := { powerDev with power := { powerDev.power with thermal := t, overSince := some 700 } }

/-- Witnesses of `PowerVerbsStageAndRead`. -/
theorem test_witness_power_verbs_stage_and_read :
    StagesAt (fun h : Obligations.PowerVerbsStageAndRead => h.1) powerDev (it [pat 0 .subcarrier 31, fieldAt 4 8 1]) ∧
    StagesAt (fun h : Obligations.PowerVerbsStageAndRead => h.1) powerDev (it [pat 0 .stitchLane 7, fieldAt 4 8 0xD]) ∧
    StagesAt (fun h : Obligations.PowerVerbsStageAndRead => h.2.1) powerDev (it [fieldAt 0 32 120000, fieldAt 4 32 420, fieldAt 8 8 40, fieldAt 9 8 20]) ∧
    ReadsAt (fun h : Obligations.PowerVerbsStageAndRead => h.2.2) powerDev (it []) :=
  ⟨by decide +kernel, by decide +kernel, by decide +kernel, (by decide +kernel)⟩

/-- Witnesses of `LeaveIsGrantedAndWakesEnd`. -/
theorem test_witness_leave_is_granted_and_wakes_end :
    HappensAt (fun h : Obligations.LeaveIsGrantedAndWakesEnd => h.1 ⟨.otp, 250, 700⟩) (asking .otp) ∧
    HappensAt (fun h : Obligations.LeaveIsGrantedAndWakesEnd => h.1 ⟨.fill, 250, 700⟩) (asking .fill) ∧
    HappensAt (fun h : Obligations.LeaveIsGrantedAndWakesEnd => h.2.1 (.sc 3)) (granted (.sc 3)) ∧
    HappensAt (fun h : Obligations.LeaveIsGrantedAndWakesEnd => h.2.2.1 (.cipher 4) 4) (unitIn (.cipher 4) .starting) ∧
    HappensAt (fun h : Obligations.LeaveIsGrantedAndWakesEnd => h.2.2.2 (.sc 3)) (unitIn (.sc 3) .starting) :=
  ⟨by decide +kernel, by decide +kernel, by decide +kernel, ⟨by decide +kernel, .inr rfl, by decide +kernel⟩, by decide +kernel⟩

/-- Witnesses of `ThermalStatesFollowTheSensors`. -/
theorem test_witness_thermal_states_follow_the_sensors :
    HappensAt (fun h : Obligations.ThermalStatesFollowTheSensors => h.1 2500 [2500, 2500, 2500, 2500, 2500, 2500, 20000]) (thermalIn .normal) ∧
    HappensAt (fun h : Obligations.ThermalStatesFollowTheSensors => h.1 2500 [2500, 2500, 2500, 2500, 2500, 2500, 20000]) (thermalIn .warn) ∧
    HappensAt (fun h : Obligations.ThermalStatesFollowTheSensors => h.1 2500 [2500, 2500, 2500, 2500, 2500, 2500, 2600]) (thermalIn .hot) ∧
    HappensAt (fun h : Obligations.ThermalStatesFollowTheSensors => h.1 2500 [2500, 2500, 2500, 2500, 2500, 2500, 2600]) (thermalIn .shutdown) ∧
    HappensAt (fun h : Obligations.ThermalStatesFollowTheSensors => h.2 700) (thermalIn .hot) :=
  (by and_intros <;> decide +kernel)

/-- Witnesses of `VtileSetpointIsRequestedAndReported`. -/
theorem test_witness_vtile_setpoint_is_requested_and_reported :
    HappensAt (fun h : Obligations.VtileSetpointIsRequestedAndReported => h.1 730) powerDev ∧
    HappensAt (fun h : Obligations.VtileSetpointIsRequestedAndReported => h.1 670) powerDev ∧
    HappensAt (fun h : Obligations.VtileSetpointIsRequestedAndReported => h.2.1 731) powerDev ∧
    HappensAt (fun h : Obligations.VtileSetpointIsRequestedAndReported => h.2.1 672) powerDev ∧
    ReadsAt (fun h : Obligations.VtileSetpointIsRequestedAndReported => h.2.2) powerDev (it []) :=
  (by and_intros <;> decide +kernel)

/-- A group of the stitch lanes 0 and 1. -/
def stGroup : Dev := sets base [(.groupCount, groupIdx true .stitchLane 0, 2), (.groupMember, 4096 * groupIdx true .stitchLane 0, Member.enc ⟨none, false, .stitchLane, 0⟩),
  (.groupMember, 4096 * groupIdx true .stitchLane 0 + 1, Member.enc ⟨none, false, .stitchLane, 1⟩)]

/-- Housekeeping with one entry, a filled capture region, the capture decimator and the converter awake. -/
def monDev : Dev :=
  let d := sets (powered est [.capt, .core, .wb 0, .pipe 2, .hbm 0])
    [(.hkCount, 0, 1), (.hkEntry, 0, 1 * 2 ^ 16), (.rgEn, 5, 1), (.rgKind, 5, 5), (.rgSize, 5, 16), (.bwCapture, 0, 1), (.dumpPeriod, 0, 1),
     (.monSel, 3, 2), (.evtEnable, Ev.captDone.code, 1)]
  { d with power := { d.power with coreFull := true }, mem := { d.mem with filled := [5] }, mon := { d.mon with pend := [3] } }

/-- The host ring in force, with n dumps produced. -/
def ringDev (n : Nat) : Dev :=
  let d := sets monDev [(.dumpDest, 0, 1), (.dumpSlots, 0, 2), (.dumpAddr, 0, 4096)]
  { d with mon := { d.mon with dest := 1, destAddr := 4096, destSlots := 2, produced := n, pend := [] } }

/-- A capture run. -/
def captRun (started ring : Bool) (stop : Option Nat) : CaptRun := ⟨0, 0, 10, ring, 5, 750, started, stop, 0, 1, 7, 5, 0, 0, 3200, 0xFFFFFFFF, []⟩
def captIn (r : CaptRun) : Dev := { monDev with mon := { monDev.mon with capt := some r } }
def hkRes7 : HkRes := { value := 7, results := 3, valid := true }

/-- Witnesses of `MonSelectStagesCounterCodes`. -/
theorem test_witness_mon_select_stages_counter_codes :
    Hyp2 (fun h : Obligations.MonSelectStagesCounterCodes => h.2.1 ((verbMonSelect).callOf (hc []) (waiting base (it [] verbMonSelect) base) ⟨it [] verbMonSelect, false⟩) base) ∧
    RefusesAt (fun h : Obligations.MonSelectStagesCounterCodes => h.2.2.1) base (it [pat 0 .queue 0, fieldAt 4 8 1]) ∧
    RefusesAt (fun h : Obligations.MonSelectStagesCounterCodes => h.2.2.1) base (it [pat 0 .stitchLane 1, fieldAt 4 8 1]) ∧
    RefusesAt (fun h : Obligations.MonSelectStagesCounterCodes => h.2.2.2.1) base (it [pat 0 .pipeline 7, fieldAt 4 8 1, fieldAt 5 8 9]) ∧
    ServesAt (fun h : Obligations.MonSelectStagesCounterCodes => h.2.2.2.2.1) stGroup (it [fieldAt 0 32 ((PClass.stitchLane.value + 0x20) * 2 ^ 14), fieldAt 4 8 1]) ∧
    StagesAt (fun h : Obligations.MonSelectStagesCounterCodes => h.2.2.2.2.2) monDev (it [pat 0 .pipeline 7, fieldAt 4 8 0x81, fieldAt 5 8 8]) :=
  ⟨⟨by decide +kernel, by decide +kernel⟩, by decide +kernel, by decide +kernel, by decide +kernel, ⟨by decide +kernel, 1, by decide +kernel⟩, by decide +kernel⟩

/-- Witnesses of `MonitoringVerbsStageAndRead`. -/
theorem test_witness_monitoring_verbs_stage_and_read :
    StagesAt (fun h : Obligations.MonitoringVerbsStageAndRead => h.1.1) monDev (it [fieldAt 0 16 10000, fieldAt 2 8 5, fieldAt 4 32 65536, fieldAt 8 64 4096]) ∧
    StagesAt (fun h : Obligations.MonitoringVerbsStageAndRead => h.1.1) monDev (it [fieldAt 0 16 1]) ∧
    StagesAt (fun h : Obligations.MonitoringVerbsStageAndRead => h.1.2.1) monDev (itX 16 [fieldAt 16 8 1]) (leBytes 16 (23 + 256 * 2 ^ 16)) ∧
    StagesAt (fun h : Obligations.MonitoringVerbsStageAndRead => h.1.2.1) monDev (it []) ∧
    StagesAt (fun h : Obligations.MonitoringVerbsStageAndRead => h.1.2.2) monDev (itX 240 []) (List.replicate 240 0) ∧
    StagesAt (fun h : Obligations.MonitoringVerbsStageAndRead => h.1.2.2) monDev (it [fieldAt 16 8 1]) ∧
    ServesAt (fun h : Obligations.MonitoringVerbsStageAndRead => h.2.1 (.pipe 2) 2) monDev (itX 80 [pat 16 .pipeline 2]) (List.replicate 80 0) ∧
    Hyp4 (fun h : Obligations.MonitoringVerbsStageAndRead => h.2.2.1 (.pipe 2) 2 (hc (List.replicate 80 0)) (waiting monDev (itX 80 [pat 16 .pipeline 2] verbMonRead) monDev) 0 ⟨itX 80 [pat 16 .pipeline 2] verbMonRead, false⟩) ∧
    ReadsAt (fun h : Obligations.MonitoringVerbsStageAndRead => h.2.2.2.1) monDev (it []) ∧
    ServesAt (fun h : Obligations.MonitoringVerbsStageAndRead => h.2.2.2.2.1 hkRes7) { monDev with mon := { monDev.mon with hk := [(0, hkRes7)] } } (it []) ∧
    ReadsAt (fun h : Obligations.MonitoringVerbsStageAndRead => h.2.2.2.2.2) monDev (it []) ∧
    ReadsAt (fun h : Obligations.MonitoringVerbsStageAndRead => h.2.2.2.2.2) (captIn (captRun false true none)) (it []) ∧
    ReadsAt (fun h : Obligations.MonitoringVerbsStageAndRead => h.2.2.2.2.2) (captIn (captRun true true none)) (it []) :=
  ⟨by decide +kernel, by decide +kernel, by decide +kernel, (by decide +kernel), by decide +kernel, by decide +kernel, ⟨by decide +kernel, ⟨⟨0, false, .pipeline, 2⟩, by decide +kernel⟩, by decide +kernel⟩, ⟨ready_of_readyB (by decide +kernel), ⟨⟨0, false, .pipeline, 2⟩, by decide +kernel⟩, by decide +kernel, by decide +kernel⟩, by and_intros <;> decide +kernel⟩

/-- Witnesses of `DumpsResultsAndCaptureRuns`. -/
theorem test_witness_dumps_results_and_capture_runs :
    HappensAt (fun h : Obligations.DumpsResultsAndCaptureRuns => h.1.1 (some 3)) monDev ∧
    HappensAt (fun h : Obligations.DumpsResultsAndCaptureRuns => h.1.2.1 0) (ringDev 1) ∧
    HappensAt (fun h : Obligations.DumpsResultsAndCaptureRuns => h.1.2.1 0) (ringDev 2) ∧
    HappensAt (fun h : Obligations.DumpsResultsAndCaptureRuns => h.1.2.2.1 []) monDev ∧
    HappensAt (fun h : Obligations.DumpsResultsAndCaptureRuns => h.1.2.2.2 [4000]) monDev ∧
    HappensAt (fun h : Obligations.DumpsResultsAndCaptureRuns => h.1.2.2.2 (List.replicate 1000 7)) (sets monDev [(.hkEntry, 0, 2 ^ 16 + 2 ^ 8 + 2 ^ 11 + 10000 * 2 ^ 48)]) ∧
    ServesAt (fun h : Obligations.DumpsResultsAndCaptureRuns => h.2.1) monDev (it [fieldAt 0 8 0xA0, fieldAt 1 8 1, fieldAt 4 32 9]) ∧
    ServesAt (fun h : Obligations.DumpsResultsAndCaptureRuns => h.2.2.1 (captRun false true none)) (captIn (captRun false true none)) (it []) ∧
    ServesAt (fun h : Obligations.DumpsResultsAndCaptureRuns => h.2.2.1 (captRun true false (some 500))) (captIn (captRun true false (some 500))) (it []) ∧
    ServesAt (fun h : Obligations.DumpsResultsAndCaptureRuns => h.2.2.2.1) monDev (it []) ∧
    HappensAt (fun h : Obligations.DumpsResultsAndCaptureRuns => h.2.2.2.2.1 (captRun false true none) [⟨⟨1, 2⟩, ⟨3, 4⟩⟩]) (captIn (captRun false true none)) ∧
    HappensAt (fun h : Obligations.DumpsResultsAndCaptureRuns => h.2.2.2.2.2.1 (captRun true true (some 1000)) 1000) (captIn (captRun true true (some 1000))) ∧
    HappensAt (fun h : Obligations.DumpsResultsAndCaptureRuns => h.2.2.2.2.2.2 (captRun true false none)) (captIn (captRun true false none)) :=
  (by and_intros <;> decide +kernel)

/-- An image of 4,160 bytes, version 1. -/
def image1 (body : List Byte) : List Byte :=
  [1, 0, 0, 0, 1, 0, 0, 0, 0x40, 0x10, 0, 0] ++ (leBytes 4 (crc32 body) ++ (List.replicate 48 0 ++ body))

theorem image1_ok (o : OtpSt) (body : List Byte) (hb : body.length = 4096) (h1 : o.fwCheck = false) (h2 : o.fwMin ≤ 1) :
    fwCheck o (image1 body) = none := by
  have hn : (image1 body).length = 4160 := by
    rw [image1, List.length_append, List.length_append, List.length_append, leBytes_length, List.length_replicate, hb]; rfl
  have w0 : leNat (slice (image1 body) 0 2) = 1 := rfl
  have w4 : leNat (slice (image1 body) 4 4) = 1 := rfl
  have w8 : leNat (slice (image1 body) 8 4) = 4160 := rfl
  have w12 : leNat (slice (image1 body) 12 4) = crc32 body := by
    have e : slice (image1 body) 12 4 = leBytes 4 (crc32 body) := rfl
    rw [e, leNat_leBytes]
    exact Nat.mod_eq_of_lt (crc32_lt body)
  have hd : (image1 body).drop 64 = body := rfl
  simp only [fwCheck, hn, w0, w4, w8, w12, hd, h1, bne_self_eq_false, Bool.or_false, Bool.false_and, firstOf]
  simp only [decide_eq_false (show ¬ (4160 < 4160 ∨ fwMax < 4160) by decide), decide_eq_false (Nat.not_lt.mpr h2)]
  rfl

/-- The boot ROM runs, with slot 0 for FW.LOAD. -/
def romDev (stage : Nat) (image : List Byte) : Dev := { base with boot := { held := false, stage := stage, image := image } }

/-- While its command waits for the check. -/
def checking : Dev := (romDev 1 []).modSlot 0 fun s => { s with taken := some ⟨itN 9 [fieldAt 4 8 1] verbFwLoad, .fwCheck⟩ }

/-- Witnesses of `PowerOnAndFirmwareStart`. -/
theorem test_witness_power_on_and_firmware_start :
    Hyp1 (fun h : Obligations.PowerOnAndFirmwareStart => h.1.1 State.reset true) ∧
    Hyp2 (fun h : Obligations.PowerOnAndFirmwareStart => h.1.2 { dev := base }) ∧
    ServesAt (fun h : Obligations.PowerOnAndFirmwareStart => h.2.1) (romDev 0 [1]) (itX 3 [fieldAt 0 32 1]) [7, 8, 9] ∧
    ServesAt (fun h : Obligations.PowerOnAndFirmwareStart => h.2.1) (romDev 0 [1]) (itN 56 [fieldAt 0 32 1]) ∧
    WaitsAt (fun h : Obligations.PowerOnAndFirmwareStart => h.2.2.1) (romDev 0 []) (itN 9 [fieldAt 4 8 1]) ∧
    WaitsAt (fun h : Obligations.PowerOnAndFirmwareStart => h.2.2.1) (romDev 0 [4]) (itX 1 [fieldAt 0 32 1, fieldAt 4 8 1]) [7] ∧
    HappensAt (fun h : Obligations.PowerOnAndFirmwareStart => h.2.2.2.1) (romDev 1 (image1 (List.replicate 4096 0))) ∧
    HappensAt (fun h : Obligations.PowerOnAndFirmwareStart => h.2.2.2.2.1 .fwCorrupt (itN 9 [fieldAt 4 8 1] verbFwLoad)) checking ∧
    ReadsAt (fun h : Obligations.PowerOnAndFirmwareStart => h.2.2.2.2.2) base (it []) :=
  ⟨by decide +kernel, ⟨by decide +kernel, by decide +kernel⟩, by decide +kernel, by decide +kernel, by decide +kernel, (by decide +kernel), ⟨rfl, rfl, image1_ok _ _ (List.length_replicate ..) (by decide +kernel) (by decide +kernel)⟩, by decide +kernel, by decide +kernel⟩

/-- A programming of region 5 in progress, or waiting. -/
def prog5 : OtpProg := ⟨5, 0, leBytes 8 5000, 0, 1, 7, some 700, false⟩
def otpDev (p : Option OtpProg) : Dev := { sets est [(.budget, 0, 5000), (.evtEnable, Ev.otpProgrammed.code, 1), (.evtEnable, Ev.opFailed.code, 1)] with
  otp := { inForce := [some 0, none, none, none, none, none, none], prog := p } }

/-- Witnesses of `OtpIsProgrammedAndRead`. -/
theorem test_witness_otp_is_programmed_and_read :
    ServesAt (fun h : Obligations.OtpIsProgrammedAndRead => h.1 0) (otpDev none) (itX 8 [fieldAt 16 8 5]) (leBytes 8 120000) ∧
    ServesAt (fun h : Obligations.OtpIsProgrammedAndRead => h.2.1) (otpDev none) (itX 24 []) (List.replicate 24 0) ∧
    HappensAt (fun h : Obligations.OtpIsProgrammedAndRead => h.2.2.1 prog5 700) (otpDev (some prog5)) ∧
    HappensAt (fun h : Obligations.OtpIsProgrammedAndRead => h.2.2.2.1 prog5 700) (otpDev (some prog5)) ∧
    ReadsAt (fun h : Obligations.OtpIsProgrammedAndRead => h.2.2.2.2.1) (otpDev none) (it []) ∧
    ServesAt (fun h : Obligations.OtpIsProgrammedAndRead => h.2.2.2.2.2.1 (List.replicate 24 0)) (otpDev none) (itX 24 []) (List.replicate 24 0) ∧
    ServesAt (fun h : Obligations.OtpIsProgrammedAndRead => h.2.2.2.2.2.2) (otpDev none) (itX 32 [fieldAt 16 8 1]) (List.replicate 32 0) :=
  (by and_intros <;> decide +kernel)

/-- Reset and power-fail states. -/
def resetIn (at1 : Option (Nat × Bool)) : Dev := { est with boot := { est.boot with resetAt := at1, image := [9] } }
def pipeReset : Dev :=
  let d := sets (powered est [.pipe 7]) [(.evtEnable, Ev.patchReset.code, 1)]
  { d with boot := { d.boot with unitResets := [(0, [⟨.pipeline, 7⟩])] } }.modSlot 0 fun s =>
    { s with taken := some ⟨it [pat 0 .pipeline 7] verbSysReset, .unitReset⟩ }
def failing (g : Nat) : Dev := { sets est [(.evtEnable, Ev.pfail.code, 1)] with boot := { est.boot with pfail := some 600, lastGasp := g } }

/-- Witnesses of `ResetsOfTheDeviceAndOfUnits`. -/
theorem test_witness_resets_of_the_device_and_of_units :
    ServesAt (fun h : Obligations.ResetsOfTheDeviceAndOfUnits => h.1 ⟨0, false, .device, 0⟩) est (it [pat 0 .device 0, fieldAt 4 8 1]) ∧
    WaitsAt (fun h : Obligations.ResetsOfTheDeviceAndOfUnits => h.2.1) (powered est [.pipe 7]) (it [pat 0 .pipeline 7]) ∧
    HappensAt (fun h : Obligations.ResetsOfTheDeviceAndOfUnits => h.2.2.1 0 7 (it [pat 0 .pipeline 7] verbSysReset)) pipeReset ∧
    Hyp2 (fun h : Obligations.ResetsOfTheDeviceAndOfUnits => h.2.2.2.1 { dev := resetIn (some (900, true)) } 900 true) ∧
    Hyp2 (fun h : Obligations.ResetsOfTheDeviceAndOfUnits => h.2.2.2.2.1 { dev := est }) ∧
    Hyp1 (fun h : Obligations.ResetsOfTheDeviceAndOfUnits => h.2.2.2.2.2 { dev := est }) :=
  ⟨by decide +kernel, by decide +kernel, by decide +kernel, ⟨by decide +kernel, by decide +kernel⟩, ⟨by decide +kernel, by decide +kernel⟩, by decide +kernel⟩

/-- Witnesses of `PowerFailWarningsAndTheHostLink`. -/
theorem test_witness_power_fail_warnings_and_the_host_link :
    HappensAt (fun h : Obligations.PowerFailWarningsAndTheHostLink => h.1 (some 0)) (sets est [(.evtEnable, Ev.pfail.code, 1)]) ∧
    HappensAt (fun h : Obligations.PowerFailWarningsAndTheHostLink => h.2.1) (failing 3) ∧
    HappensAt (fun h : Obligations.PowerFailWarningsAndTheHostLink => h.2.2.1) (failing 0) ∧
    HappensAt (fun h : Obligations.PowerFailWarningsAndTheHostLink => h.2.2.2 .l1) est :=
  ⟨by decide +kernel, by decide +kernel, by decide +kernel, (by decide +kernel)⟩

/-- Witnesses of `EachBoundarySendsFramesAndTakesTheSnapshot`. -/
theorem test_witness_each_boundary_sends_frames_and_takes_the_snapshot :
    Hyp1 (fun h : Obligations.EachBoundarySendsFramesAndTakesTheSnapshot => h { dev := p2p }) :=
  by decide +kernel

/-- Witnesses of `EveryCommandCompletesAndAnEmptyQueueLetsTimePass`. -/
theorem test_witness_every_command_completes_and_an_empty_queue_lets_time_pass :
    State.reset.pending = [] :=
  by decide +kernel

/-- Witnesses of `EveryStepKeepsInterruptsSettled`. -/
theorem test_witness_every_step_keeps_interrupts_settled :
    ∃ t, State.reset.dev.IrqSettled ∧ step State.reset = .next t :=
  ⟨_, by decide +kernel, rfl⟩

/-- Witnesses of `EveryStepKeepsTheMemoryCanonical`. -/
theorem test_witness_every_step_keeps_the_memory_canonical :
    ∃ t, memLines.mem.wf = true ∧ step { dev := memLines, pending := [.fillBurstEnd] } = .next t :=
  ⟨_, by decide +kernel, rfl⟩

/-! ### The spec's worked examples -/

/-- Word n of an item. -/
def word (i : Item) (n : Nat) : Nat := Item.field i (4 * n) 0 32

/-- A command item of a priority and a number. -/
def cmdItem (prio seq : Nat) : Item := BitVec.ofNat 512 (pack [fieldAt 0 8 2, fieldAt 1 2 prio, fieldAt 2 16 seq])

/-- 02_control.md: the words of responses in slot 2. -/
theorem test_response_words :
    word (responseItem 2 (cmdItem 0 1) .ok (res 17 [])) 0 = 0x00010801 ∧ word (responseItem 2 (cmdItem 0 1) .ok (res 17 [])) 1 = 0x00110000 ∧
    word (responseItem 2 (cmdItem 2 0x11) .badParameter {}) 0 = 0x00110A01 ∧
    word (responseItem 2 (cmdItem 2 0x11) .badParameter {}) 1 = 0x00000102 := by decide +kernel

/-- 05_subcarriers.md: 15 and 14 slots of `H_CODE` 52 and 47, and their required SNR. -/
theorem test_slots_and_required_snr :
    slotsOf 52 0 = 15 ∧ slotsOf 47 0 = 14 ∧ base.snrReq 52 0 false = 1729 ∧ base.snrReq 47 0 false = 1632 := by decide +kernel

/-- 08_line_frame.md: the DM bits of `H_CODE` 47. -/
theorem test_frame_bits : (List.range 4).map (dmBits 47) = [505661, 505661, 505661, 505662] ∧ infoBits 47 0 0 = 705361 := by decide +kernel

/-- 07_coding.md: `PRE_BER_LOG` of 186,142,556 errors in 16,922,050,560 bits. -/
theorem test_pre_ber_log : berLog 186142556 16922050560 = 1959 := by decide +kernel

/-- 09_overhead.md: the store of a group of K 4 with `MAX_DIFF` 160. -/
theorem test_protection_store :
    ((sets (sc3 fun s => { s with rx := { s.rx with plan := some ⟨1, 52, 0, some [0x8005, 0x8005, 0x8005, 0x8005] ⟩ } })
      [(.grpEn, grpIdx 3 true, 1), (.grpDiff, grpIdx 3 true, 160), (.grpW, grpIdx 3 true, 5)])).protBytes = 16200000 := by decide +kernel

/-- Regions of 15_queues_memory.md's example, with `VERIFY_GBS` as given. -/
def shares (verify : Nat) : Dev := sets base
  [(.rgEn, 0, 1), (.rgKind, 0, 1), (.rgEn, 1, 1), (.rgKind, 1, 1), (.rgBase, 1, 16384), (.rgEn, 2, 1), (.rgKind, 2, 2), (.rgEn, 3, 1),
   (.rgKind, 3, 2), (.rgBase, 3, 16384), (.rgEn, 4, 1), (.rgKind, 4, 4), (.rgBase, 4, 16384), (.bwTx, 0, 600), (.bwRx, 0, 300),
   (.bwVerify, 0, verify), (.bwMaint, 0, 10)]

/-- 15_queues_memory.md, without its groups: stack 1 carries 300 + 150 + 50 + 5 = 505 GB/s of its 550, with `VERIFY_GBS` 100 it would carry
555. -/
theorem test_memory_shares : (shares 50).sharesExceed = false ∧ (shares 100).sharesExceed = true := by decide +kernel

/-- 17_power.md: the leave of the wakes of a leaf. -/
theorem test_leave :
    PowerUnit.leave false .pll = 440 ∧ PowerUnit.leave false .core = 1050 ∧ PowerUnit.leave false (.wb 0) = 240 ∧
    PowerUnit.leave false (.sc 17) = 600 ∧ PowerUnit.leave false (.hostIn 0) = 280 := by decide +kernel

/-- 19_startup.md: the bit in progress when the warning comes 1.8 s after the grant is bit 3,273. -/
theorem test_otp_bits : (OtpProg.bits ⟨6, 2, List.replicate 584 0, 0, 1, 7, some 0, false⟩ 45000000).2 = 3273 := by decide +kernel

/-! ### Ill-formed terms -/

/-- A header that is well-formed. -/
def headW : QHead := ⟨.stitch, false, 64, 4095, 0, 65535⟩

theorem test_wf_refuses_numbers_beyond_a_class :
    (Instr.ring 8).wf = false ∧ (Instr.next (.slot 8)).wf = false ∧ (Instr.berWindowEnd 32).wf = false ∧
    (Instr.commitApply (.receive 32)).wf = false ∧ (Instr.registerWrite (.pcie 65533 4 0)).wf = false ∧ (Instr.wakeEnd (.cipher 5) .running).wf = false ∧
    (Instr.rampStart).wf = true ∧ (Instr.wakeEnd (.stOut 7) .failed).wf = true := by decide

theorem test_wf_refuses_calls :
    (Instr.sysRole ⟨8, [], []⟩).wf = false ∧ (Instr.memRead ⟨0, [], []⟩ [⟨18, 0, true⟩]).wf = false ∧
    WellFormed.callOk ⟨0, List.replicate 4097 0, []⟩ = false := by decide +kernel

theorem test_wf_refuses_quilt_messages :
    (Instr.abort { headW with hopsLeft := 65 } 0 0).wf = false ∧ (Instr.abort { headW with link := .line 32 } 0 0).wf = false ∧
    (Instr.abort { headW with link := .burst 4095 } 0 0).wf = false ∧
    (Instr.commitAt headW 0 ⟨0, 1000000000⟩).wf = false ∧ (Instr.hello headW ⟨4096, 0, false, false, 0, 0, 0⟩).wf = false ∧
    (Instr.cmd headW ⟨0, true, 0, 0, List.replicate 45 0⟩).wf = false ∧
    (Instr.prepare headW ⟨0, 0, ⟨0, 0⟩, ⟨0, 0⟩, 4⟩).wf = false ∧ (Instr.ack headW ⟨0, 0, 0, 0, [4096]⟩).wf = false ∧
    (Instr.cmd headW ⟨7, true, 0, 0, List.replicate 44 0⟩).wf = true := by decide +kernel

theorem test_wf_refuses_measurements :
    (Instr.lasbusTransactionEnd (.done (List.replicate 65 0))).wf = false ∧ (Instr.calRunEnd ⟨List.replicate 9 {}, [], []⟩).wf = false ∧
    (Instr.levelInterval []).wf = false ∧ (Instr.thermalReading []).wf = false ∧ (Instr.hkResult [4096]).wf = false ∧
    (Instr.oscTempReading []).wf = false ∧ (Instr.levelInterval (List.replicate 4 ⟨[(512, 1)]⟩)).wf = false := by decide +kernel

theorem test_wf_refuses_received_data :
    (Instr.lineFrameReceived { frame3 with sc := 32 }).wf = false ∧ (Instr.lineFrameReceived frame3).wf = false ∧
    (Instr.candidateTest 3 0 ⟨[], []⟩).wf = false ∧ (Instr.preconvAttemptEnd 32).wf = false ∧
    (Instr.chunkReceived [{ outCfr := 65536 }]).wf = false ∧
    (Instr.stitchFrameReceived stitchFrame0).wf = false ∧ (Instr.hostFrameReceived { hostFrame true with port := 16 } {}).wf = false ∧
    (Instr.queueService { slot3 with cfr := 65536 }).wf = false ∧ (Instr.stitchLaneMarker 0 ⟨[], 6250⟩).wf = false := by
  decide +kernel

theorem test_wf_refuses_bursts_and_tree_records :
    (Instr.burstReceived { data5 with leaf := 4095 }).wf = false ∧ (Instr.echoBurstReceived (open5 0)).wf = false ∧
    (Instr.deregister ⟨256, 0⟩).wf = false ∧ (Instr.report ⟨0, 0⟩ ⟨0, 0, 16, false, 0⟩).wf = false ∧
    (Instr.move ⟨0, 0⟩ ⟨0, 8, 0, 0, 0, false⟩).wf = false ∧ (Instr.move ⟨0, 0⟩ ⟨31, 7, 31, 7, 31, false⟩).wf = true := by decide +kernel

end Sys2Proof.Tests
end

section
/-! Refused commands: what the checks of R569 answer for a verb without a buffer, and what a refused command leaves behind. -/

namespace Sys2Proof.Machine

variable {v : Verb} {c : HostCall} {s : State} {k : Nat} {e : CmdEntry}

/-- A command with a good header that the checks of R569 refuse is answered on the device that has taken it; its meaning is not run. -/
theorem runVerb_refused (body : Body) {st : Status} (h : Turn v c s k e) (hh : (s.taken c.slot k).checkHeader c.slot e = none)
    (hc : v.check (v.callOf c s e) (s.taken c.slot k) = some st) :
    runVerb v body c s =
      .next { s with dev := (((s.taken c.slot k).respond c.slot e.item st).settle 256).refresh } := by
  have hn : Dev.nextCmd { s.dev with out := [] } = some (c.slot, k, e) := h.next
  have hr : ((s.quiet.takeCmd c.slot k).slot c.slot).role = (s.dev.slot c.slot).role := s.taken_role c.slot k
  simp only [State.taken, Verb.callOf] at hh hc
  rw [runVerb, State.runAll_next _ h.runs]
  simp [serve, hn, hr, hh, hc, h.code]

/-- A verb whose checks answer `st` wherever `bad` holds refuses its command there with `st`. -/
theorem refuses_of_check {i : HostCall → Instr} {st : Status} {bad : Call → Dev → Prop} (body : Body)
    (hexec : ∀ c s, exec (i c) s = runVerb v body c s) (hcheck : ∀ c d, bad c d → v.check c d = some st) :
    Refuses v i st bad := by
  intro c s k e h hh hbad
  rw [Completes, hexec, runVerb_refused body h hh (hcheck _ _ hbad)]
  exact ⟨_, rfl, Answers.of_settle h (s.taken_rsp c.slot k) _ rfl, changesOnly_served h (by simp) (Dev.changesOnly_refl _ _)⟩

/-- A verb that takes no buffer, needs one role whatever its parameters, and names no patch. -/
structure Verb.Plain (v : Verb) : Prop where
  ext : v.ext = .never
  entryLen : v.entryLen = 0
  roleBit : v.roleBit = none
  devRole : v.devRole = none
  patches : ∀ c, v.patches c = []

/-- Of a plain verb's call that fits, the checks of R569 leave those of its layout's rows: steps 6 and 7. -/
theorem Verb.Plain.check_of_fits (h : v.Plain) {c : Call} {d : Dev} (hfit : v.fits c d) :
    v.check c d =
      if v.params.any (·.badCode v.groups c) || v.codes c then some .badParameter
      else if v.params.any (·.outOfRange c) || v.ranges c then some .outOfRange else none := by
  obtain ⟨hopen, hrole, hlen, hext⟩ := hfit
  have hform : v.badForm c v.len = false := by simp [Verb.badForm, Verb.lenFor, ExtUse.optional, ExtUse.wrong, h.ext, hext]
  have hgap : v.gapSet c = false := by simp [Verb.gapSet, ExtUse.optional, h.ext]
  have hentries : v.entries c = [] := by simp [Verb.entries, h.entryLen]
  have hfar : v.remotes c d = [] := by simp [Verb.remotes, h.patches]
  have hdenied : ¬ c.role.code < (v.roleOf c).code := by simpa [Verb.roleOf, h.roleBit, h.devRole] using hrole
  have hcheck : v.check c d = v.checkParams c v.len := by
    simp only [Verb.check, hopen, hdenied, hlen, hfar, hext]
    cases v.checkParams c v.len <;> simp
  rw [hcheck]
  simp [Verb.checkParams, hform, hgap, Verb.badEntry, Verb.entryOut, hentries]

end Sys2Proof.Machine
end

section
/-! `EQ.LINE_SET` (R186): its checks say which values its fields may have, and its meaning stages them. -/

namespace Sys2Proof.Machine

theorem exec_eqLineSet (c : HostCall) (s : State) : exec (.eqLineSet c) s = execEqLineSet c s := rfl

/-- Every field stands at its default after reset. -/
theorem conf_reset (f : Fld) (i : Nat) : State.reset.dev.conf f i = f.reset i := rfl

theorem verbEqLineSet_plain : verbEqLineSet.Plain := ⟨rfl, rfl, rfl, rfl, fun _ => rfl⟩

/-- The four values of a call are in the ranges that R186's table gives. -/
abbrev Call.lineSetInRange (c : Call) : Prop :=
  (-5000 ≤ c.ps 0 0 16 ∧ c.ps 0 0 16 ≤ -1000) ∧ (10 ≤ c.p 2 0 16 ∧ c.p 2 0 16 ≤ 2000) ∧ (10 ≤ c.p 4 0 16 ∧ c.p 4 0 16 ≤ 10000) ∧
  (10 ≤ c.p 6 0 16 ∧ c.p 6 0 16 ≤ 10000)

/-- The layout has no listed encodings and no reserved bits. -/
theorem verbEqLineSet_badCode (c : Call) : verbEqLineSet.params.any (·.badCode verbEqLineSet.groups c) = false := rfl

/-- A row of the layout is outside its range exactly where R186's table says so. -/
theorem verbEqLineSet_outOfRange (c : Call) : verbEqLineSet.params.any (·.outOfRange c) = true ↔ ¬c.lineSetInRange := by
  simp only [verbEqLineSet, List.any_cons, List.any_nil, Param.outOfRange, Kind.outVal, Bool.or_eq_true, decide_eq_true_eq,
    Bool.false_eq_true, or_false, Call.lineSetInRange, Call.ps, Decidable.not_and_iff_not_or_not,
    Int.not_le, Nat.not_le]

theorem verbEqLineSet_check {c : Call} {d : Dev} (h : verbEqLineSet.fits c d) :
    verbEqLineSet.check c d = if c.lineSetInRange then none else some .outOfRange := by
  have hcodes : verbEqLineSet.codes c = false := rfl
  have hranges : verbEqLineSet.ranges c = false := rfl
  simp only [verbEqLineSet_plain.check_of_fits h, verbEqLineSet_badCode, hcodes, hranges, Bool.or_false, Bool.false_eq_true,
    if_false, verbEqLineSet_outOfRange, ite_not]

/-- Settles O27: of R569's checks only the four ranges can refuse a call that fits, and its meaning adds no check of its own. -/
theorem lineSetStagesTheThresholdAndTheTiming : Obligations.LineSetStagesTheThresholdAndTheTiming := by
  refine ⟨⟨rfl, rfl, rfl⟩, ?accepts, ?refuses, ?stages, ?defaults⟩
  case accepts =>
    intro c d h
    by_cases hr : c.lineSetInRange <;> simp [verbEqLineSet_check h, hr]
  case refuses =>
    refine refuses_of_check _ exec_eqLineSet fun c d h => ?_
    rw [verbEqLineSet_check h.1, if_neg h.2]
  case stages => exact stages_stageOn exec_eqLineSet fun _ _ _ => rfl
  case defaults =>
    simp only [conf_reset]
    decide

end Sys2Proof.Machine
end

section
/-! Event rows: what a command in its frame changes, and what an event raised leaves in the event bobbin (R58). Reads: what a view's
layout shows (R76). -/

namespace Sys2Proof.Machine

/-- A field of an item packed from a layout reads as its value cut to its width. -/
theorem Item.field_pack {l : List Bf} (hp : l.Pairwise Bf.apart) {o lo w x : Nat} (hf : at' o lo w x ∈ l) (h : 8 * o + lo + w ≤ 512) :
    Item.field (BitVec.ofNat 512 (pack l)) o lo w = x % 2 ^ w :=
  calc Item.field (BitVec.ofNat 512 (pack l)) o lo w
    _ = bits (pack l) (8 * o + lo) w := bits_mod (pack l) h
    _ = x % 2 ^ w := bits_pack hp hf

/-- `CODE` and `INFO` of an event item (R58). -/
theorem eventItem_code_info (code prio seq info patch time : Nat) (sess : Option Nat) :
    Item.field (eventItem code prio seq info patch time sess) 4 0 9 = code % 2 ^ 9 ∧
    Item.field (eventItem code prio seq info patch time sess) 6 0 16 = info % 2 ^ 16 := by
  constructor <;>
    exact Item.field_pack (by simp [Bf.apart, fieldAt, at']) (by simp [fieldAt, at']) (by decide)

/-- An event's code has 9 bits (R58). -/
theorem Ev.code_lt (ev : Ev) : ev.code < 2 ^ 9 := by cases ev <;> decide

/-- An enabled source's event takes a free stage (R58, R61). -/
theorem Dev.raise_placed {d : Dev} {ev : Ev} (patch info : Nat) (sess : Option Nat) (henabled : d.conf .evtEnable ev.code ≠ 0)
    (hroom : d.ctl.evt.bob.used < 255) (hkept : d.ctl.evt.overflow = none) :
    (d.raise ev patch info sess).ctl.evt =
      d.ctl.evt.place ev.code (d.conf .evtPriority ev.code) (info % 2 ^ 16) patch (compact d.time16) d.time.established sess := by
  simp [Dev.raise, henabled, hroom, hkept]

/-- Raising an event puts it into the event bobbin with its `INFO`. -/
theorem Dev.raised_raise (d : Dev) (ev : Ev) (patch info : Nat) (sess : Option Nat) : d.raised (d.raise ev patch info sess) ev info := by
  intro henabled hroom hkept
  have hevt := Dev.raise_placed patch info sess henabled hroom hkept
  refine ⟨_, congrArg (·.bob.unread) hevt, _, List.mem_singleton_self _, ?_⟩
  obtain ⟨hcode, hinfo⟩ := eventItem_code_info ev.code (d.conf .evtPriority ev.code) d.ctl.evt.nextSeq (info % 2 ^ 16) patch
    (compact d.time16) sess
  exact ⟨hcode.trans (Nat.mod_eq_of_lt ev.code_lt), hinfo.trans (Nat.mod_mod _ _)⟩

/-- Whether an event was raised speaks of the settings and the event bobbin alone of the device before. -/
theorem Dev.raised_of_same {a b d : Dev} {ev : Ev} {info : Nat} (hcfg : b.cfg = a.cfg) (hevt : b.ctl.evt = a.ctl.evt)
    (h : b.raised d ev info) : a.raised d ev info := by
  simpa only [Dev.raised, Dev.conf, hcfg, hevt] using h

/-- Interrupts leave the event bobbin as it is. -/
theorem Dev.raised_refresh {d d' : Dev} {ev : Ev} {info : Nat} : d.raised d'.refresh ev info ↔ d.raised d' ev info := by
  simp [Dev.raised]

/-- An event row in the common frame: what its effect f, with the interrupts that follow, does to the device. -/
theorem happens_run {i : Instr} {f : Dev → Dev} {l : List Part} {cond : Dev → Prop} {post : Dev → Dev → Prop}
    (hexec : ∀ s, exec i s = s.run f)
    (h : ∀ s : State, cond s.dev → post s.dev (f s.quiet).refresh ∧ s.dev.changesOnly l (f s.quiet).refresh) :
    Happens i l cond post :=
  fun s hruns hcond => ⟨_, (hexec s).trans (State.run_next f hruns), h s hcond⟩

/-- Taking a command leaves every pin as it holds. -/
theorem State.pinHolds_taken (s : State) (n k : Nat) (p : Pin) : State.pinHolds { s with dev := s.taken n k } p = s.pinHolds p := by
  by_cases h : p.slot = n
  · subst h; simp only [State.pinHolds, State.taken, Dev.slot_takeCmd_self]; rfl
  · simp only [State.pinHolds, State.taken, Dev.slot_takeCmd_ne _ k h]; rfl

/-- Taking a command leaves the session's view (R76, R77). -/
theorem State.view_taken (s : State) (n k slot : Nat) : State.view { s with dev := s.taken n k } slot = s.view slot := by
  simp only [State.view, State.pinHolds_taken]

/-- A verb that answers with a layout of the session's view is a read, and shows the layout's fields. -/
theorem reads_onView {v : Verb} {i : HostCall → Instr} {n : Nat} {ok : Call → Dev → Prop} {flds l : Call → Dev → List Bf}
    {f : Call → Dev → Ans} (hexec : ∀ c s, exec (i c) s = runVerb v (onView f) c s)
    (hans : ∀ c w, ok c w → f c w = .now .ok (res n (l c w)))
    (hapart : ∀ c w, (l c w).Pairwise Bf.apart) (hflds : ∀ c w, flds c w ⊆ l c w) : Reads v i n ok flds := by
  intro c s k e h hok
  obtain ⟨t, ht, ha, -, hc⟩ := completes_now (r := res n (l (v.callOf c s e) (s.view c.slot))) (l := [.ctl, .mon]) hexec h
    (Prod.ext ((congrArg (f _) (s.view_taken c.slot k c.slot)).trans (hans _ _ hok)) rfl) rfl (by simp) (Dev.changesOnly_refl _ _)
  exact ⟨t, ht, ⟨_, ha, rfl, fun b hb => bits_pack (hapart _ _) (hflds _ _ hb)⟩, hc⟩

end Sys2Proof.Machine
end

section
/-! VTILE_SETPOINT_CHANGE and `VTILE_REQ_MV` (R486). -/

namespace Sys2Proof.Machine

/-- What the device does when its silicon asks for a setpoint of mv. -/
def Dev.requestVtile (mv : Nat) (d : Dev) : Dev :=
  if 670 ≤ mv ∧ mv ≤ 730 ∧ mv % 5 = 0 ∧ mv ≠ d.power.vtile ∧ d.fwRuns then
    (d.modPower fun p => { p with vtile := mv }).raiseAt .vtileRequest ⟨.power, 0⟩ mv
  else d

theorem exec_vtileSetpointChange (mv : Nat) (s : State) : exec (.vtileSetpointChange mv) s = s.run (Dev.requestVtile mv) := rfl

/-- A valid setpoint that differs is requested, with its event. -/
theorem Dev.requestVtile_changed {mv : Nat} {d : Dev}
    (h : 670 ≤ mv ∧ mv ≤ 730 ∧ mv % 5 = 0 ∧ mv ≠ d.power.vtile ∧ d.fwRuns = true) :
    d.requestVtile mv = (d.modPower fun p => { p with vtile := mv }).raiseAt .vtileRequest ⟨.power, 0⟩ mv := if_pos h

/-- A value that is no setpoint, or the one requested already, leaves the device as it was. -/
theorem Dev.requestVtile_same {mv : Nat} {d : Dev} (h : ¬(670 ≤ mv ∧ mv ≤ 730 ∧ mv % 5 = 0) ∨ mv = d.power.vtile) :
    d.requestVtile mv = d :=
  if_neg fun ⟨hlow, hhigh, hstep, hne, _⟩ => h.elim (· ⟨hlow, hhigh, hstep⟩) hne

theorem exec_powerStatus (c : HostCall) (s : State) :
    exec (.powerStatus c) s = runVerb verbPowerStatus (onView fun _ v => .now .ok (powerStatus v)) c s := rfl

/-- Settles O52: the two event clauses are the two branches of `Dev.requestVtile`, and `VTILE_REQ_MV` is a field of the status. -/
theorem vtileSetpointIsRequestedAndReported : Obligations.VtileSetpointIsRequestedAndReported := by
  refine ⟨fun mv => ?changed, fun mv => ?same, ?reported⟩
  case changed =>
    refine happens_run (exec_vtileSetpointChange mv) fun s h => ?_
    rw [Dev.requestVtile_changed (d := s.quiet) h, Dev.raiseAt]
    refine ⟨⟨by simp, Dev.raised_refresh.mpr ?raised⟩, by simp [Dev.changesOnly]⟩
    case raised => exact Dev.raised_of_same (b := s.quiet.modPower _) rfl rfl (Dev.raised_raise _ _ _ _ _)
  case same =>
    refine happens_run (exec_vtileSetpointChange mv) fun s h => ?_
    rw [Dev.requestVtile_same (d := s.quiet) h]
    exact ⟨by simp, by simp [Dev.changesOnly]⟩
  case reported =>
    refine reads_onView exec_powerStatus (fun _ _ _ => rfl) (fun _ w => ?apart) fun _ w => ?shown
    case apart => simp [Bf.apart, at', fieldAt, fieldAtS]
    case shown => simp

end Sys2Proof.Machine
end

section
/-! Commands without a buffer that name a patch: what the checks of R569 answer for units of this device, and a unit's own check that
refuses the whole command (R66). -/

namespace Sys2Proof.Machine

variable {v : Verb} {c : Call} {d : Dev}

/-- A verb that takes no buffer and needs one role whatever its parameters. -/
structure Verb.Unbuffered (v : Verb) : Prop where
  ext : v.ext = .never
  entryLen : v.entryLen = 0
  roleBit : v.roleBit = none
  devRole : v.devRole = none

/-- Without a buffer, steps 5 to 7 of R569 leave the checks of the layout's rows and the verb's own. -/
theorem Verb.Unbuffered.checkParams_of_fits (h : v.Unbuffered) (hfit : v.fits c d) :
    v.checkParams c v.len =
      if v.params.any (·.badCode v.groups c) || v.codes c then some .badParameter
      else if v.params.any (·.outOfRange c) || v.ranges c then some .outOfRange else none := by
  obtain ⟨-, -, -, hext⟩ := hfit
  have hform : v.badForm c v.len = false := by simp [Verb.badForm, Verb.lenFor, ExtUse.optional, ExtUse.wrong, h.ext, hext]
  have hgap : v.gapSet c = false := by simp [Verb.gapSet, ExtUse.optional, h.ext]
  have hentries : v.entries c = [] := by simp [Verb.entries, h.entryLen]
  simp [Verb.checkParams, hform, hgap, Verb.badEntry, Verb.entryOut, hentries]

/-- A call that fits has the role that the verb needs. -/
theorem Verb.Unbuffered.not_denied (h : v.Unbuffered) (hfit : v.fits c d) : ¬c.role.code < (v.roleOf c).code := by
  simpa [Verb.roleOf, h.roleBit, h.devRole] using hfit.2.1

/-- What steps 5 to 7 of R569 refuse is refused, whatever devices the call names: they come before step 8. -/
theorem Verb.Unbuffered.check_of_refused (h : v.Unbuffered) (hfit : v.fits c d) {st : Status} (hc : v.checkParams c v.len = some st) :
    v.check c d = some st := by
  simp [Verb.check, h.not_denied hfit, hfit.2.2.1, hc]

/-- A call that names units of this device alone is refused by steps 5 to 7 of R569 or not at all. -/
theorem Verb.Unbuffered.check_of_near (h : v.Unbuffered) (hfit : v.fits c d) (hnear : v.remotes c d = []) :
    v.check c d = v.checkParams c v.len := by
  have hdenied := h.not_denied hfit
  obtain ⟨-, -, hlen, hext⟩ := hfit
  cases hc : v.checkParams c v.len <;> simp [Verb.check, hdenied, hlen, hext, hnear, hc]

/-- A staging command one of whose units its own check refuses answers that status, and nothing is staged (R66). -/
theorem serves_stageEach_refused {i : HostCall → Instr} {st : Status} {ok : Call → Dev → Dev → Prop}
    {chk : Call → Dev → Nat → Option Status} {vals : Call → Dev → Nat → List FieldVal}
    (hexec : ∀ c s, exec (i c) s = runVerb v (stageEach chk vals) c s)
    (hchk : ∀ c w d, ok c w d → (c.insts d).findSome? (chk c d) = some st) :
    Serves v i st [.ctl, .mon] ok (fun _ _ _ => {}) fun _ d d' => d'.cfg = d.cfg := by
  intro c s k e h hok
  obtain ⟨t, ht, ha, hd, hc⟩ := completes_now (r := {}) (l := [.ctl, .mon]) (d := s.taken c.slot k) (st := st) hexec h
    (by simp [stageEach, onDev, hchk _ _ _ hok]) rfl (by simp) (Dev.changesOnly_refl _ _)
  exact ⟨t, ht, ha, by simp [hd, Dev.respond_cfg _ h.lt], hc⟩

end Sys2Proof.Machine
end

section
/-! `MON.SELECT` (R501): which patches are monitored (R491), what its checks answer, and what a group with another member answers. -/

namespace Sys2Proof.Machine

theorem exec_monSelect (c : HostCall) (s : State) : exec (.monSelect c) s = execMonSelect c s := rfl

theorem verbMonSelect_unbuffered : verbMonSelect.Unbuffered := ⟨rfl, rfl, rfl, rfl⟩

/-! ### The monitored patches (R491) -/

/-- The patches of the monitored units, class by class. -/
theorem monUnits_patches : MonUnit.all.map MonUnit.patch = monKinds.flatMap fun e => (List.range (e.2.2 + 1)).map (Patch.mk e.1) := by
  decide

/-- A patch has a monitored unit exactly where the layout's list covers its class and number. -/
theorem isSome_ofPatch (p : Patch) :
    (MonUnit.ofPatch p).isSome = monKinds.any fun e => e.1 == p.cls && decide (e.2.1 ≤ p.inst) && decide (p.inst ≤ e.2.2) := by
  have hmem : (MonUnit.ofPatch p).isSome = true ↔ p ∈ MonUnit.all.map MonUnit.patch := by simp [MonUnit.ofPatch]
  have hlow : ∀ e ∈ monKinds, e.2.1 = 0 := by decide
  rw [Bool.eq_iff_iff, hmem, monUnits_patches, List.mem_flatMap, List.any_eq_true]
  refine exists_congr fun e => and_congr_right fun he => ?_
  obtain ⟨cls, inst⟩ := p
  simp [hlow e he, and_comm]

/-- The reference names a monitored patch, or a group of a class that has monitored patches. -/
abbrev PatchRef.monitored (r : PatchRef) : Bool :=
  if r.group then [.device, .line, .subcarrier, .pipeline, .cipher, .hbm, .port, .stitchLane].contains r.cls
  else (MonUnit.ofPatch ⟨r.cls, r.inst⟩).isSome

/-- The layout's patch row takes the references to monitored patches alone. -/
theorem badVal_monKinds (n : Nat) : (Kind.patch monKinds).badVal true n = !(PatchRef.ofId n).any PatchRef.monitored := by
  cases h : PatchRef.ofId n with
  | none => simp [Kind.badVal, h]
  | some r =>
    cases hg : r.group with
    | true =>
      have hcls : (monKinds.any fun e => e.1 == r.cls) =
          [.device, .line, .subcarrier, .pipeline, .cipher, .hbm, .port, .stitchLane].contains r.cls := by
        cases r.cls <;> rfl
      simp only [Kind.badVal, h, hg, hcls, Option.any_some, PatchRef.monitored, if_true, Bool.true_and]
    | false => simp only [Kind.badVal, h, hg, Option.any_some, PatchRef.monitored, isSome_ofPatch, Bool.false_eq_true, if_false]

/-! ### The checks (R569) -/

/-- The call names a monitored patch or a group of such a class. -/
abbrev Call.namesMonitored (c : Call) : Prop := (c.patch 0).any PatchRef.monitored = true

/-- The reserved bits of the call are zero. -/
abbrev Call.monSelectClear (c : Call) : Prop := c.p 5 4 4 = 0 ∧ c.p 6 0 16 = 0

/-- The mask names a counter, and the selection code is one of the nine. -/
abbrev Call.monSelectInRange (c : Call) : Prop := 1 ≤ c.p 4 0 8 ∧ c.p 5 0 4 ≤ 8

/-- A row of the layout is miscoded exactly where the patch is not monitored or a reserved bit is set. -/
theorem verbMonSelect_badCode (c : Call) :
    verbMonSelect.params.any (·.badCode verbMonSelect.groups c) = true ↔ ¬(c.namesMonitored ∧ c.monSelectClear) := by
  have hpatch : Param.badCode ⟨0, 0, 32, .patch monKinds⟩ true c = !(c.patch 0).any PatchRef.monitored := badVal_monKinds _
  have hrow : verbMonSelect.params.any (·.badCode verbMonSelect.groups c) =
      (!(c.patch 0).any PatchRef.monitored || (c.p 5 4 4 != 0 || c.p 6 0 16 != 0)) := by
    rw [← hpatch]; simp [verbMonSelect, Param.badCode, Kind.badVal]
  simp [hrow, imp_iff_not_or]

/-- A parameter of w bits is below 2^w. -/
theorem Call.p_lt (c : Call) (o lo w : Nat) : c.p o lo w < 2 ^ w := Nat.mod_lt _ (Nat.two_pow_pos w)

/-- The mask's upper bound is no check of its own: the field has 8 bits. -/
theorem verbMonSelect_outOfRange (c : Call) : verbMonSelect.params.any (·.outOfRange c) = true ↔ ¬c.monSelectInRange := by
  have hmask : c.p 4 0 8 < 2 ^ 8 := c.p_lt 4 0 8
  simp only [verbMonSelect, List.any_cons, List.any_nil, Param.outOfRange, Kind.outVal, Bool.or_eq_true, decide_eq_true_eq,
    Bool.false_eq_true, or_false, false_or, Call.monSelectInRange]
  omega

theorem verbMonSelect_checkParams {c : Call} {d : Dev} (h : verbMonSelect.fits c d) :
    verbMonSelect.checkParams c verbMonSelect.len =
      if c.namesMonitored ∧ c.monSelectClear then if c.monSelectInRange then none else some .outOfRange else some .badParameter := by
  have hcodes : verbMonSelect.codes c = false := rfl
  have hranges : verbMonSelect.ranges c = false := rfl
  simp only [verbMonSelect_unbuffered.checkParams_of_fits h, hcodes, hranges, Bool.or_false, verbMonSelect_badCode,
    verbMonSelect_outOfRange, ite_not]

/-- A call that fits and names units of this device alone passes exactly with a monitored patch, clear reserved bits and both values in
range. -/
theorem verbMonSelect_check_eq_none {c : Call} {d : Dev} (h : verbMonSelect.fits c d) (hnear : verbMonSelect.remotes c d = []) :
    verbMonSelect.check c d = none ↔ c.namesMonitored ∧ c.monSelectClear ∧ c.monSelectInRange := by
  rw [verbMonSelect_unbuffered.check_of_near h hnear, verbMonSelect_checkParams h]
  split_ifs with hgood hin
  · exact iff_of_true rfl ⟨hgood.1, hgood.2, hin⟩
  · exact iff_of_false nofun fun hall => hin hall.2.2
  · exact iff_of_false nofun fun hall => hgood ⟨hall.1, hall.2.1⟩

/-! ### The members of a group -/

theorem notMonitored_eq_none {c : Call} {d : Dev} {i : Nat} (h : (MonUnit.ofPatch ⟨c.cls, i⟩).isSome = true) :
    notMonitored c d i = none := by simp [notMonitored, Option.isNone_eq_false_iff.mpr h]

/-- One member that is not monitored refuses the whole command. -/
theorem findSome?_notMonitored {c : Call} {d : Dev} {l : List Nat} (h : ∃ i ∈ l, (MonUnit.ofPatch ⟨c.cls, i⟩).isSome = false) :
    l.findSome? (notMonitored c d) = some .badParameter := by
  obtain ⟨i, hi, hnone⟩ := h
  have hbad : (notMonitored c d i).isSome := by simp [notMonitored, Option.isSome_eq_false_iff.mp hnone]
  obtain ⟨st, hst⟩ := Option.isSome_iff_exists.mp (List.findSome?_isSome_iff.mpr ⟨i, hi, hbad⟩)
  obtain ⟨j, -, hj⟩ := List.exists_of_findSome?_eq_some hst
  have heq : Status.badParameter = st := by simpa using (Option.ite_none_right_eq_some.mp hj).2
  rw [hst, heq]

/-- Settles O53: the rows of the layout refuse a patch that is not monitored and a code above 8, and the meaning refuses a group with a
member that is not monitored before it stages. -/
theorem monSelectStagesCounterCodes : Obligations.MonSelectStagesCounterCodes := by
  refine ⟨⟨rfl, rfl, rfl, rfl⟩, ?accepts, ?otherPatch, ?otherCode, ?otherMember, ?stages⟩
  case accepts => exact fun _ _ => verbMonSelect_check_eq_none
  case otherPatch =>
    refine refuses_of_check _ exec_monSelect fun c d ⟨h, hother⟩ => verbMonSelect_unbuffered.check_of_refused h ?_
    rw [verbMonSelect_checkParams h, if_neg fun hgood => hother hgood.1]
  case otherCode =>
    refine refuses_of_check _ exec_monSelect fun c d ⟨h, hnames, hclear, hcode⟩ => verbMonSelect_unbuffered.check_of_refused h ?_
    rw [verbMonSelect_checkParams h, if_pos ⟨hnames, hclear⟩, if_neg fun hin => hcode.not_ge hin.2]
  case otherMember => exact serves_stageEach_refused exec_monSelect fun _ _ _ h => findSome?_notMonitored h
  case stages => exact stages_stageEach exec_monSelect fun _ _ hok i hi => notMonitored_eq_none (hok i hi)

end Sys2Proof.Machine
end
